-- ==== Sys2Proof/Word.lean ====
section
/-! DEFINITION. The words of the BY4096: 32-bit register words (R4), bytes, and the plainest
arithmetic on naturals and integers that the rules use: bit fields, sign extension, rounding to the
nearest integer with ties to even. -/

namespace Sys2Proof

/-- A register word (R4). -/
abbrev Word := BitVec 32

/-- One byte of memory or of a wire image. -/
abbrev Byte := BitVec 8

/-- Bits `hi:lo` of a natural, as a natural. -/
def bits (n hi lo : Nat) : Nat := n / 2 ^ lo % 2 ^ (hi + 1 - lo)

/-- Bit `i` of a natural. -/
def bit (n i : Nat) : Bool := n.testBit i

/-- 1 for true, 0 for false. -/
def b2n (b : Bool) : Nat := if b then 1 else 0

/-- The two's-complement value of the low `w` bits of `n`. -/
def sext (w n : Nat) : Int :=
  let m := n % 2 ^ w
  if m < 2 ^ (w - 1) then (m : Int) else (m : Int) - (2 ^ w : Nat)

/-- The low `w` bits of an integer, as a natural. -/
def wrapBits (w : Nat) (x : Int) : Nat := (x % (2 ^ w : Nat)).toNat

/-- Quotient of `n` by a positive `d`, rounded to the nearest integer, a tie to even. -/
def rneDiv (n : Int) (d : Nat) : Int :=
  let q := n / (d : Int)
  let r := n % (d : Int)
  let t := 2 * r - (d : Int)
  if t < 0 then q else if 0 < t then q + 1 else if q % 2 = 0 then q else q + 1

/-- `x / 2^k` rounded to the nearest integer, a tie to even. -/
def rneShr (x : Int) (k : Nat) : Int := rneDiv x (2 ^ k)

/-- `x` clamped to `lo` to `hi`. -/
def clamp (lo hi x : Int) : Int := if x < lo then lo else if hi < x then hi else x

/-- `⌈a / b⌉` on naturals. -/
def cdiv (a b : Nat) : Nat := (a + b - 1) / b

/-- The natural square root, rounded down, by binary search over `k` bits. -/
def isqrtAux : Nat → Nat → Nat → Nat
  | 0, _, acc => acc
  | k + 1, n, acc =>
    let t := acc + 2 ^ k
    isqrtAux k n (if t * t ≤ n then t else acc)

/-- The natural square root of `n`, rounded down. -/
def isqrt (n : Nat) : Nat := isqrtAux (Nat.log2 n / 2 + 1) n 0

end Sys2Proof
end

