-- ==== Sys2Proof/Syntax.lean ====
section
/-! DEFINITION. The commands of the BY4096: one constructor for each row of spec/opcode_table.json, with
what the environment supplies at the instant as operands. A command that names a half carries it first. -/

namespace Sys2Proof

/-- The two halves (R9). -/
inductive HalfId where
  | north | south
  deriving DecidableEq, Repr

/-- The other half. -/
def HalfId.other : HalfId → HalfId
  | .north => .south
  | .south => .north

/-- A command frame reaching Exylo (R398): a datagram at the management port with its sender's station address, IPv4 address and
UDP port, the frame submitted in the mailbox, or the frame assembled by the SMBus target. -/
inductive Rx where
  | udp (mac ip : List Byte) (port : Nat) (bytes : List Byte)
  | mailbox
  | smbus
  deriving DecidableEq, Repr

/-- How a serial frame or block arrived: whole with its check right, or with an uncorrectable codeword. -/
inductive Integrity where
  | good | bad
  deriving DecidableEq, Repr

/-- What a receiver in training asks of the far transmitter (R265): a preset, or one step up or down of a tap, c(−3) being tap 0. -/
inductive TapAsk where
  | preset (n : Nat)
  | step (tap : Nat) (up : Bool)
  deriving DecidableEq, Repr

/-- What the receiver found of an Ethernet frame: whether a block of it is marked bad (R260), and whether its FCS is right (R57). -/
structure FrameMarks where
  integrity : Integrity
  fcsOk : Bool
  deriving DecidableEq, Repr

/-- A frame at the management port, and whether a block of it is marked bad (R260). -/
structure PortFrame where
  integrity : Integrity
  bytes : List Byte
  deriving DecidableEq, Repr

/-- Faults of a window of codewords (R263): uncorrectable codewords, and invalid sync headers that ended in no loss of lock (Table LAN-14). -/
structure WindowFaults where
  uncCw : Nat
  badHdr : Nat
  deriving DecidableEq, Repr

/-- Precoding as training leaves it (R265): the far transmitter precodes, and the far receiver asks the lane to. -/
structure Precoding where
  far : Bool
  farAsks : Bool
  deriving DecidableEq, Repr

/-- What a heartbeat carries (R328). -/
structure Heartbeat where
  epoch : Nat
  /-- ROLE code of Table LSE-7. -/
  role : Nat
  /-- Half state code of Table LSE-1. -/
  hstate : Nat
  hot : Bool
  seq : Nat
  echo : Nat
  /-- The device record, from the primary; DEV_STATE travels with it (R422). -/
  drec : List Word
  devState : Word
  deriving DecidableEq, Repr

/-- The two heartbeat paths (R328). -/
inductive HbPath where
  | bridge | sideband
  deriving DecidableEq, Repr

/-- How a fault of a bay shows (R159). -/
inductive BayFaultKind where
  | residue | parity | drainCrc
  deriving DecidableEq, Repr

/-- Outcomes of a read at a pseudo-channel (Table HBM-3): as read, on-die corrected, single-bit, double-bit or on-die
uncorrected, and a parity error whose command failed `tries` times. -/
inductive ReadOutcome where
  | clean | onDie | single | double | parity (tries : Nat)
  deriving DecidableEq, Repr

/-- Where a Roundabout transaction goes (Table RDB-2): HBM by HBM address, the Courtyard, the register space. -/
inductive Space where
  | hbm | courtyard | registers
  deriving DecidableEq, Repr

/-- A transaction of a master (R295): its master port, whether its target lies in the other half, its QoS where the port does
not set it, the space, byte address, beats, and for a write its bytes and byte enables (bit j: byte j), which in the register space say which
bytes of the word a read or write touches (R4); the hint bit (R280); a register write that completes inside the hand-over window (R31). -/
structure Txn where
  master : Nat
  remote : Bool
  write : Bool
  space : Space
  addr : Nat
  beats : Nat
  be : Nat
  data : List Byte
  hint : Bool
  late : Bool
  deriving DecidableEq, Repr

/-- A transaction at the pseudo-channels' queues, with how often its command or its write data failed parity (Table HBM-3), for a write; and
whether that falls inside the hand-over window (R31). -/
structure HbmAccess where
  txn : Txn
  parity : Nat
  inWindow : Bool
  deriving DecidableEq, Repr

/-- A read of CLAIM of a target; `raised`: the source it takes is raised by its owner in the claim cycle itself (R351). -/
structure ClaimRead where
  target : Nat
  raised : Bool
  deriving DecidableEq, Repr

/-- A rail at power good, with what READ_VOUT and READ_IOUT return (R366). -/
structure RailReading where
  rail : Nat
  vout : Nat
  iout : Nat
  deriving DecidableEq, Repr

/-- A rail that does not come up; `pmbFail`: since its PMBus transaction failed (R364). -/
structure RailFailure where
  rail : Nat
  pmbFail : Bool
  deriving DecidableEq, Repr

/-- How a register write comes: inside the hand-over window (R31), not over the whole word (R4), and with the bits that hardware set in its
MCLK cycle (R7). -/
structure WriteMarks where
  inWindow : Bool
  narrow : Bool
  same : Word
  deriving DecidableEq, Repr

/-- A register read of a master: its address, whether it does not cover the whole word (R4), and what hardware added to each RC field, at its
place in the word, in the MCLK cycle of the read (R7). -/
structure RegisterRead where
  addr : Nat
  narrow : Bool
  inc : Word
  deriving DecidableEq, Repr

/-- A read of a low word: its address, and whether it does not cover the whole word (R4). -/
structure LowWordRead where
  addr : Nat
  narrow : Bool
  deriving DecidableEq, Repr

/-- A command frame and whether its writes fall inside the hand-over window (R31). -/
structure TimedRx where
  rx : Rx
  inWindow : Bool
  deriving DecidableEq, Repr

/-- The commands: one constructor for each row of the table. -/
inductive Instr where
  /-- TICK (R307). Device time reaches N_k; tick k opens frame k, and every stage hands over one frame. -/
  | tick (failN failS : List Nat) (clear : List HalfId)
  /-- ARCADE_OVERRUN (R27). At tick j+Δ+1 every unclosed block of frame j is dropped whole, FRAME_OVERRUN is raised and DROPPED is counted. -/
  | arcadeOverrun (h : HalfId)
  /-- FOLDER_OVERRUN (R28). At tick j+Δ+2 a block not yet folded is rolled back and dropped, and FRAME_OVERRUN is raised with the folder as stage. -/
  | folderOverrun (h : HalfId)
  /-- OUTPUT_LATE (R29). The bound of R18 passes with packets of a dump unsent; they are still sent, and OUTPUT_LATE is raised. -/
  | outputLate (h : HalfId)
  /-- LANDING_INSTANT (R123). At tick j+Δ plus W, corner-turn buffer j mod 2 is handed to the Arcade and the unmarked blocks are counted in XCH_CT_MISS. -/
  | landingInstant (h : HalfId)
  /-- BEAM_LATE (R205). Beam samples of frame j still unprocessed at tick j+Δ+2 are discarded as dropped and counted in BMF_CNT.LATE. -/
  | beamLate (h : HalfId)
  /-- CAP_FREEZE_BOUND (R223). A TRIGGERED feed reaches its freeze tick and becomes FROZEN, with SHORT set if any input is short. -/
  | capFreezeBound (h : HalfId) (v : Nat)
  /-- PPS_EDGE (R308). Device time reaches a whole TAI second, and the primary drives a PPS_OUT pulse. -/
  | ppsEdge (sec : Nat)
  /-- SSF_RECEIVED (R56). A sample-stream frame received on an ingest lane passes the checks of Table ING-3 in order and is accepted or discarded. -/
  | ssfReceived (h : HalfId) (lane : Nat) (integrity : Integrity) (bytes : List Byte)
  /-- ETH_FRAME_RECEIVED (R57). An Ethernet frame on an ingest lane is accepted under R57 or counted in ETH_DROP; its payload is then checked as an SSF. -/
  | ethFrameReceived (h : HalfId) (lane : Nat) (marks : FrameMarks) (bytes : List Byte)
  /-- ETH_GAP_TIMEOUT (R60). An Ethernet-mode gap closes as missing once 16 later SSFs have been accepted or 100 µs have passed. -/
  | ethGapTimeout (h : HalfId) (q : Nat)
  /-- ING_RUN_CLEAR (R64). Clearing ING_CTL.RUN or a lane's EN discards that lane's frames, including any SSF in progress, uncounted. -/
  | ingRunClear (h : HalfId) (lane : Option Nat)
  /-- SPECTRUM_FORMED (R66). Once its span of samples is present, an input's spectrum is transformed, flagged, phased and requantised. -/
  | spectrumFormed (h : HalfId) (q n : Nat) (badCoef : Option Nat)
  /-- PWR_WARMUP_END (R81). After 2^TAU eligible spectra, μ is set to the exact mean of their powers. -/
  | pwrWarmupEnd (h : HalfId) (q : Nat)
  /-- PWR_RESEED (R81). 2^TAU consecutive raw-flagged eligible spectra restart the warm-up, and PWR_RESEED is logged. -/
  | pwrReseed (h : HalfId) (q : Nat)
  /-- COEF_RELOAD_DONE (R73). The reload of a bad coefficient entry from the master copy completes. -/
  | coefReloadDone (h : HalfId) (pipe entry : Nat) (masterOk : Bool)
  /-- SK_DECISION (R84). Once an SK block and its guard spectra have left the FFT, SK_SHORT or the SK bit of each channel is decided. -/
  | skDecision (h : HalfId) (q b : Nat)
  /-- DELAY_STORE_WRITE (R104). A y-spectrum whose deferred flags are final is written to its store row, or discarded as late or early. -/
  | delayStoreWrite (h : HalfId) (q n : Nat)
  /-- DELAY_STORE_READ (R103). Output spectrum σ is read on the tick timeline, with invalid codes for rows not written or deferred-flagged, and the row-valid bit is cleared. -/
  | delayStoreRead (h : HalfId)
  /-- DATA_BLOCK_RECEIVED (R120). A received Kradel data block is checked under Table XCH-4, then landed, forwarded or discarded. -/
  | dataBlockReceived (h : HalfId) (n : Nat) (integrity : Integrity) (bytes : List Byte)
  /-- HELLO_RECEIVED (R114). A peer HELLO is compared for configuration and wiring agreement, advancing or holding the link group. -/
  | helloReceived (h : HalfId) (n : Nat) (bytes : List Byte)
  /-- HELLO_SEND (R113). A HELLO block is sent every 10 µs until IN_SERVICE, then once per tick. -/
  | helloSend (h : HalfId) (n : Nat)
  /-- TICK_BLOCK_RECEIVED (R116). A peer TICK block gives the tick offset θ, is checked for frame index, skew and latency, and feeds the peer-tick reference. -/
  | tickBlockReceived (h : HalfId) (n : Nat) (bytes : List Byte) (ofs : Int)
  /-- PROBE_SEND (R113). A PROBE block carrying its send time is sent once per tick interval. -/
  | probeSend (h : HalfId) (n t1 : Nat)
  /-- PROBE_RECEIVED (R113). A received PROBE is answered with an ECHO that carries the receive and send times. -/
  | probeReceived (h : HalfId) (n : Nat) (bytes : List Byte) (t2 t3 : Nat)
  /-- ECHO_RECEIVED (R115). An ECHO updates the lane latency ℓ and may complete MEASURE or hold the group with XCH_LATENCY. -/
  | echoReceived (h : HalfId) (n : Nat) (bytes : List Byte) (t4 : Nat)
  /-- CREDIT_RECEIVED (R119). A CREDIT block returns data-block credits to the sender of a lane. -/
  | creditReceived (h : HalfId) (n : Nat) (bytes : List Byte)
  /-- CREDIT_SEND (R119). While credits are owed, a CREDIT block is sent at most every 1 µs. -/
  | creditSend (h : HalfId) (n : Nat)
  /-- XCH_RUN_CLEAR (R117). Clearing XCH_CTL.RUN takes every group to DOWN, and every block not yet landed becomes missing. -/
  | xchRunClear (h : HalfId)
  /-- ARC_OP_OPEN (R147). OPEN waits for earlier drains and for the folder's release, then zeroes and tags its slots and zeroes its tally records. -/
  | arcOpOpen (h : HalfId)
  /-- ARC_OP_STAGE (R147). STAGE loads a stripe of input blocks from the corner-turn buffer into a stripe buffer, with invalid codes for unmarked runs. -/
  | arcOpStage (h : HalfId)
  /-- ARC_OP_XT (R147). XT issues the correlation passes of a tile sweep to idle bays. -/
  | arcOpXt (h : HalfId)
  /-- ARC_OP_BT (R147). BT issues the beam passes of a beam group over every staged block, one per window. -/
  | arcOpBt (h : HalfId)
  /-- ARC_OP_CLOSE (R147). CLOSE waits until the block has drained, then hands its slots and spilled records to the folder. -/
  | arcOpClose (h : HalfId)
  /-- ARC_OP_SAVE (R157). SAVE writes a context image of slots, tally records and optionally cell state to HBM. -/
  | arcOpSave (h : HalfId)
  /-- ARC_OP_RESTORE (R158). RESTORE reads a context image back, or marks the slots suspect when its checks fail. -/
  | arcOpRestore (h : HalfId)
  /-- ARC_OP_SYNC (R147). SYNC issues nothing further until every earlier op of the half has completed. -/
  | arcOpSync (h : HalfId)
  /-- ARC_OP_LOOP (R146). LOOP repeats its body COUNT times, with the stripe index as the iteration. -/
  | arcOpLoop (h : HalfId)
  /-- ARC_OP_NOP (R147). NOP does nothing. -/
  | arcOpNop (h : HalfId)
  /-- ARC_OP_RESERVED (R148). An op with a reserved OPC or an invalid field is discarded, recorded in ARC_BADOP, and ARC_BAD_OP is logged. -/
  | arcOpReserved (h : HalfId)
  /-- PASS_END (R137). A finished pass moves its sums and counts into the drain latches and drains them into its slot and tally record. -/
  | passEnd (h : HalfId) (bay stall : Nat) (ecc : List (Nat × Bool))
  /-- LAST_DRAIN_SPILL (R168). Once its spill buffer is released, a LAST drain writes its completed tally record to the spill buffer and zeroes the record. -/
  | lastDrainSpill (h : HalfId) (r : Nat)
  /-- BAY_FAULT (R159). A residue, parity or drain CRC fault fences the bay, and its pass is reissued or its slot marked suspect. -/
  | bayFault (h : HalfId) (p cause : Nat) (draining : Bool)
  /-- ARC_RUN_CLEAR (R162). Clearing ARC_CTL.RUN abandons every pass and drops every block not yet closed. -/
  | arcRunClear (h : HalfId)
  /-- ARC_SUSPEND (R156). A write of ARC_CTL.SUSPEND stops or resumes pass issue. -/
  | arcSuspend (h : HalfId) (v : Bool)
  /-- ARC_HALT (R156). A write of ARC_DBG.HALT arms or releases the halt of a logical bay. -/
  | arcHalt (h : HalfId) (w : Word)
  /-- BAY_HALT_REACHED (R156). A bay reaches AT cycles into its next pass and stops HALTED. -/
  | bayHaltReached (h : HalfId)
  /-- ARC_PROG_DATA_WRITE (R162). A program word is stored at ADDR, which advances, unless it lies in a running subarray's program. -/
  | arcProgDataWrite (h : HalfId) (d : Word)
  /-- FOLD_BLOCK (R181). The folder takes the next closed block in turn, checks it, and adds its sums and counts into the L48 records. -/
  | foldBlock (h : HalfId) (ecc : List (Nat × Bool))
  /-- LTA_RUN_CLEAR (R193). Clearing LTA_CTL.RUN drops every block not yet folded and sets every fresh bit. -/
  | ltaRunClear (h : HalfId)
  /-- BEAM_TABLE_COPY_END (R196). The table copy into the new shadow image ends, and COPY clears. -/
  | beamTableCopyEnd (h : HalfId) (sub : Nat)
  /-- BEAM_TABLE_LOAD (R198). The loader copies a subarray's current image into the Courtyard beam-table region before its first BT pass. -/
  | beamTableLoad (h : HalfId) (sub : Nat)
  /-- BMF_TDATA_WRITE (R196). A beam-entry word is written to the shadow image and the address advances, or the write is ignored while COPY is 1. -/
  | bmfTdataWrite (h : HalfId) (d : Word) (inWindow : Bool)
  /-- BMF_SDATA_WRITE (R206). A scale value is written to the scale-table shadow, and the address advances. -/
  | bmfSdataWrite (h : HalfId) (d : Word) (inWindow : Bool)
  /-- BEAM_SAMPLE_PROCESS (R204). The post-processor takes drained beam samples in hand-off order for every product that reads them. -/
  | beamSampleProcess (h : HalfId) (ecc : List (Nat × Bool))
  /-- BMF_RUN_CLEAR (R215). Clearing BMF_CTL.RUN discards unprocessed beam samples and abandons open records. -/
  | bmfRunClear (h : HalfId)
  /-- CAP_ARM (R221). The ARM command arms a feed or restarts it, subject to the range checks of R224. -/
  | capArm (h : HalfId) (v : Nat)
  /-- CAP_TRIG (R222). The TRIG command triggers an ARMED feed. -/
  | capTrig (h : HalfId) (v : Nat)
  /-- CAP_FREEZE (R221). The FREEZE command makes a writing feed FROZEN. -/
  | capFreeze (h : HalfId) (v : Nat)
  /-- CAP_READ (R225). The READ command starts readout of the held records of a FROZEN feed. -/
  | capRead (h : HalfId) (v : Nat)
  /-- CAP_RELEASE (R221). The RELEASE command returns a feed to IDLE and discards its contents. -/
  | capRelease (h : HalfId) (v : Nat)
  /-- CAP_EVENT_TRIGGER (R222). The feed's TRIGSRC event becoming pending triggers an ARMED feed within 64 MCLK cycles. -/
  | capEventTrigger (h : HalfId) (v : Nat)
  /-- CAP_READ_DONE (R225). The last readout packet is handed to the Tramway, and the feed returns to FROZEN. -/
  | capReadDone (h : HalfId) (v : Nat)
  /-- CAP_RUN_CLEAR (R228). Clearing CAP_CTL.RUN stops writes and freezes every writing feed. -/
  | capRunClear (h : HalfId)
  /-- TRW_DOORBELL (R238). A doorbell makes an IDLE ring RUNNING, sets DBPEND, or rereads a PARKED ring's descriptor. -/
  | trwDoorbell (h : HalfId) (ring : Nat)
  /-- TRW_STOP (R240). STOP through TRW_RING_CMD stops a ring at a datagram boundary. -/
  | trwStop (h : HalfId) (ring : Nat)
  /-- TRW_START (R240). START through TRW_RING_CMD makes a STOPPED ring IDLE, or PARKED followed by a doorbell. -/
  | trwStart (h : HalfId) (ring : Nat)
  /-- TRW_CTX_DATA_WRITE (R242). A context word written through the window takes effect, or is ignored for a locked field of an active ring. -/
  | trwCtxDataWrite (h : HalfId) (w : Nat) (d : Word)
  /-- TRW_RUN_CLEAR (R240). Clearing TRW_CTL.RUN stops every ring of the half. -/
  | trwRunClear (h : HalfId)
  /-- LANE_GRANT (R243). A lane FIFO with room for a frame grants one datagram to the next eligible ring. -/
  | laneGrant (h : HalfId) (l t : Nat)
  /-- DATAGRAM_DONE (R232). An engine finishes moving a datagram into the lane FIFO, writes any due completion record and releases the ring. -/
  | datagramDone (h : HalfId) (ring : Nat)
  /-- OUT_FRAME_RECEIVED (R247). A frame received on an output lane is counted in RX and discarded. -/
  | outFrameReceived (h : HalfId) (p : Nat)
  /-- OUT_RUN_CLEAR (R252). Clearing OUT_CTL.RUN sends idles on every lane and loses the FIFO frames. -/
  | outRunClear (h : HalfId)
  /-- LANE_ENABLE (R262). Writing a lane's EN to 1 starts training, or enters ALIGNING directly. -/
  | laneEnable (h : HalfId) (lam : Nat)
  /-- LANE_DISABLE (R262). Writing a lane's EN to 0 takes it to OFF. -/
  | laneDisable (h : HalfId) (lam : Nat)
  /-- LOS_DETECT (R262). Received amplitude below signal detect for 1 µs takes the lane to FAULT with cause LOS. -/
  | losDetect (h : HalfId) (lam : Nat)
  /-- SIGNAL_PRESENT (R262). Signal present for 10 µs takes a FAULT lane to ALIGNING and opens the relock window. -/
  | signalPresent (h : HalfId) (lam : Nat)
  /-- FEC_ALIGN_LOSS (R262). Three consecutive missing alignment markers fault the lane with cause FEC_ALIGN. -/
  | fecAlignLoss (h : HalfId) (lam : Nat)
  /-- BLOCK_LOCK_LOSS (R262). 16 invalid sync headers within 64 blocks fault the lane with cause BLOCK_LOCK. -/
  | blockLockLoss (h : HalfId) (lam : Nat)
  /-- LANE_ALIGNED (R262). FEC alignment, block lock and clear LM blocks or fault sequences take an ALIGNING lane UP. -/
  | laneAligned (h : HalfId) (lam : Nat)
  /-- LM_BLOCK_RECEIVED (R259). A lane management block is checked and updates RF, DEG and the far lane identity. -/
  | lmBlockReceived (h : HalfId) (lam : Nat) (bytes : List Byte)
  /-- FEC_WINDOW_END (R263). A window of 65,536 codewords ends and is judged for DEGRADED, UP or an UNC fault. -/
  | fecWindowEnd (h : HalfId) (lam corrSym corrCw : Nat) (faults : WindowFaults)
  /-- TRAINING_READY (R265). Both ends have seen READY for 100 µs, and the lane enters ALIGNING. -/
  | trainingReady (h : HalfId) (lam : Nat) (asks : List TapAsk) (pre : Precoding)
  /-- TRAIN_TIMEOUT (R265). Training that has not finished within TRAIN_TMO faults the lane with cause TRAINING. -/
  | trainTimeout (h : HalfId) (lam : Nat)
  /-- RELOCK_WINDOW_END (R262). The 1 ms relock window ends without UP, and the lane retrains or faults. -/
  | relockWindowEnd (h : HalfId) (lam : Nat)
  /-- RETRY_TIMEOUT (R262). RETRY ms after a training or AN fault, the lane retrains. -/
  | retryTimeout (h : HalfId) (lam : Nat)
  /-- LANE_TEST_WRITE (R267). A LAN_TEST write selects the generator, checker and loopback, moving the lane into or out of TEST. -/
  | laneTestWrite (h : HalfId) (lam : Nat) (w : Word)
  /-- CHECKER_LOCK (R268). The pattern checker locks after 64 error-free bits, or drops lock after 32 errors in 256 bits. -/
  | checkerLock (h : HalfId) (lam : Nat) (lock : Bool) (errs units : Nat)
  /-- INJ_START (R270). GO with TYPE not 0 starts the error injector. -/
  | injStart (h : HalfId) (lam : Nat) (w : Word)
  /-- INJ_STOP (R270). GO with TYPE 0 stops the error injector. -/
  | injStop (h : HalfId) (lam : Nat)
  /-- INJECTION (R270). After PERIOD+1 codewords the injector applies its next error. -/
  | injection (h : HalfId) (lam : Nat)
  /-- HBM_TRANSACTION (R279). A transaction enters a pseudo-channel queue, or waits at the Roundabout while the queue is full. -/
  | hbmTransaction (h : HalfId) (now : Nat) (a : HbmAccess)
  /-- HBM_READ_RESULT (R284). A read completes with an outcome of Table HBM-3: corrected, poisoned or forwarded. -/
  | hbmReadResult (h : HalfId) (p now : Nat) (out : ReadOutcome) (inWindow : Bool)
  /-- REFRESH_DUE (R282). A bank's per-bank refresh falls due and is issued, postponed or forced. -/
  | refreshDue (h : HalfId) (p bank : Nat)
  /-- REFRESH_WINDOW_END (R283). A refresh window ends, and the activate tables are cleared. -/
  | refreshWindowEnd (h : HalfId) (stack : Nat)
  /-- SCRUB_READ (R286). The patrol scrub reads its next local unit. -/
  | scrubRead (h : HalfId) (p now : Nat) (out : ReadOutcome) (inWindow : Bool)
  /-- HBM_RETRAIN (R291). Every 128 ms a pseudo-channel's timing is retrained, and a failure fences it. -/
  | hbmRetrain (h : HalfId) (p : Nat) (ok inWindow : Bool)
  /-- HBM_TEMP_READ (R292). Each 1 ms a stack's temperature is read, setting the refresh rate and the activate limit. -/
  | hbmTempRead (h : HalfId) (stack : Nat) (temp : Int)
  /-- HBM_TRAINING_DONE (R290). The stacks of a half finish start-up training; failed pseudo-channels are FAILED and READY is set. -/
  | hbmTrainingDone (h : HalfId) (failed : List Nat)
  /-- HBM_PC_FENCE (R287). A write of HBM_PC[p].FENCE fences the pseudo-channel. -/
  | hbmPcFence (h : HalfId) (p : Nat) (inWindow : Bool)
  /-- RDB_REQUEST (R299). A transaction requests a target port and is granted by effective QoS at a burst boundary. -/
  | rdbRequest (h : HalfId) (now : Nat) (x : Txn)
  /-- BRIDGE_CRC_FAIL (R303). A bridge flit failing its CRC is replayed, and REPLAY is counted. -/
  | bridgeCrcFail (h : HalfId)
  /-- BRIDGE_DOWN (R304). The die bridge goes down, and every transaction across it completes with an error. -/
  | bridgeDown
  /-- BRIDGE_RETRAINED (R304). The die bridge finishes retraining itself. -/
  | bridgeRetrained
  /-- RDB_TIMEOUT (R305). A transaction with no response after TMO µs completes with an error, and its address is latched. -/
  | rdbTimeout (h : HalfId) (m id : Nat)
  /-- REFERENCE_EVENT (R310). A reference event forms the phase error e_r and updates the monitors. -/
  | referenceEvent (h : HalfId) (r : Nat) (obs : Int) (now tai : Nat)
  /-- SELECTION_CYCLE (R315). Every 1 ms the timing unit updates qualification, picks a reference and evaluates its state changes. -/
  | selectionCycle (h : HalfId) (los : Nat)
  /-- SECOND_UPDATE (R314). Each second FOFS is updated and the qualification counts advance. -/
  | secondUpdate (h : HalfId) (fofs : List Int)
  /-- HOLDOVER_MEAN_STORE (R319). Every 64 s while LOCKED the mean frequency correction is stored for the holdover model. -/
  | holdoverMeanStore (h : HalfId)
  /-- HO_TE_UPDATE (R320). Each second in holdover the time-error estimate is updated, and it may expire holdover. -/
  | hoTeUpdate (h : HalfId)
  /-- TIME_COPY (R309). Every 1 ms the secondary copies the primary's device time, loop state and DAC code. -/
  | timeCopy (h : HalfId)
  /-- PTP_TIMESTAMP (R323). A PTP event message is timestamped on the management port, and source 44 is raised. -/
  | ptpTimestamp (h : HalfId)
  /-- TSET_GO (R317). TMG_TSET.GO sets device time to the given TAI second and sets TIME_VALID. -/
  | tsetGo (h : HalfId)
  /-- ISLAND_POWER_UP (R361). The island's internal node exceeds 2.6 V and the island powers up. -/
  | islandPowerUp (h : HalfId)
  /-- ISLAND_READY (R361). 5 ms after power-up the island is ready, with its registers at reset. -/
  | islandReady (h : HalfId)
  /-- ISLAND_POWER_LOST (R361). Both feeds are lost; the island loses power and the half becomes ABSENT. -/
  | islandPowerLost (h : HalfId)
  /-- LEASE_LISTEN_END (R334). After 9 ms of listening at power-up, an island claims the role or stays secondary. -/
  | leaseListenEnd (h : HalfId)
  /-- HEARTBEAT_SEND (R328). Every 2 ms an island sends a heartbeat on both paths, with the device record from the primary. -/
  | heartbeatSend (h : HalfId)
  /-- HEARTBEAT_RECEIVED (R328). A heartbeat renews the lease view, and a competing primary claim is resolved by epoch. -/
  | heartbeatReceived (h : HalfId) (path : HbPath) (hb : Heartbeat)
  /-- PATH_SILENT (R328). A heartbeat path that has delivered nothing for 8 ms is silent, and LSE_PATH_LOST is logged. -/
  | pathSilent (h : HalfId) (path : HbPath)
  /-- PRIMARY_LEASE_LAPSE (R329). The primary's lease lapses, and its witness decides between SOLE and PARTITION. -/
  | primaryLeaseLapse (h : HalfId)
  /-- SECONDARY_LEASE_LAPSE (R330). The secondary's view of the lease lapses, and the 1 ms guard starts. -/
  | secondaryLeaseLapse (h : HalfId)
  /-- GUARD_EXPIRY (R330). After the guard the secondary reads its witness and either takes the role or enters PARTITION. -/
  | guardExpiry (h : HalfId)
  /-- WITNESS_FALL (R330). The witness of a half in PARTITION falls, and the half acts under R330 at once. -/
  | witnessFall (h : HalfId)
  /-- WITNESS_LOOP_FAULT (R327). The loop check disagrees with the island's own drive for 100 µs, and WIT_FAULT is set. -/
  | witnessLoopFault (h : HalfId)
  /-- RELINQUISH_RECEIVED (R338). The first copy of RELINQUISH makes the secondary take the role. -/
  | relinquishReceived (h : HalfId) (path : HbPath)
  /-- UNSURE_ENTRY (R335). A failed lease record check or a clock monitor trip makes the island UNSURE, and it sends a query. -/
  | unsureEntry (h : HalfId)
  /-- LEASE_QUERY_RECEIVED (R335). The other island answers an UNSURE query at once with its epoch and role. -/
  | leaseQueryReceived (h : HalfId) (path : HbPath)
  /-- LEASE_QUERY_ANSWER (R335). An UNSURE island adopts the role and epoch given by the answer. -/
  | leaseQueryAnswer (h : HalfId) (epoch role : Nat)
  /-- UNSURE_TIMEOUT (R335). No answer within 250 µs makes the island disable its drivers, deassert ALIVE and become secondary. -/
  | unsureTimeout (h : HalfId)
  /-- WATCHDOG_EXPIRY (R326). The watchdog expires without a KICK for 4 ms, and the half enters DOWN. -/
  | watchdogExpiry (h : HalfId)
  /-- LSE_WD_KICK (R326). A write of LSE_WD.KICK restarts the watchdog. -/
  | lseWdKick (h : HalfId)
  /-- LSE_HANDOVER (R338). LSE_CTL.HANDOVER makes the primary relinquish when the secondary is hot. -/
  | lseHandover (h : HalfId)
  /-- EVC_SELECT (R347). Each MCLK cycle the controller selects the lowest eligible pending source and offers it to the next eligible target. -/
  | evcSelect (h : HalfId)
  /-- EVC_CLAIM (R350). A read of CLAIM takes a standing offer into service, or returns 0. -/
  | evcClaim (h : HalfId) (c : ClaimRead)
  /-- EVC_COMPLETE (R352). A write of COMPLETE clears the target's in-service state, logging EVC_FAULT on a mismatch. -/
  | evcComplete (h : HalfId) (t n : Nat)
  /-- EVC_SWSET (R345). A write of EVC_SWSET raises an edge source as its owner would. -/
  | evcSwset (h : HalfId) (n : Nat)
  /-- EVC_PENDING_CLEAR (R345). A 1 written to EVC_PENDING clears an edge source that is neither offered nor in service. -/
  | evcPendingClear (h : HalfId) (w : Nat) (v : Word)
  /-- HOLD_OFF_EXPIRY (R349). A group's hold-off interval ends, and its pending sources may be offered. -/
  | holdOffExpiry (h : HalfId) (g : Nat)
  /-- CORE_WFI (R355). A management core executes WFI and sleeps. -/
  | coreWfi (h : HalfId) (core : Nat)
  /-- MSIX_MASK_CLEAR (R357). Clearing an MSI-X mask sends a held message. -/
  | msixMaskClear (h : HalfId) (entry : Option Nat)
  /-- FEED_COMPARATOR (R362). A preferred feed below 2.65 V releases the held-off diode within 1 µs. -/
  | feedComparator (h : HalfId)
  /-- FEED_SAMPLE (R363). Every 100 µs a feed sample updates feed FAULT and good states. -/
  | feedSample (h : HalfId) (va ia vb ib : Nat)
  /-- RAIL_POWER_GOOD (R366). A rail reaches power good, and the next sequencing step starts 100 µs later. -/
  | railPowerGood (h : HalfId) (r : RailReading)
  /-- RAIL_STEP_TIMEOUT (R366). A rail step without power good in 5 ms fails; the rails on are switched off and a retry is scheduled. -/
  | railStepTimeout (h : HalfId) (r : RailFailure)
  /-- SEQ_RETRY_TIMER (R366). 100 ms after a failed switch-up, the sequence is retried. -/
  | seqRetryTimer (h : HalfId)
  /-- RAIL_DOWN_STEP_DONE (R366). A rail falls below 10 % of nominal, or 5 ms pass, and the next switch-down step starts. -/
  | railDownStepDone (h : HalfId) (r : Nat)
  /-- PMB_ALERT (R368). PMB_ALERT_N asserts, and STATUS_WORD of every rail is read. -/
  | pmbAlert (h : HalfId) (words : List (Option Nat))
  /-- AVS_MONITOR (R367). Every 1 ms the critical-path margins are read and VDD_ARC is stepped. -/
  | avsMonitor (h : HalfId) (margin : Nat) (pmbOk : Bool)
  /-- AVS_VIOLATION (R367). A monitor violation raises VDD_ARC by 25 mV at once. -/
  | avsViolation (h : HalfId) (pmbOk : Bool)
  /-- PFW_WARNING (R369). PFW_N low for 1 µs puts the half into HOLD and drops the unclosed work of the frame. -/
  | pfwWarning
  /-- URGENT_REQUEST (R373). A brown-out comparator trip pre-empts the converters and starts an urgent burst. -/
  | urgentRequest (h : HalfId) (r : Nat)
  /-- URGENT_BURST_END (R374). The burst ends, and the droop is confirmed or counted as a glitch. -/
  | urgentBurstEnd (h : HalfId) (samples : List (List Nat))
  /-- BO_HOLD_EXPIRY (R370). At BO_HOLD the rails are cycled if the senses are back, or switched off with SUP_RAIL_LOST. -/
  | boHoldExpiry (h : HalfId) (sensesBack : Bool)
  /-- THERMAL_TRIP (R377). A die sensor reaches T_TRIP; the main domain resets and the half enters DOWN. -/
  | thermalTrip (h : HalfId) (sensor : Nat)
  /-- HKA_ENTRY_END (R372). A sequence entry finishes, and calibrated means are written to HKA_RES. -/
  | hkaEntryEnd (h : HalfId) (sums : List Nat)
  /-- HKA_GO (R372). HKA_CTL.GO starts the conversion sequence. -/
  | hkaGo (h : HalfId)
  /-- HKA_CAL (R375). HKA_CTL.CAL starts self-calibration. -/
  | hkaCal (h : HalfId)
  /-- HKA_CAL_END (R375). Calibration ends, and the factors are stored in HKA_CAL. -/
  | hkaCalEnd (h : HalfId) (ground reference : List Nat)
  /-- SUP_RESTART (R370). SUP_CTL.RESTART restarts a DOWN half. -/
  | supRestart (h : HalfId)
  /-- THROTTLE_START (R452). THERM_N low for 10 µs makes the Arcade issue passes on three of four cycles. -/
  | throttleStart
  /-- THROTTLE_END (R452). THERM_N high for 1 ms ends throttling. -/
  | throttleEnd
  /-- SMBUS_REG_WRITE (R378). SMBus Block Write code 0x01 writes one register. -/
  | smbusRegWrite (h : HalfId) (bytes : List Byte) (pecOk inWindow : Bool)
  /-- SMBUS_SET_ADDRESS (R378). SMBus Block Write code 0x02 sets the read address. -/
  | smbusSetAddress (h : HalfId) (bytes : List Byte) (pecOk : Bool)
  /-- SMBUS_REG_READ (R378). SMBus Block Read code 0x03 returns the addressed register. -/
  | smbusRegRead (h : HalfId)
  /-- SMBUS_FRAME_FRAGMENT (R398). Block Write code 0x10 appends a fragment to the island's frame assembly buffer. -/
  | smbusFrameFragment (h : HalfId) (bytes : List Byte) (pecOk : Bool)
  /-- SMBUS_REPLY_READ (R398). Block Read code 0x10 returns the next bytes of a reply. -/
  | smbusReplyRead (h : HalfId)
  /-- SMBUS_FRAGMENT_TIMEOUT (R398). A pause of more than 25 ms discards the partial frame. -/
  | smbusFragmentTimeout (h : HalfId)
  /-- RESET_N_RISE (R380). RESET_N rises; PROFILE_SEL is sampled and the main domain start-up begins. -/
  | resetNRise (sel : Nat)
  /-- RESET_N_LOW (R380). A RESET_N low pulse of 1 µs or more resets the device. -/
  | resetNLow
  /-- PLL_LOCK (R380). The PLLs lock, and start-up proceeds to self-test. -/
  | pllLock (h : HalfId)
  /-- PLL_LOCK_TIMEOUT (R380). PLLs not locked in 2 ms log DEV_PLL_FAIL, and the half goes DOWN. -/
  | pllLockTimeout (h : HalfId)
  /-- SELF_TEST_DONE (R380). The Courtyard, SRAM and bay self-test ends, with repairs or DEV_SELFTEST_FAIL. -/
  | selfTestDone (h : HalfId) (ok : Bool) (failed : List Nat)
  /-- FLASH_IMAGE_READ_DONE (R386). A port's slots have been read and checked, and its best image is found. -/
  | flashImageReadDone (h : HalfId) (present : Bool) (room : Nat) (a b : List Byte)
  /-- IMAGE_CHOICE (R387). The halves exchange their best images and choose the one to boot. -/
  | imageChoice (h : HalfId)
  /-- HELD_FRAME_RESUME (R389). Once TIME_VALID is set, replay resumes with the start frame substituted for zero K_E values. -/
  | heldFrameResume (h : HalfId)
  /-- DRAIN_DONE (R391). Once drained, or after DRAIN_MAX, RUN bits are cleared and the new profile is replayed. -/
  | drainDone (h : HalfId) (timeout : Bool)
  /-- FLASH_OP_DONE (R392). A flash program or erase completes, and the update moves to its next operation. -/
  | flashOpDone (h : HalfId) (ok : Bool) (back : List Byte)
  /-- FLASH_OP_TIMEOUT (R394). A program or erase exceeds its SFDP maximum time, and NVM_OP_FAIL is logged. -/
  | flashOpTimeout (h : HalfId)
  /-- MBX_REQ_GO (R398). REQ_GO submits the frame in DEV_MBX_REQ, or sets OVR while BUSY. -/
  | mbxReqGo (h : HalfId)
  /-- MBX_RSP_VALID_CLEAR (R398). Writing 1 to RSP_VALID frees the mailbox for the next reply. -/
  | mbxRspValidClear (h : HalfId)
  /-- MGMT_PORT_FRAME (R398). The management port answers ARP and ICMP echo, and discards other non-command, non-PTP frames. -/
  | mgmtPortFrame (h : HalfId) (f : PortFrame)
  /-- FUNCTION_LEVEL_RESET (R414). FLR clears DEV_MBX_CTL and abandons an unaccepted mailbox frame. -/
  | functionLevelReset (h : HalfId)
  /-- TCLK_LOST (R432). No OSC_IN edge for 1 µs raises DEV_TCLK_LOST, and both halves go DOWN. -/
  | tclkLost
  /-- ERROR_HANDLE (R434). Exylo takes the next unhandled record in handling order, reacts and marks it handled. -/
  | errorHandle (h : HalfId)
  /-- ERR_HEAD_READ (R435). A read of ERR_HEAD word 0 latches the first record for POP and its words 1 to 3. -/
  | errHeadRead (h : HalfId)
  /-- ERR_POP (R435). ERR_CTL.POP removes the latched record if it is still queued. -/
  | errPop (h : HalfId)
  /-- ERR_CLEAR (R435). ERR_CTL.CLEAR removes every record. -/
  | errClear (h : HalfId)
  /-- SUBARRAY_STOPPED (R39). A torn-down subarray's resources are freed once its packets have left, and SUBARRAY_STOPPED is raised. -/
  | subarrayStopped (h : HalfId) (sub : Nat)
  /-- CHN_RUN_SET (R87). Setting CHN_CTL.RUN starts warm-up and loads the prototype, or fails with CHN_CFG_MISMATCH. -/
  | chnRunSet (h : HalfId)
  /-- CHN_RUN_CLEAR (R87). Clearing CHN_CTL.RUN stops spectra at the next spectrum boundary. -/
  | chnRunClear (h : HalfId) (boundary : Nat)
  /-- CHN_COEF_DATA_WRITE (R72). A coefficient is written to the table at ADDR, and ADDR advances. -/
  | chnCoefDataWrite (h : HalfId) (d : Word)
  /-- DLY_RUN_CLEAR (R109). Clearing DLY_CTL.RUN stops store writes and reads every row as invalid. -/
  | dlyRunClear (h : HalfId)
  /-- DLY_GAIN_DATA_WRITE (R97). A gain word is written to the gain-table shadow at ADDR, and ADDR advances. -/
  | dlyGainDataWrite (h : HalfId) (d : Word) (inWindow : Bool)
  /-- DLY_MODEL_ARM (R94). A write to model word 12 arms the input's model entry for hand-over. -/
  | dlyModelArm (h : HalfId) (q : Nat) (d : Word) (inWindow : Bool)
  /-- REGISTER_WRITE (R8). A write to a register with no row of its own applies each field under its class. -/
  | registerWrite (v : HalfId) (addr : Nat) (w : Word) (marks : WriteMarks)
  /-- RC_READ (R419). A read that returns an RC field clears it. -/
  | rcRead (v : HalfId) (r : RegisterRead)
  /-- LATCHING_READ (R420). A read of a low word latches the rest of a multi-word value. -/
  | latchingRead (v : HalfId) (r : LowWordRead)
  /-- PING (R396). Returns firmware version, ordinal, half, role and half state. -/
  | ping (h : HalfId) (rx : Rx)
  /-- REG_READ (R419). Returns COUNT register words, clearing RC fields. -/
  | regRead (h : HalfId) (rx : Rx)
  /-- REG_WRITE (R417). Writes COUNT registers in ascending order under their field classes. -/
  | regWrite (h : HalfId) (rx : TimedRx)
  /-- MGMT_CFG (R412). Sets the management addresses in the device record, applied after the reply. -/
  | mgmtCfg (h : HalfId) (rx : Rx)
  /-- AUTH_KEY (R403). Sets the command key, only over the mailbox or SMBus. -/
  | authKey (h : HalfId) (rx : Rx)
  /-- SNAPSHOT (R157). Suspends the Arcade, saves the open bank and tally records, and resumes. -/
  | snapshot (h : HalfId) (rx : Rx)
  /-- PROFILE_SWITCH (R391). Schedules a profile switch at tick k_e. -/
  | profileSwitch (h : HalfId) (rx : Rx)
  /-- FLASH_INFO (R392). Returns the port, slot and update state, and reading it clears FLASH_DONE. -/
  | flashInfo (h : HalfId) (rx : Rx)
  /-- FLASH_BEGIN (R392). Reserves HBM staging for an image update. -/
  | flashBegin (h : HalfId) (rx : Rx)
  /-- FLASH_DATA (R392). Stores image bytes at OFS in staging. -/
  | flashData (h : HalfId) (rx : Rx)
  /-- FLASH_COMMIT (R392). Starts writing the staged image into the spare slot. -/
  | flashCommit (h : HalfId) (rx : Rx)
  /-- FLASH_ABORT (R393). Stops the update after the operation in progress, leaving the spare slot invalid. -/
  | flashAbort (h : HalfId) (rx : Rx)
  /-- SCHED_BEGIN (R406). Opens a create or change draft for a subarray. -/
  | schedBegin (h : HalfId) (rx : Rx)
  /-- SCHED_INPUTS (R457). Sets the draft's inputs and quotas. -/
  | schedInputs (h : HalfId) (rx : Rx)
  /-- SCHED_VIS (R458). Adds a visibility product to the draft. -/
  | schedVis (h : HalfId) (rx : Rx)
  /-- SCHED_BEAM (R195). Adds a beam product to the draft. -/
  | schedBeam (h : HalfId) (rx : Rx)
  /-- SCHED_CAPTURE (R220). Adds a capture feed to the draft. -/
  | schedCapture (h : HalfId) (rx : Rx)
  /-- SCHED_DROP (R406). Removes a product from the draft. -/
  | schedDrop (h : HalfId) (rx : Rx)
  /-- SCHED_COMMIT (R33). Admits the draft under Tables FRM-11 and FRM-3, or refuses it with FAILROW, and closes the draft. -/
  | schedCommit (h : HalfId) (rx : Rx)
  /-- SUB_TEARDOWN (R39). Schedules tear-down of a subarray at k_e. -/
  | subTeardown (h : HalfId) (rx : Rx)
  /-- QUOTA_SET (R42). Sets the four quotas of a subarray from the next tick. -/
  | quotaSet (h : HalfId) (rx : Rx)
  /-- READMIT (R44). Re-admits shed products at the next tick as far as they fit. -/
  | readmit (h : HalfId) (rx : Rx)
  /-- FRAME_CFG (R24). Writes DEV_FRM_CFG while no subarray is active. -/
  | frameCfg (h : HalfId) (rx : Rx)
  /-- SCHED_QUERY (R407). Returns a subarray's state, pending K_E, shed map and quota use. -/
  | schedQuery (h : HalfId) (rx : Rx)
  /-- MODEL_SET (R94). Writes and arms delay model entries that hand over at k_e. -/
  | modelSet (h : HalfId) (rx : Rx)
  /-- GAIN_SET (R97). Writes gain-table entries that take effect at k_e. -/
  | gainSet (h : HalfId) (rx : Rx)
  /-- INPUT_FLAGS (R408). Writes per-input flag and rotation controls at k_e. -/
  | inputFlags (h : HalfId) (rx : Rx)
  /-- MASK_SET (R86). Writes channel mask words at k_e. -/
  | maskSet (h : HalfId) (rx : Rx)
  /-- SKY_SET (R409). Stores the LO frequency and sideband of each input for beam delays. -/
  | skySet (h : HalfId) (rx : Rx)
  /-- BEAM_DELAYS (R409). Computes beam entries from delays into the shadow image, handing over at k_e+Δ. -/
  | beamDelays (h : HalfId) (rx : Rx)
  /-- BEAM_RAW (R196). Writes raw beam entries into the shadow image, handing over at k_e+Δ. -/
  | beamRaw (h : HalfId) (rx : Rx)
  /-- BEAM_SCALE (R206). Writes voltage-beam scale values at k_e+Δ. -/
  | beamScale (h : HalfId) (rx : Rx)
  /-- RING_CREATE (R231). Creates an IDLE flow ring with its region in a mirrored region. -/
  | ringCreate (h : HalfId) (rx : Rx)
  /-- RING_SET (R242). Changes a ring's context fields under R242. -/
  | ringSet (h : HalfId) (rx : Rx)
  /-- RING_CMD_STOP (R240). Stops a ring through the command channel. -/
  | ringCmdStop (h : HalfId) (rx : Rx)
  /-- RING_CMD_START (R240). Starts a STOPPED ring through the command channel. -/
  | ringCmdStart (h : HalfId) (rx : Rx)
  /-- RING_CMD_DESTROY (R240). Frees a STOPPED or IDLE empty ring. -/
  | ringCmdDestroy (h : HalfId) (rx : Rx)
  /-- RING_QUERY (R241). Returns the 128-byte ring context. -/
  | ringQuery (h : HalfId) (rx : Rx)
  /-- PORT_CFG (R251). Sets the output port mode, sparing and port addresses while OUT is stopped. -/
  | portCfg (h : HalfId) (rx : Rx)
  /-- CAP_CMD (R221). Applies capture feed commands at once and returns the feed state. -/
  | capCmd (h : HalfId) (rx : Rx)
  /-- CAP_TRIGCFG (R222). Sets a feed's trigger fields at the next tick. -/
  | capTrigcfg (h : HalfId) (rx : Rx)
  /-- CAP_QUERY (R221). Returns a feed's CAP_FSTAT. -/
  | capQuery (h : HalfId) (rx : Rx)
  /-- TIME_QUERY (R399). Returns the timing state, device time and reference status. -/
  | timeQuery (h : HalfId) (rx : Rx)
  /-- REF_CFG (R313). Configures a reference in both halves from the next selection cycle. -/
  | refCfg (h : HalfId) (rx : Rx)
  /-- TIME_CTL (R318). Writes the timing control, slew, qualification, lock and holdover settings. -/
  | timeCtl (h : HalfId) (rx : Rx)
  /-- TIME_SET (R317). Sets device time to a TAI second through TMG_TSET while no subarray runs. -/
  | timeSet (h : HalfId) (rx : Rx)
  /-- PTP_CFG (R323). Writes the PTP transport and domain. -/
  | ptpCfg (h : HalfId) (rx : Rx)
  /-- LANE_CFG (R271). Rewrites a lane's configuration with EN cleared, so the lane retrains. -/
  | laneCfg (h : HalfId) (rx : Rx)
  /-- LANE_TEST (R267). Writes a lane's test and injector registers. -/
  | laneTest (h : HalfId) (rx : Rx)
  /-- LANE_QUERY (R419). Returns lane status and counters, clearing those read. -/
  | laneQuery (h : HalfId) (rx : Rx)
  /-- EVT_SUBSCRIBE (R411). Stores an event subscriber in a device-record slot. -/
  | evtSubscribe (h : HalfId) (rx : Rx)
  /-- EVT_CANCEL (R411). Empties a subscriber slot. -/
  | evtCancel (h : HalfId) (rx : Rx)
  /-- ERR_READ (R435). Returns up to MAX records in handling order and removes them. -/
  | errRead (h : HalfId) (rx : Rx)
  /-- EVENT_MSG (R411). 32 queued events, or 1 ms after the oldest, send an event message to a subscriber. -/
  | eventMsg (h : HalfId) (slot : Nat)
  /-- HANDOVER (R338). Makes the primary relinquish the role to a hot secondary. -/
  | handover (h : HalfId) (rx : Rx)
  /-- HALF_RESET (R342). Schedules the reset and reload of a half at k_e. -/
  | halfReset (h : HalfId) (rx : Rx)
  /-- BAY_REPAIR (R160). Repairs a fenced bay onto a spare at the next tick. -/
  | bayRepair (h : HalfId) (rx : Rx)
  /-- PC_FENCE (R287). Fences a pseudo-channel at once, with re-lay at the next tick. -/
  | pcFence (h : HalfId) (rx : Rx)
  /-- HALF_QUERY (R326). Returns LSE_STAT and the epochs. -/
  | halfQuery (h : HalfId) (rx : Rx)
  /-- HK_READ (R372). Returns the housekeeping results and rail readings, clearing FRESH. -/
  | hkRead (h : HalfId) (rx : Rx)
  /-- HK_SEQ (R372). Writes a conversion sequence and starts it. -/
  | hkSeq (h : HalfId) (rx : Rx)
  /-- SUP_CFG (R362). Writes the feed, brown-out, AVS, thermal and control settings. -/
  | supCfg (h : HalfId) (rx : Rx)
  /-- HALF_RESTART (R370). Restarts a DOWN half through SUP_CTL.RESTART. -/
  | halfRestart (h : HalfId) (rx : Rx)
  /-- AUTO_NEGOTIATION_DONE (R262). Clause 73 auto-negotiation ends: with a common technology the lane goes on to training, and without one it enters FAULT with cause AN. -/
  | autoNegotiationDone (h : HalfId) (lam : Nat) (common : Bool)
  /-- REMOTE_FAULT_SEQUENCE (R262). In MODE 1 a remote fault sequence of Clause 81 received for 128 blocks takes an UP or DEGRADED lane to FAULT with cause REMOTE. -/
  | remoteFaultSequence (h : HalfId) (lam : Nat)
  /-- PFW_N_RISE (R369). PFW_N returns high, SUP_STAT.PFW clears, source 3 is raised and the PFW_CLR count toward resumption begins. -/
  | pfwNRise
  /-- WITNESS_LOOP_FAULT_CLEAR (R327). The loop check agrees again with the island's own drive, WIT_FAULT clears and the witness is read as it stands. -/
  | witnessLoopFaultClear (h : HalfId)
  /-- DEVICE_RECORD_TAKEN_UP (R339). The new primary's Exylo finishes taking up the device record, and the command channel answers commands again instead of BUSY. -/
  | deviceRecordTakenUp (h : HalfId)
  /-- MBX_EVT_VALID_CLEAR (R411). Writing 1 to DEV_MBX_CTL.EVT_VALID frees the event mailbox, so that the next queued mailbox event message can be written. -/
  | mbxEvtValidClear (h : HalfId)
  /-- UNKNOWN_OPCODE (R397). A received command frame whose opcode is unknown or not accepted by the device is answered BAD_OPCODE without execution. -/
  | unknownOpcode (h : HalfId) (rx : Rx)
  deriving DecidableEq, Repr

end Sys2Proof
end

