-- ==== Sys2Proof/Machine/Codes.lean ====
section
/-! DEFINITION. The error codes of every unit (R427, Tables FRM-10, STA-9, ERR-5, SUP-9, TMG-18, EVC-7,
ING-14, CHN-18, DLY-11, XCH-13, ARC-20, TAL-10, VIS-7, BMF-10, CAP-9, TRW-14, LAN-15, HBM-11, RDB-9, LSE-11): class in bits
15:14, unit in bits 13:8, code in bits 7:0. -/

namespace Sys2Proof.Machine

/-- Table FRM-10. -/
abbrev errFRAME_OVERRUN : Nat := 0x4120
/-- Table FRM-10. -/
abbrev errSHADOW_LATE : Nat := 0x0121
/-- Table FRM-10. -/
abbrev errLATE_SPECTRUM : Nat := 0x0122
/-- Table FRM-10. -/
abbrev errQUOTA_SHED : Nat := 0x4123
/-- Table FRM-10. -/
abbrev errOUTPUT_LATE : Nat := 0x4124
/-- Table STA-9. -/
abbrev errNVM_ABSENT : Nat := 0x0701
/-- Table STA-9. -/
abbrev errNVM_HDR_BAD : Nat := 0x4702
/-- Table STA-9. -/
abbrev errNVM_SECT_CRC : Nat := 0x4703
/-- Table STA-9. -/
abbrev errNVM_SIG_FAIL : Nat := 0x4704
/-- Table STA-9. -/
abbrev errNVM_NO_IMAGE : Nat := 0x4705
/-- Table STA-9. -/
abbrev errNVM_PROFILE_ABSENT : Nat := 0x4706
/-- Table STA-9. -/
abbrev errNVM_REPLAY_FAIL : Nat := 0x4707
/-- Table STA-9. -/
abbrev errNVM_SPLIT : Nat := 0x4708
/-- Table STA-9. -/
abbrev errNVM_CFG_RANGE : Nat := 0x0709
/-- Table STA-9. -/
abbrev errNVM_OP_FAIL : Nat := 0x470A
/-- Table STA-9. -/
abbrev errDEV_PLL_FAIL : Nat := 0x8130
/-- Table STA-9. -/
abbrev errDEV_SELFTEST_FAIL : Nat := 0x8131
/-- Table ERR-5. -/
abbrev errERR_HALF_CONTAIN : Nat := 0x8601
/-- Table ERR-5. -/
abbrev errDEV_TCLK_LOST : Nat := 0xC132
/-- Table ERR-5. -/
abbrev errDEV_FUSE_FAIL : Nat := 0xC133
/-- Table SUP-9. -/
abbrev errSUP_FEED_FAULT : Nat := 0x4201
/-- Table SUP-9. -/
abbrev errSUP_SEQ_FAIL : Nat := 0x8202
/-- Table SUP-9. -/
abbrev errSUP_PMB_FAIL : Nat := 0x4203
/-- Table SUP-9. -/
abbrev errSUP_AVS_LIMIT : Nat := 0x4204
/-- Table SUP-9. -/
abbrev errSUP_REG_FAULT : Nat := 0x4205
/-- Table SUP-9. -/
abbrev errSUP_RAIL_LOST : Nat := 0x8206
/-- Table SUP-9. -/
abbrev errSUP_THERM_TRIP : Nat := 0x8207
/-- Table SUP-9. -/
abbrev errSUP_CFG_RANGE : Nat := 0x0208
/-- Table SUP-9. -/
abbrev errHKA_BUSY : Nat := 0x0301
/-- Table SUP-9. -/
abbrev errHKA_CFG_RANGE : Nat := 0x0302
/-- Table TMG-18. -/
abbrev errREF_DISAGREE : Nat := 0x4401
/-- Table TMG-18. -/
abbrev errTIMEBASE_MISMATCH : Nat := 0x4402
/-- Table TMG-18. -/
abbrev errHOLDOVER_ENTERED : Nat := 0x4403
/-- Table TMG-18. -/
abbrev errHOLDOVER_EXPIRED : Nat := 0x4404
/-- Table TMG-18. -/
abbrev errREF_LOST : Nat := 0x0405
/-- Table TMG-18. -/
abbrev errREF_SWITCH : Nat := 0x0406
/-- Table TMG-18. -/
abbrev errTMG_DAC_LIMIT : Nat := 0x4407
/-- Table TMG-18. -/
abbrev errTMG_CFG_RANGE : Nat := 0x0408
/-- Table EVC-7. -/
abbrev errEVC_FAULT : Nat := 0x0501
/-- Table EVC-7. -/
abbrev errEVC_CFG_RANGE : Nat := 0x0502
/-- Table ING-14. -/
abbrev errSSF_CRC : Nat := 0x0801
/-- Table ING-14. -/
abbrev errSSF_FORMAT : Nat := 0x0802
/-- Table ING-14. -/
abbrev errSSF_MISROUTE : Nat := 0x0803
/-- Table ING-14. -/
abbrev errSAMPLE_EARLY : Nat := 0x0804
/-- Table ING-14. -/
abbrev errSAMPLE_DUP : Nat := 0x0805
/-- Table ING-14. -/
abbrev errSAMPLE_GAP : Nat := 0x0806
/-- Table ING-14. -/
abbrev errFDLY_RANGE : Nat := 0x0807
/-- Table ING-14. -/
abbrev errETH_DROP : Nat := 0x0808
/-- Table ING-14. -/
abbrev errINPUT_LOST : Nat := 0x4809
/-- Table CHN-18. -/
abbrev errCHN_OVERFLOW : Nat := 0x0901
/-- Table CHN-18. -/
abbrev errPWR_RESEED : Nat := 0x0902
/-- Table CHN-18. -/
abbrev errSK_SHORT : Nat := 0x0903
/-- Table CHN-18. -/
abbrev errCOEF_PARITY : Nat := 0x0904
/-- Table CHN-18. -/
abbrev errCOEF_FAIL : Nat := 0x4905
/-- Table CHN-18. -/
abbrev errCHN_CFG_MISMATCH : Nat := 0x4906
/-- Table CHN-18. -/
abbrev errCHN_CFG_RANGE : Nat := 0x0907
/-- Table DLY-11. -/
abbrev errMODEL_RANGE : Nat := 0x4A01
/-- Table DLY-11. -/
abbrev errMODEL_GAP : Nat := 0x0A02
/-- Table DLY-11. -/
abbrev errDLY_EARLY : Nat := 0x0A03
/-- Table DLY-11. -/
abbrev errDLY_JOIN : Nat := 0x0A04
/-- Table DLY-11. -/
abbrev errFDLY_DIFF : Nat := 0x0A05
/-- Table DLY-11. -/
abbrev errDLY_CFG_RANGE : Nat := 0x0A06
/-- Table XCH-13. -/
abbrev errPEER_DOWN : Nat := 0x4B01
/-- Table XCH-13. -/
abbrev errPEER_UP : Nat := 0x0B02
/-- Table XCH-13. -/
abbrev errXCH_WIRING : Nat := 0x4B03
/-- Table XCH-13. -/
abbrev errPEER_CONFIG : Nat := 0x4B04
/-- Table XCH-13. -/
abbrev errXCH_LATENCY : Nat := 0x4B05
/-- Table XCH-13. -/
abbrev errXCH_LATE : Nat := 0x0B06
/-- Table XCH-13. -/
abbrev errXCH_EARLY : Nat := 0x0B07
/-- Table XCH-13. -/
abbrev errXCH_BAD : Nat := 0x0B08
/-- Table XCH-13. -/
abbrev errXCH_TX_DROP : Nat := 0x0B09
/-- Table XCH-13. -/
abbrev errPLAZA_SKEW : Nat := 0x0B0A
/-- Table XCH-13. -/
abbrev errXCH_DETOUR : Nat := 0x4B0B
/-- Table ARC-20. -/
abbrev errARC_SLOT_FORMAT : Nat := 0x4C01
/-- Table ARC-20. -/
abbrev errARC_BAD_OP : Nat := 0x4C02
/-- Table ARC-20. -/
abbrev errARC_BAY_FAULT : Nat := 0x4C03
/-- Table ARC-20. -/
abbrev errARC_BAY_REPAIRED : Nat := 0x0C04
/-- Table ARC-20. -/
abbrev errARC_NO_SPARE : Nat := 0x4C05
/-- Table ARC-20. -/
abbrev errARC_ACC_OVF : Nat := 0x4C06
/-- Table ARC-20. -/
abbrev errARC_CONTAIN : Nat := 0x8C07
/-- Table ARC-20. -/
abbrev errCY_ECC_UNCORR : Nat := 0x4D01
/-- Table ARC-20. -/
abbrev errCY_SLOT_SUSPECT : Nat := 0x4D02
/-- Table ARC-20. -/
abbrev errCY_CTX_CRC : Nat := 0x4D03
/-- Table TAL-10. -/
abbrev errTAL_INVARIANT : Nat := 0x4E01
/-- Table TAL-10. -/
abbrev errTAL_SPILL_ECC : Nat := 0x4E02
/-- Table TAL-10. -/
abbrev errTAL_OVF : Nat := 0x4E03
/-- Table VIS-7. -/
abbrev errLTA_ECC : Nat := 0x4F01
/-- Table VIS-7. -/
abbrev errLTA_SAT : Nat := 0x0F02
/-- Table VIS-7. -/
abbrev errLTA_OUT_FULL : Nat := 0x4F03
/-- Table VIS-7. -/
abbrev errLTA_CFG_RANGE : Nat := 0x0F04
/-- Table VIS-7. -/
abbrev errLTA_OVF : Nat := 0x4F05
/-- Table BMF-10. -/
abbrev errBMF_TAB_ECC : Nat := 0x5001
/-- Table BMF-10. -/
abbrev errBMF_HAND_ECC : Nat := 0x5002
/-- Table BMF-10. -/
abbrev errBMF_LATE : Nat := 0x5003
/-- Table BMF-10. -/
abbrev errBMF_TAB_BUSY : Nat := 0x1004
/-- Table BMF-10. -/
abbrev errBMF_CFG_RANGE : Nat := 0x1005
/-- Table BMF-10. -/
abbrev errBMF_VSAT : Nat := 0x1006
/-- Table CAP-9. -/
abbrev errCAP_CFG_RANGE : Nat := 0x1101
/-- Table CAP-9. -/
abbrev errCAP_BUSY : Nat := 0x1102
/-- Table CAP-9. -/
abbrev errCAP_ECC : Nat := 0x5103
/-- Table CAP-9. -/
abbrev errCAP_OVERRUN : Nat := 0x1104
/-- Table CAP-9. -/
abbrev errCAP_TRIG_LATE : Nat := 0x1105
/-- Table TRW-14. -/
abbrev errTRW_CFG_RANGE : Nat := 0x1201
/-- Table TRW-14. -/
abbrev errTRW_BAD_DESC : Nat := 0x5202
/-- Table TRW-14. -/
abbrev errTRW_DESC_ECC : Nat := 0x5203
/-- Table TRW-14. -/
abbrev errTRW_SRC_ECC : Nat := 0x5204
/-- Table TRW-14. -/
abbrev errTRW_RING_FULL : Nat := 0x5205
/-- Table TRW-14. -/
abbrev errTRW_DB_OWNER : Nat := 0x1206
/-- Table TRW-14. -/
abbrev errOUT_LANE_DOWN : Nat := 0x5301
/-- Table TRW-14. -/
abbrev errOUT_LANE_SPARED : Nat := 0x1302
/-- Table TRW-14. -/
abbrev errOUT_NO_SPARE : Nat := 0x5303
/-- Table TRW-14. -/
abbrev errOUT_FIFO_LOST : Nat := 0x5304
/-- Table LAN-15. -/
abbrev errLANE_FAULT : Nat := 0x5401
/-- Table LAN-15. -/
abbrev errLANE_DEGRADED : Nat := 0x1402
/-- Table LAN-15. -/
abbrev errLANE_UP : Nat := 0x1403
/-- Table LAN-15. -/
abbrev errLAN_TRAIN_FAIL : Nat := 0x5404
/-- Table LAN-15. -/
abbrev errLAN_CFG_RANGE : Nat := 0x1405
/-- Table LAN-15. -/
abbrev errLAN_MODE_MISMATCH : Nat := 0x5406
/-- Table LAN-15. -/
abbrev errLAN_INJ_BUSY : Nat := 0x1407
/-- Table HBM-11. -/
abbrev errHBM_CORR : Nat := 0x1501
/-- Table HBM-11. -/
abbrev errHBM_UNC : Nat := 0x5502
/-- Table HBM-11. -/
abbrev errHBM_PARITY : Nat := 0x1503
/-- Table HBM-11. -/
abbrev errHBM_FENCE : Nat := 0x5504
/-- Table HBM-11. -/
abbrev errHBM_RELAY : Nat := 0x5505
/-- Table HBM-11. -/
abbrev errHBM_CONTAIN : Nat := 0x5506
/-- Table HBM-11. -/
abbrev errHBM_RFM_STORM : Nat := 0x1507
/-- Table HBM-11. -/
abbrev errHBM_NO_REGION : Nat := 0x1508
/-- Table HBM-11. -/
abbrev errHBM_CFG_RANGE : Nat := 0x1509
/-- Table HBM-11. -/
abbrev errHBM_HOT : Nat := 0x550A
/-- Table HBM-11. -/
abbrev errHBM_TRAIN_FAIL : Nat := 0x550B
/-- Table HBM-11. -/
abbrev errHBM_MIRROR_FIX : Nat := 0x150C
/-- Table HBM-11. -/
abbrev errHBM_NO_EXT : Nat := 0x550D
/-- Table RDB-9. -/
abbrev errRDB_REPLAY : Nat := 0x1601
/-- Table RDB-9. -/
abbrev errRDB_BRIDGE_DOWN : Nat := 0x5602
/-- Table RDB-9. -/
abbrev errRDB_BRIDGE_UP : Nat := 0x1603
/-- Table RDB-9. -/
abbrev errRDB_TIMEOUT : Nat := 0x5604
/-- Table LSE-11. -/
abbrev errPARTITION : Nat := 0x5701
/-- Table LSE-11. -/
abbrev errLSE_STALE_EPOCH : Nat := 0x1702
/-- Table LSE-11. -/
abbrev errLSE_PATH_LOST : Nat := 0x1703
/-- Table LSE-11. -/
abbrev errLSE_DISAGREE : Nat := 0x5704
/-- Table LSE-11. -/
abbrev errLSE_UNSURE : Nat := 0x5705
/-- Table LSE-11. -/
abbrev errLSE_TAKEOVER : Nat := 0x5706
/-- Table LSE-11. -/
abbrev errLSE_COLD_TAKEOVER : Nat := 0x5707
/-- Table LSE-11. -/
abbrev errLSE_WITNESS_FAULT : Nat := 0x5708
/-- Table LSE-11. -/
abbrev errLSE_WD_EXPIRED : Nat := 0x9709
/-- Table LSE-11. -/
abbrev errLSE_HALF_DOWN : Nat := 0x570A

/-- ERR_LOCKED_WRITE of a unit (R418). -/
def errLockedWrite (unit : Nat) : Nat := unit * 256 + 0xF0

end Sys2Proof.Machine
end

