-- ==== Sys2Proof/Machine/Operands.lean ====
section
/-! DEFINITION. Reading and writing the fields of byte strings: frames, blocks, descriptors, records. Fields are
little-endian (R3) except where a standard's header has its own order. -/

namespace Sys2Proof.Machine

/-- The natural that bytes spell, least significant first (R3). -/
def leNat : List Byte → Nat
  | [] => 0
  | b :: bs => b.toNat + 256 * leNat bs

/-- The natural that bytes spell, most significant first (standard headers). -/
def beNat (bs : List Byte) : Nat := bs.foldl (fun n b => n * 256 + b.toNat) 0

/-- `k` bytes of `n`, least significant first (R3). -/
def leBytes : Nat → Nat → List Byte
  | 0, _ => []
  | k + 1, n => BitVec.ofNat 8 n :: leBytes k (n / 256)

/-- `k` bytes of `n`, most significant first. -/
def beBytes (k n : Nat) : List Byte := (leBytes k n).reverse

/-- `len` bytes from offset `ofs`. -/
def slice (bs : List Byte) (ofs len : Nat) : List Byte := (bs.drop ofs).take len

/-- Field of `len` bytes at `ofs`, little-endian. -/
def fieldAt (bs : List Byte) (ofs len : Nat) : Nat := leNat (slice bs ofs len)

/-- Field of `len` bytes at `ofs`, big-endian. -/
def fieldBe (bs : List Byte) (ofs len : Nat) : Nat := beNat (slice bs ofs len)

/-- Byte at an offset, 0 beyond the end. -/
def byteAt (bs : List Byte) (ofs : Nat) : Nat := (bs.getD ofs 0).toNat

/-- The 32-bit little-endian words of a byte string, the last padded with zeros. -/
def toWords : List Byte → List Word
  | a :: b :: c :: d :: bs => (BitVec.ofNat 32 (leNat [a, b, c, d])) :: toWords bs
  | [] => []
  | bs => [BitVec.ofNat 32 (leNat bs)]

/-- The bytes of words, little-endian. -/
def ofWords (ws : List Word) : List Byte := ws.flatMap (fun w => leBytes 4 w.toNat)

/-- Set bits of a list of numbers, as a natural. -/
def bitmap (xs : List Nat) : Nat := xs.foldl (fun m x => m ||| 2 ^ x) 0

/-- The positions of the set bits of `n` below `k`. -/
def setPositions (n k : Nat) : List Nat := (List.range k).filter (fun i => n.testBit i)

end Sys2Proof.Machine
end

