-- ==== Sys2Proof/Machine/Flags.lean ====
section
/-! DEFINITION. Check codes: CRC-32C (R234), CRC-8, the Internet checksum, SHA-256, HMAC-SHA-256 (R404), and
ECDSA over P-256 (R385). -/

namespace Sys2Proof.Machine

/-- One bit of the reflected CRC-32C register. -/
def crcBit (c : Nat) : Nat := if c % 2 = 1 then (c / 2) ^^^ 0x82F63B78 else c / 2

/-- One byte into the CRC-32C register. -/
def crcByte (c : Nat) (b : Byte) : Nat :=
  crcBit (crcBit (crcBit (crcBit (crcBit (crcBit (crcBit (crcBit (c ^^^ b.toNat))))))))

/-- CRC-32C of a byte string (R234). -/
def crc32c (bs : List Byte) : Nat := bs.foldl crcByte 0xFFFFFFFF ^^^ 0xFFFFFFFF

/-- `bs` with its CRC-32C appended, least significant byte first. -/
def withCrc (bs : List Byte) : List Byte := bs ++ leBytes 4 (crc32c bs)

/-- The last four bytes are the CRC-32C of the others. (PRESUMED, log 41) -/
def crcGood (bs : List Byte) : Bool :=
  4 ≤ bs.length && crc32c (bs.take (bs.length - 4)) == leNat (bs.drop (bs.length - 4))

/-- One bit of the Ethernet CRC-32, reflected. -/
def fcsBit (c : Nat) : Nat := if c % 2 = 1 then (c / 2) ^^^ 0xEDB88320 else c / 2

/-- The IEEE 802.3 frame check sequence of a frame, as a natural sent least significant byte first (R246). -/
def ethFcs (bs : List Byte) : Nat :=
  bs.foldl (fun c b => (List.range 8).foldl (fun c _ => fcsBit c) (c ^^^ b.toNat)) 0xFFFFFFFF ^^^ 0xFFFFFFFF

/-- The one's-complement sum of 16-bit big-endian words, folded to 16 bits (RFC 1071). -/
def onesSum : List Byte → Nat
  | a :: b :: bs => let t := a.toNat * 256 + b.toNat + onesSum bs; t % 65536 + t / 65536
  | [a] => a.toNat * 256
  | [] => 0

/-- The Internet checksum of a byte string. -/
def inetChecksum (bs : List Byte) : Nat := 65535 - onesSum bs % 65536

/-- The words of a header whose checksum field is right sum to all ones. -/
def inetGood (bs : List Byte) : Bool := onesSum bs == 65535

/-! ### SHA-256 (FIPS 180-4) -/

def rotr (n : Nat) (x : BitVec 32) : BitVec 32 := x.rotateRight n

/-- The first 64 primes. -/
def primes64 : List Nat :=
  [2, 3, 5, 7, 11, 13, 17, 19, 23, 29, 31, 37, 41, 43, 47, 53, 59, 61, 67, 71, 73, 79, 83, 89, 97, 101, 103, 107, 109, 113, 127, 131]
  ++ [137, 139, 149, 151, 157, 163, 167, 173, 179, 181, 191, 193, 197, 199, 211, 223, 227, 229, 233, 239, 241, 251, 257, 263, 269, 271, 277, 281, 283, 293, 307, 311]

/-- The cube root of `n`, rounded down, by binary search over `k` bits. -/
def icbrtAux : Nat → Nat → Nat → Nat
  | 0, _, acc => acc
  | k + 1, n, acc => let t := acc + 2 ^ k; icbrtAux k n (if t * t * t ≤ n then t else acc)

/-- Round constants: the first 32 bits of the fractional parts of the cube roots of the primes. -/
def shaK : List (BitVec 32) := primes64.map (fun p => BitVec.ofNat 32 (icbrtAux 36 (p * 2 ^ 96) 0))

/-- Initial hash: the first 32 bits of the fractional parts of the square roots of the first eight primes. -/
def shaInit : List (BitVec 32) := (primes64.take 8).map (fun p => BitVec.ofNat 32 (isqrt (p * 2 ^ 64)))

/-- The message schedule, most recent word first. -/
def shaSchedule : Nat → List (BitVec 32) → List (BitVec 32)
  | 0, ws => ws
  | k + 1, ws =>
    let a := ws.getD 1 0
    let b := ws.getD 14 0
    let s1 := rotr 17 a ^^^ rotr 19 a ^^^ (a >>> 10)
    let s0 := rotr 7 b ^^^ rotr 18 b ^^^ (b >>> 3)
    shaSchedule k ((s1 + ws.getD 6 0 + s0 + ws.getD 15 0) :: ws)

/-- One round on the working variables a to h. -/
def shaRound (v : List (BitVec 32)) (kw : BitVec 32 × BitVec 32) : List (BitVec 32) :=
  match v with
  | [a, b, c, d, e, f, g, h] =>
    let t1 := h + (rotr 6 e ^^^ rotr 11 e ^^^ rotr 25 e) + ((e &&& f) ^^^ (~~~e &&& g)) + kw.1 + kw.2
    let t2 := (rotr 2 a ^^^ rotr 13 a ^^^ rotr 22 a) + ((a &&& b) ^^^ (a &&& c) ^^^ (b &&& c))
    [t1 + t2, a, b, c, d + t1, e, f, g]
  | v => v

/-- One 64-byte block. -/
def shaBlock (hash : List (BitVec 32)) (block : List Byte) : List (BitVec 32) :=
  let w := ((List.range 16).map (fun i => BitVec.ofNat 32 (fieldBe block (4 * i) 4))).reverse
  let ws := (shaSchedule 48 w).reverse
  let v := (shaK.zip ws).foldl shaRound hash
  hash.zipWith (· + ·) v

/-- The blocks of a padded message. -/
def shaBlocks : Nat → List (BitVec 32) → List Byte → List (BitVec 32)
  | 0, h, _ => h
  | k + 1, h, bs => shaBlocks k (shaBlock h (bs.take 64)) (bs.drop 64)

/-- SHA-256 of a byte string. -/
def sha256 (bs : List Byte) : List Byte :=
  let pad := bs ++ [0x80#8] ++ List.replicate ((119 - bs.length % 64) % 64) 0#8 ++ beBytes 8 (bs.length * 8)
  (shaBlocks (pad.length / 64) shaInit pad).flatMap (fun w => beBytes 4 w.toNat)

/-- HMAC-SHA-256 with a 32-byte key (FIPS 198-1). -/
def hmacSha256 (key msg : List Byte) : List Byte :=
  let k := key ++ List.replicate (64 - key.length) 0#8
  sha256 (k.map (· ^^^ 0x5C#8) ++ sha256 (k.map (· ^^^ 0x36#8) ++ msg))

/-! ### ECDSA over P-256 (SEC 1) -/

def p256p : Nat := 2 ^ 256 - 2 ^ 224 + 2 ^ 192 + 2 ^ 96 - 1
def p256n : Nat := 0xFFFFFFFF00000000FFFFFFFFFFFFFFFFBCE6FAADA7179E84F3B9CAC2FC632551
def p256b : Nat := 0x5AC635D8AA3A93E7B3EBBD55769886BC651D06B0CC53B0F63BCE3C3E27D2604B
def p256gx : Nat := 0x6B17D1F2E12C4247F8BCE6E563A440F277037D812DEB33A0F4A13945D898C296
def p256gy : Nat := 0x4FE342E2FE1A7F9B8EE7EB4A7C0F9E162BCE33576B315ECECBB6406837BF51F5

/-- `a ^ e mod m` over the low `k` bits of `e`. -/
def powMod : Nat → Nat → Nat → Nat → Nat
  | 0, _, _, m => 1 % m
  | k + 1, a, e, m =>
    let r := powMod k (a * a % m) (e / 2) m
    if e % 2 = 1 then a * r % m else r

/-- The inverse modulo a prime below 2^256. -/
def invMod (a m : Nat) : Nat := powMod 256 (a % m) (m - 2) m

/-- Addition of points of the curve; `none` is the point at infinity. -/
def ecAdd (a b : Option (Nat × Nat)) : Option (Nat × Nat) :=
  match a, b with
  | none, b => b
  | a, none => a
  | some (x1, y1), some (x2, y2) =>
    if x1 = x2 && (y1 + y2) % p256p = 0 then none
    else
      let l := if x1 = x2 then (3 * x1 * x1 + (p256p - 3)) * invMod (2 * y1) p256p % p256p
               else (y2 + (p256p - y1)) * invMod (x2 + (p256p - x1)) p256p % p256p
      let x3 := (l * l + 2 * p256p - x1 - x2) % p256p
      some (x3, (l * (x1 + (p256p - x3)) + (p256p - y1)) % p256p)

/-- Scalar multiple over the low `k` bits of `n`. -/
def ecMul : Nat → Nat → Option (Nat × Nat) → Option (Nat × Nat)
  | 0, _, _ => none
  | k + 1, n, p =>
    let r := ecMul k (n / 2) (ecAdd p p)
    if n % 2 = 1 then ecAdd p r else r

/-- The signature (r, s) verifies for the key (x, y) and the digest (R385). -/
def ecdsaVerify (x y r s : Nat) (digest : List Byte) : Bool :=
  let onCurve := x < p256p && y < p256p && y * y % p256p == (x * x * x + (p256p - 3) * x + p256b) % p256p
  if !onCurve || r = 0 || s = 0 || p256n ≤ r || p256n ≤ s then false
  else
    let w := invMod s p256n
    match ecAdd (ecMul 256 (beNat digest * w % p256n) (some (p256gx, p256gy))) (ecMul 256 (r * w % p256n) (some (x, y))) with
    | none => false
    | some (px, _) => px % p256n == r

end Sys2Proof.Machine
end

