-- ==== Sys2Proof/Machine/Regs.lean ====
section
/-! DEFINITION. The registers of a half's window (22_register_map.md, Tables REG-1 and REG-4): for each
register word its offset in the window, stride, number of instances, reset value and fields with access
code and class, written from the register tables of the owning chapters. A register of several words is
listed word by word (`_0`, `_1`, and so on). Reset values that differ between instances or are fused stand in Machine/Ops.lean
(`regReset`). -/

namespace Sys2Proof.Machine

/-- Access codes (R6, Table SCO-3). -/
inductive Acc where
  | ro | rw | w1c | wo | rc
  deriving DecidableEq, Repr

/-- Field classes (R8, Table SCO-4); `none` for a field that carries no class. -/
inductive Cls where
  | live | tick | locked | none
  deriving DecidableEq, Repr

/-- One field of a register: bits `hi:lo`, access code, class. -/
structure FSpec where
  hi : Nat
  lo : Nat
  acc : Acc
  cls : Cls
  deriving DecidableEq, Repr

/-- One register word: window offset of instance 0, stride and number of instances, reset value, fields. -/
structure RegDef where
  base : Nat
  stride : Nat
  count : Nat
  reset : Nat
  fields : List FSpec
  deriving DecidableEq, Repr

/-- A named field: its register and bits `hi:lo`. -/
structure Fld where
  reg : RegDef
  hi : Nat
  lo : Nat
  deriving DecidableEq, Repr

/-- Table FRM-1. -/
def DEV_FRM_CFG : RegDef := ⟨0x100, 0, 1, 0x3,
  [⟨19, 19, .rw, .locked⟩, ⟨18, 4, .rw, .locked⟩, ⟨2, 0, .rw, .locked⟩]⟩
def DEV_FRM_CFG_FMT8 : Fld := ⟨DEV_FRM_CFG, 19, 19⟩
def DEV_FRM_CFG_DEPTH : Fld := ⟨DEV_FRM_CFG, 18, 4⟩
def DEV_FRM_CFG_FCODE : Fld := ⟨DEV_FRM_CFG, 2, 0⟩
/-- Table FRM-2. -/
def DEV_SHDW_CTL : RegDef := ⟨0x10C, 0, 1, 0x0,
  [⟨2, 2, .w1c, .none⟩, ⟨1, 1, .w1c, .none⟩, ⟨0, 0, .rw, .live⟩]⟩
def DEV_SHDW_CTL_SHADOW_HELD : Fld := ⟨DEV_SHDW_CTL, 2, 2⟩
def DEV_SHDW_CTL_SHADOW_LATE : Fld := ⟨DEV_SHDW_CTL, 1, 1⟩
def DEV_SHDW_CTL_HOLD : Fld := ⟨DEV_SHDW_CTL, 0, 0⟩
/-- Table FRM-4. -/
def DEV_FRM_IDX_LO : RegDef := ⟨0x104, 0, 1, 0x0,
  [⟨31, 0, .ro, .none⟩]⟩
/-- Table FRM-4. -/
def DEV_FRM_IDX_HI : RegDef := ⟨0x108, 0, 1, 0x0,
  [⟨15, 0, .ro, .none⟩]⟩
def DEV_FRM_IDX_HI_IDX_HI : Fld := ⟨DEV_FRM_IDX_HI, 15, 0⟩
/-- Table FRM-5. -/
def DEV_OVR_STAT : RegDef := ⟨0x110, 0, 1, 0x0,
  [⟨31, 30, .ro, .none⟩, ⟨29, 16, .ro, .none⟩, ⟨15, 0, .rc, .none⟩]⟩
def DEV_OVR_STAT_STAGE : Fld := ⟨DEV_OVR_STAT, 31, 30⟩
def DEV_OVR_STAT_FRAME : Fld := ⟨DEV_OVR_STAT, 29, 16⟩
def DEV_OVR_STAT_DROPPED : Fld := ⟨DEV_OVR_STAT, 15, 0⟩
/-- Table FRM-6. -/
def DEV_LATE_CNT : RegDef := ⟨0x114, 0, 1, 0x0,
  [⟨31, 0, .rc, .none⟩]⟩
/-- Table FRM-7. -/
def DEV_SUBARR_ACT : RegDef := ⟨0x118, 0, 1, 0x0,
  [⟨31, 16, .ro, .none⟩, ⟨15, 0, .ro, .none⟩]⟩
def DEV_SUBARR_ACT_SHED : Fld := ⟨DEV_SUBARR_ACT, 31, 16⟩
def DEV_SUBARR_ACT_ACTIVE : Fld := ⟨DEV_SUBARR_ACT, 15, 0⟩
/-- Table FRM-8. -/
def DEV_QUOTA_USE_0 : RegDef := ⟨0x200, 16, 16, 0x0,
  [⟨31, 0, .ro, .none⟩]⟩
/-- Table FRM-8. -/
def DEV_QUOTA_USE_1 : RegDef := ⟨0x204, 16, 16, 0x0,
  [⟨31, 0, .ro, .none⟩]⟩
/-- Table FRM-8. -/
def DEV_QUOTA_USE_2 : RegDef := ⟨0x208, 16, 16, 0x0,
  [⟨31, 0, .ro, .none⟩]⟩
/-- Table FRM-8. -/
def DEV_QUOTA_USE_3 : RegDef := ⟨0x20C, 16, 16, 0x0,
  [⟨31, 0, .ro, .none⟩]⟩
/-- Table ING-4. -/
def ING_CTL : RegDef := ⟨0x300000, 0, 1, 0x0,
  [⟨2, 1, .rw, .locked⟩, ⟨0, 0, .rw, .live⟩]⟩
def ING_CTL_PMODE : Fld := ⟨ING_CTL, 2, 1⟩
def ING_CTL_RUN : Fld := ⟨ING_CTL, 0, 0⟩
/-- Table ING-5. -/
def ING_MAC_LO : RegDef := ⟨0x300010, 0, 1, 0x0,
  [⟨31, 0, .rw, .locked⟩]⟩
/-- Table ING-5. -/
def ING_MAC_HI : RegDef := ⟨0x300014, 0, 1, 0x0,
  [⟨15, 0, .rw, .locked⟩]⟩
def ING_MAC_HI_MAC_HI : Fld := ⟨ING_MAC_HI, 15, 0⟩
/-- Table ING-6. -/
def ING_ETH_CFG : RegDef := ⟨0x300018, 0, 1, 0xBCB60000,
  [⟨31, 16, .rw, .locked⟩, ⟨15, 15, .rw, .locked⟩, ⟨14, 14, .rw, .locked⟩, ⟨11, 0, .rw, .locked⟩]⟩
def ING_ETH_CFG_UDP_PORT : Fld := ⟨ING_ETH_CFG, 31, 16⟩
def ING_ETH_CFG_VLAN_EN : Fld := ⟨ING_ETH_CFG, 15, 15⟩
def ING_ETH_CFG_MCAST_EN : Fld := ⟨ING_ETH_CFG, 14, 14⟩
def ING_ETH_CFG_VLAN_ID : Fld := ⟨ING_ETH_CFG, 11, 0⟩
/-- Table ING-7. -/
def ING_LOCK : RegDef := ⟨0x300020, 0, 1, 0x0,
  [⟨31, 0, .ro, .none⟩]⟩
/-- Table ING-8. -/
def ING_LANE_CFG : RegDef := ⟨0x300100, 4, 32, 0x18,
  [⟨11, 7, .rw, .locked⟩, ⟨4, 3, .rw, .locked⟩, ⟨2, 2, .rw, .locked⟩, ⟨0, 0, .rw, .live⟩]⟩
def ING_LANE_CFG_SRC : Fld := ⟨ING_LANE_CFG, 11, 7⟩
def ING_LANE_CFG_SFCODE : Fld := ⟨ING_LANE_CFG, 4, 3⟩
def ING_LANE_CFG_FRAMING : Fld := ⟨ING_LANE_CFG, 2, 2⟩
def ING_LANE_CFG_EN : Fld := ⟨ING_LANE_CFG, 0, 0⟩
/-- Table ING-9. -/
def ING_LANE_CNT_0 : RegDef := ⟨0x300400, 32, 32, 0x0,
  [⟨31, 0, .rc, .none⟩]⟩
/-- Table ING-9. -/
def ING_LANE_CNT_1 : RegDef := ⟨0x300404, 32, 32, 0x0,
  [⟨31, 0, .rc, .none⟩]⟩
/-- Table ING-9. -/
def ING_LANE_CNT_2 : RegDef := ⟨0x300408, 32, 32, 0x0,
  [⟨31, 0, .rc, .none⟩]⟩
/-- Table ING-9. -/
def ING_LANE_CNT_3 : RegDef := ⟨0x30040C, 32, 32, 0x0,
  [⟨31, 0, .rc, .none⟩]⟩
/-- Table ING-9. -/
def ING_LANE_CNT_4 : RegDef := ⟨0x300410, 32, 32, 0x0,
  [⟨31, 0, .rc, .none⟩]⟩
/-- Table ING-9. -/
def ING_LANE_CNT_5 : RegDef := ⟨0x300414, 32, 32, 0x0,
  [⟨31, 0, .rc, .none⟩]⟩
/-- Table ING-9. -/
def ING_LANE_CNT_6 : RegDef := ⟨0x300418, 32, 32, 0x0,
  [⟨31, 0, .rc, .none⟩]⟩
/-- Table ING-9. -/
def ING_LANE_CNT_7 : RegDef := ⟨0x30041C, 32, 32, 0x0,
  [⟨31, 0, .rc, .none⟩]⟩
/-- Table ING-10. -/
def ING_FDLY : RegDef := ⟨0x301000, 4, 256, 0x0,
  [⟨15, 0, .rw, .tick⟩]⟩
def ING_FDLY_DELAY : Fld := ⟨ING_FDLY, 15, 0⟩
/-- Table ING-11. -/
def ING_SKEW : RegDef := ⟨0x301400, 4, 256, 0x80000000,
  [⟨31, 0, .ro, .none⟩]⟩
/-- Table ING-12. -/
def ING_POS_SRC_0 : RegDef := ⟨0x301800, 8, 256, 0x0,
  [⟨31, 0, .ro, .none⟩]⟩
/-- Table ING-12. -/
def ING_POS_SRC_1 : RegDef := ⟨0x301804, 8, 256, 0x0,
  [⟨31, 0, .rc, .none⟩]⟩
/-- Table CHN-4. -/
def CHN_CTL : RegDef := ⟨0x400000, 0, 1, 0x0,
  [⟨0, 0, .rw, .live⟩]⟩
def CHN_CTL_RUN : Fld := ⟨CHN_CTL, 0, 0⟩
/-- Table CHN-5. -/
def CHN_CFG : RegDef := ⟨0x400004, 0, 1, 0x7115,
  [⟨15, 15, .rw, .locked⟩, ⟨14, 14, .rw, .locked⟩, ⟨13, 13, .rw, .locked⟩, ⟨12, 12, .rw, .locked⟩, ⟨9, 8, .rw, .locked⟩, ⟨5, 4, .rw, .locked⟩, ⟨2, 0, .rw, .locked⟩]⟩
def CHN_CFG_PROTO : Fld := ⟨CHN_CFG, 15, 15⟩
def CHN_CFG_OVF_FLAG : Fld := ⟨CHN_CFG, 14, 14⟩
def CHN_CFG_PWR_EN : Fld := ⟨CHN_CFG, 13, 13⟩
def CHN_CFG_SK_EN : Fld := ⟨CHN_CFG, 12, 12⟩
def CHN_CFG_SKM : Fld := ⟨CHN_CFG, 9, 8⟩
def CHN_CFG_TAPS : Fld := ⟨CHN_CFG, 5, 4⟩
def CHN_CFG_LCODE : Fld := ⟨CHN_CFG, 2, 0⟩
/-- Table CHN-6. -/
def CHN_SCALE : RegDef := ⟨0x400008, 0, 1, 0x2AAA,
  [⟨15, 0, .rw, .tick⟩]⟩
def CHN_SCALE_SCALE : Fld := ⟨CHN_SCALE, 15, 0⟩
/-- Table CHN-7. -/
def CHN_COEF_ADDR : RegDef := ⟨0x400010, 0, 1, 0x0,
  [⟨16, 0, .rw, .locked⟩]⟩
def CHN_COEF_ADDR_ADDR : Fld := ⟨CHN_COEF_ADDR, 16, 0⟩
/-- Table CHN-8. -/
def CHN_COEF_DATA : RegDef := ⟨0x400014, 0, 1, 0x0,
  [⟨17, 0, .rw, .locked⟩]⟩
def CHN_COEF_DATA_COEF : Fld := ⟨CHN_COEF_DATA, 17, 0⟩
/-- Table CHN-9. -/
def CHN_PWR_CFG : RegDef := ⟨0x400020, 0, 1, 0xA0200,
  [⟨19, 16, .rw, .locked⟩, ⟨10, 8, .rw, .locked⟩]⟩
def CHN_PWR_CFG_TAU : Fld := ⟨CHN_PWR_CFG, 19, 16⟩
def CHN_PWR_CFG_GUARD : Fld := ⟨CHN_PWR_CFG, 10, 8⟩
/-- Table CHN-10. -/
def CHN_PWR_BAND : RegDef := ⟨0x400024, 0, 1, 0x7FFF0000,
  [⟨31, 16, .rw, .locked⟩, ⟨15, 0, .rw, .locked⟩]⟩
def CHN_PWR_BAND_HI : Fld := ⟨CHN_PWR_BAND, 31, 16⟩
def CHN_PWR_BAND_LO : Fld := ⟨CHN_PWR_BAND, 15, 0⟩
/-- Table CHN-11. -/
def CHN_PWR_THR : RegDef := ⟨0x400028, 0, 1, 0x2000000,
  [⟨31, 16, .rw, .tick⟩, ⟨15, 0, .rw, .tick⟩]⟩
def CHN_PWR_THR_THR_HI : Fld := ⟨CHN_PWR_THR, 31, 16⟩
def CHN_PWR_THR_THR_LO : Fld := ⟨CHN_PWR_THR, 15, 0⟩
/-- Table CHN-12. -/
def CHN_SK_THR : RegDef := ⟨0x400030, 0, 1, 0x17850A8F,
  [⟨31, 16, .rw, .tick⟩, ⟨15, 0, .rw, .tick⟩]⟩
def CHN_SK_THR_UPPER : Fld := ⟨CHN_SK_THR, 31, 16⟩
def CHN_SK_THR_LOWER : Fld := ⟨CHN_SK_THR, 15, 0⟩
/-- Table CHN-13. -/
def CHN_OVF_STAT : RegDef := ⟨0x400040, 0, 1, 0x0,
  [⟨20, 16, .ro, .none⟩, ⟨8, 0, .ro, .none⟩]⟩
def CHN_OVF_STAT_STEP : Fld := ⟨CHN_OVF_STAT, 20, 16⟩
def CHN_OVF_STAT_INPUT : Fld := ⟨CHN_OVF_STAT, 8, 0⟩
/-- Table CHN-14. -/
def CHN_MASK : RegDef := ⟨0x401000, 4, 1024, 0x0,
  [⟨31, 0, .rw, .tick⟩]⟩
/-- Table CHN-15. -/
def CHN_INPUT_CFG : RegDef := ⟨0x402000, 4, 256, 0x0,
  [⟨1, 1, .rw, .tick⟩, ⟨0, 0, .rw, .tick⟩]⟩
def CHN_INPUT_CFG_PWR_OFF : Fld := ⟨CHN_INPUT_CFG, 1, 1⟩
def CHN_INPUT_CFG_SK_OFF : Fld := ⟨CHN_INPUT_CFG, 0, 0⟩
/-- Table CHN-16. -/
def CHN_STAT_0 : RegDef := ⟨0x403000, 16, 256, 0x0,
  [⟨31, 0, .rc, .none⟩]⟩
/-- Table CHN-16. -/
def CHN_STAT_1 : RegDef := ⟨0x403004, 16, 256, 0x0,
  [⟨31, 0, .rc, .none⟩]⟩
/-- Table CHN-16. -/
def CHN_STAT_2 : RegDef := ⟨0x403008, 16, 256, 0x0,
  [⟨31, 0, .rc, .none⟩]⟩
/-- Table CHN-16. -/
def CHN_STAT_3 : RegDef := ⟨0x40300C, 16, 256, 0x0,
  [⟨31, 0, .rc, .none⟩]⟩
/-- Table CHN-17. -/
def CHN_PWR_MEAN : RegDef := ⟨0x404000, 4, 256, 0x0,
  [⟨31, 0, .ro, .none⟩]⟩
/-- Table DLY-1. -/
def DLY_CTL : RegDef := ⟨0x500000, 0, 1, 0x6,
  [⟨2, 2, .rw, .locked⟩, ⟨1, 1, .rw, .locked⟩, ⟨0, 0, .rw, .live⟩]⟩
def DLY_CTL_FD_EN : Fld := ⟨DLY_CTL, 2, 2⟩
def DLY_CTL_FR_EN : Fld := ⟨DLY_CTL, 1, 1⟩
def DLY_CTL_RUN : Fld := ⟨DLY_CTL, 0, 0⟩
/-- Table DLY-2. -/
def DLY_RQ_CFG : RegDef := ⟨0x500004, 0, 1, 0x3,
  [⟨4, 0, .rw, .tick⟩]⟩
def DLY_RQ_CFG_SHIFT : Fld := ⟨DLY_RQ_CFG, 4, 0⟩
/-- Table DLY-3. -/
def DLY_EARLY_CNT : RegDef := ⟨0x500010, 0, 1, 0x0,
  [⟨31, 0, .rc, .none⟩]⟩
/-- Table DLY-4. -/
def DLY_RDPTR_LO : RegDef := ⟨0x500018, 0, 1, 0x0,
  [⟨31, 0, .ro, .none⟩]⟩
/-- Table DLY-4. -/
def DLY_RDPTR_HI : RegDef := ⟨0x50001C, 0, 1, 0x0,
  [⟨15, 0, .ro, .none⟩]⟩
def DLY_RDPTR_HI_RP_HI : Fld := ⟨DLY_RDPTR_HI, 15, 0⟩
/-- Table DLY-5. -/
def DLY_GAIN_ADDR : RegDef := ⟨0x500020, 0, 1, 0x0,
  [⟨17, 10, .rw, .live⟩, ⟨9, 0, .rw, .live⟩]⟩
def DLY_GAIN_ADDR_INPUT : Fld := ⟨DLY_GAIN_ADDR, 17, 10⟩
def DLY_GAIN_ADDR_ENTRY : Fld := ⟨DLY_GAIN_ADDR, 9, 0⟩
/-- Table DLY-6. -/
def DLY_GAIN_DATA : RegDef := ⟨0x500024, 0, 1, 0x1000,
  [⟨31, 16, .rw, .tick⟩, ⟨15, 0, .rw, .tick⟩]⟩
def DLY_GAIN_DATA_GIM : Fld := ⟨DLY_GAIN_DATA, 31, 16⟩
def DLY_GAIN_DATA_GRE : Fld := ⟨DLY_GAIN_DATA, 15, 0⟩
/-- Table DLY-7. -/
def DLY_MODEL_0 : RegDef := ⟨0x501000, 64, 256, 0x0,
  [⟨31, 0, .rw, .tick⟩]⟩
/-- Table DLY-7. -/
def DLY_MODEL_1 : RegDef := ⟨0x501004, 64, 256, 0x0,
  [⟨31, 0, .rw, .tick⟩]⟩
/-- Table DLY-7. -/
def DLY_MODEL_2 : RegDef := ⟨0x501008, 64, 256, 0x0,
  [⟨31, 0, .rw, .tick⟩]⟩
/-- Table DLY-7. -/
def DLY_MODEL_3 : RegDef := ⟨0x50100C, 64, 256, 0x0,
  [⟨31, 0, .rw, .tick⟩]⟩
/-- Table DLY-7. -/
def DLY_MODEL_4 : RegDef := ⟨0x501010, 64, 256, 0x0,
  [⟨31, 0, .rw, .tick⟩]⟩
/-- Table DLY-7. -/
def DLY_MODEL_5 : RegDef := ⟨0x501014, 64, 256, 0x0,
  [⟨31, 0, .rw, .tick⟩]⟩
/-- Table DLY-7. -/
def DLY_MODEL_6 : RegDef := ⟨0x501018, 64, 256, 0x0,
  [⟨31, 0, .rw, .tick⟩]⟩
/-- Table DLY-7. -/
def DLY_MODEL_7 : RegDef := ⟨0x50101C, 64, 256, 0x0,
  [⟨31, 0, .rw, .tick⟩]⟩
/-- Table DLY-7. -/
def DLY_MODEL_8 : RegDef := ⟨0x501020, 64, 256, 0x0,
  [⟨31, 0, .rw, .tick⟩]⟩
/-- Table DLY-7. -/
def DLY_MODEL_9 : RegDef := ⟨0x501024, 64, 256, 0x0,
  [⟨31, 0, .rw, .tick⟩]⟩
/-- Table DLY-7. -/
def DLY_MODEL_10 : RegDef := ⟨0x501028, 64, 256, 0x0,
  [⟨31, 0, .rw, .tick⟩]⟩
/-- Table DLY-7. -/
def DLY_MODEL_11 : RegDef := ⟨0x50102C, 64, 256, 0x0,
  [⟨15, 0, .rw, .tick⟩]⟩
def DLY_MODEL_11_REF_HI : Fld := ⟨DLY_MODEL_11, 15, 0⟩
/-- Table DLY-7. -/
def DLY_MODEL_12 : RegDef := ⟨0x501030, 64, 256, 0x0,
  [⟨31, 31, .rw, .tick⟩, ⟨15, 0, .rw, .tick⟩]⟩
def DLY_MODEL_12_VALID : Fld := ⟨DLY_MODEL_12, 31, 31⟩
def DLY_MODEL_12_SPAN : Fld := ⟨DLY_MODEL_12, 15, 0⟩
/-- Table DLY-8. -/
def DLY_INPUT_CFG : RegDef := ⟨0x505000, 4, 256, 0x0,
  [⟨2, 2, .rw, .tick⟩, ⟨1, 1, .rw, .tick⟩, ⟨0, 0, .rw, .tick⟩]⟩
def DLY_INPUT_CFG_FLAG_ALL : Fld := ⟨DLY_INPUT_CFG, 2, 2⟩
def DLY_INPUT_CFG_FD_OFF : Fld := ⟨DLY_INPUT_CFG, 1, 1⟩
def DLY_INPUT_CFG_FR_OFF : Fld := ⟨DLY_INPUT_CFG, 0, 0⟩
/-- Table DLY-9. -/
def DLY_STATE_0 : RegDef := ⟨0x506000, 16, 256, 0x0,
  [⟨31, 16, .ro, .none⟩, ⟨15, 0, .ro, .none⟩]⟩
def DLY_STATE_0_NS : Fld := ⟨DLY_STATE_0, 31, 16⟩
def DLY_STATE_0_FDLY : Fld := ⟨DLY_STATE_0, 15, 0⟩
/-- Table DLY-9. -/
def DLY_STATE_1 : RegDef := ⟨0x506004, 16, 256, 0x0,
  [⟨31, 0, .ro, .none⟩]⟩
/-- Table DLY-9. -/
def DLY_STATE_2 : RegDef := ⟨0x506008, 16, 256, 0x0,
  [⟨31, 16, .rc, .none⟩, ⟨15, 0, .rc, .none⟩]⟩
def DLY_STATE_2_JOIN : Fld := ⟨DLY_STATE_2, 31, 16⟩
def DLY_STATE_2_FDLY_DIFF : Fld := ⟨DLY_STATE_2, 15, 0⟩
/-- Table DLY-9. -/
def DLY_STATE_3 : RegDef := ⟨0x50600C, 16, 256, 0x0,
  [⟨31, 0, .rc, .none⟩]⟩
/-- Table DLY-10. -/
def DLY_RQ_STAT_0 : RegDef := ⟨0x508000, 16, 256, 0x0,
  [⟨31, 0, .rc, .none⟩]⟩
/-- Table DLY-10. -/
def DLY_RQ_STAT_1 : RegDef := ⟨0x508004, 16, 256, 0x0,
  [⟨31, 0, .ro, .none⟩]⟩
/-- Table DLY-10. -/
def DLY_RQ_STAT_2 : RegDef := ⟨0x508008, 16, 256, 0x0,
  [⟨15, 0, .ro, .none⟩]⟩
def DLY_RQ_STAT_2_PWR_HI : Fld := ⟨DLY_RQ_STAT_2, 15, 0⟩
/-- Table DLY-10. -/
def DLY_RQ_STAT_3 : RegDef := ⟨0x50800C, 16, 256, 0x0,
  [⟨31, 0, .ro, .none⟩]⟩
/-- Table XCH-6. -/
def XCH_CTL : RegDef := ⟨0x600000, 0, 1, 0x2,
  [⟨1, 1, .rw, .locked⟩, ⟨0, 0, .rw, .live⟩]⟩
def XCH_CTL_DETOUR_EN : Fld := ⟨XCH_CTL, 1, 1⟩
def XCH_CTL_RUN : Fld := ⟨XCH_CTL, 0, 0⟩
/-- Table XCH-7. -/
def XCH_CFG : RegDef := ⟨0x600004, 0, 1, 0x640000,
  [⟨23, 16, .rw, .live⟩, ⟨11, 8, .rw, .locked⟩, ⟨2, 0, .rw, .locked⟩]⟩
def XCH_CFG_OFS_THR : Fld := ⟨XCH_CFG, 23, 16⟩
def XCH_CFG_ORD : Fld := ⟨XCH_CFG, 11, 8⟩
def XCH_CFG_MCODE : Fld := ⟨XCH_CFG, 2, 0⟩
/-- Table XCH-8. -/
def XCH_PLAZA_ID : RegDef := ⟨0x600008, 0, 1, 0x0,
  [⟨31, 0, .rw, .locked⟩]⟩
/-- Table XCH-9. -/
def XCH_WIN : RegDef := ⟨0x60000C, 0, 1, 0x0,
  [⟨31, 0, .ro, .none⟩]⟩
/-- Table XCH-10. -/
def XCH_CT_MISS : RegDef := ⟨0x600010, 0, 1, 0x0,
  [⟨31, 0, .rc, .none⟩]⟩
/-- Table XCH-11. -/
def XCH_LANE_CFG : RegDef := ⟨0x600100, 4, 16, 0x100,
  [⟨8, 8, .rw, .locked⟩, ⟨7, 4, .rw, .locked⟩, ⟨0, 0, .rw, .live⟩]⟩
def XCH_LANE_CFG_AUTO : Fld := ⟨XCH_LANE_CFG, 8, 8⟩
def XCH_LANE_CFG_PEER : Fld := ⟨XCH_LANE_CFG, 7, 4⟩
def XCH_LANE_CFG_EN : Fld := ⟨XCH_LANE_CFG, 0, 0⟩
/-- Table XCH-12. -/
def XCH_LINK_STAT_0 : RegDef := ⟨0x600400, 32, 16, 0x0,
  [⟨31, 16, .ro, .none⟩, ⟨15, 12, .ro, .none⟩, ⟨4, 4, .ro, .none⟩, ⟨3, 0, .ro, .none⟩]⟩
def XCH_LINK_STAT_0_LANES : Fld := ⟨XCH_LINK_STAT_0, 31, 16⟩
def XCH_LINK_STAT_0_REASON : Fld := ⟨XCH_LINK_STAT_0, 15, 12⟩
def XCH_LINK_STAT_0_DETOUR : Fld := ⟨XCH_LINK_STAT_0, 4, 4⟩
def XCH_LINK_STAT_0_STATE : Fld := ⟨XCH_LINK_STAT_0, 3, 0⟩
/-- Table XCH-12. -/
def XCH_LINK_STAT_1 : RegDef := ⟨0x600404, 32, 16, 0x0,
  [⟨31, 0, .ro, .none⟩]⟩
/-- Table XCH-12. -/
def XCH_LINK_STAT_2 : RegDef := ⟨0x600408, 32, 16, 0x0,
  [⟨31, 0, .ro, .none⟩]⟩
/-- Table XCH-12. -/
def XCH_LINK_STAT_3 : RegDef := ⟨0x60040C, 32, 16, 0x0,
  [⟨31, 0, .rc, .none⟩]⟩
/-- Table XCH-12. -/
def XCH_LINK_STAT_4 : RegDef := ⟨0x600410, 32, 16, 0x0,
  [⟨31, 0, .rc, .none⟩]⟩
/-- Table XCH-12. -/
def XCH_LINK_STAT_5 : RegDef := ⟨0x600414, 32, 16, 0x0,
  [⟨31, 0, .rc, .none⟩]⟩
/-- Table XCH-12. -/
def XCH_LINK_STAT_6 : RegDef := ⟨0x600418, 32, 16, 0x0,
  [⟨31, 0, .rc, .none⟩]⟩
/-- Table XCH-12. -/
def XCH_LINK_STAT_7 : RegDef := ⟨0x60041C, 32, 16, 0x0,
  [⟨31, 0, .rc, .none⟩]⟩
/-- Table ARC-9. -/
def ARC_CTL : RegDef := ⟨0x700000, 0, 1, 0x4,
  [⟨2, 2, .rw, .locked⟩, ⟨1, 1, .rw, .live⟩, ⟨0, 0, .rw, .live⟩]⟩
def ARC_CTL_AUTO_REPAIR : Fld := ⟨ARC_CTL, 2, 2⟩
def ARC_CTL_SUSPEND : Fld := ⟨ARC_CTL, 1, 1⟩
def ARC_CTL_RUN : Fld := ⟨ARC_CTL, 0, 0⟩
/-- Table ARC-10. -/
def ARC_STAT : RegDef := ⟨0x700004, 0, 1, 0x0,
  [⟨31, 30, .ro, .none⟩, ⟨23, 20, .ro, .none⟩, ⟨15, 8, .ro, .none⟩, ⟨1, 0, .ro, .none⟩]⟩
def ARC_STAT_STATE : Fld := ⟨ARC_STAT, 31, 30⟩
def ARC_STAT_SUB : Fld := ⟨ARC_STAT, 23, 20⟩
def ARC_STAT_ACTIVE : Fld := ⟨ARC_STAT, 15, 8⟩
def ARC_STAT_SPARES : Fld := ⟨ARC_STAT, 1, 0⟩
/-- Table ARC-11. -/
def ARC_STALL : RegDef := ⟨0x700008, 0, 1, 0x0,
  [⟨31, 0, .rc, .none⟩]⟩
/-- Table ARC-11. -/
def ARC_USE : RegDef := ⟨0x70000C, 0, 1, 0x0,
  [⟨31, 0, .ro, .none⟩]⟩
/-- Table ARC-11. -/
def ARC_BADOP : RegDef := ⟨0x700010, 0, 1, 0x0,
  [⟨31, 28, .ro, .none⟩, ⟨11, 0, .ro, .none⟩]⟩
def ARC_BADOP_OPC : Fld := ⟨ARC_BADOP, 31, 28⟩
def ARC_BADOP_INDEX : Fld := ⟨ARC_BADOP, 11, 0⟩
/-- Table ARC-12. -/
def ARC_DBG : RegDef := ⟨0x700014, 0, 1, 0x0,
  [⟨31, 31, .rw, .live⟩, ⟨21, 16, .rw, .live⟩, ⟨15, 0, .rw, .live⟩]⟩
def ARC_DBG_HALT : Fld := ⟨ARC_DBG, 31, 31⟩
def ARC_DBG_BAY : Fld := ⟨ARC_DBG, 21, 16⟩
def ARC_DBG_AT : Fld := ⟨ARC_DBG, 15, 0⟩
/-- Table ARC-13. -/
def ARC_PROG_ADDR : RegDef := ⟨0x700020, 0, 1, 0x0,
  [⟨13, 0, .rw, .live⟩]⟩
def ARC_PROG_ADDR_ADDR : Fld := ⟨ARC_PROG_ADDR, 13, 0⟩
/-- Table ARC-13. -/
def ARC_PROG_DATA : RegDef := ⟨0x700024, 0, 1, 0x0,
  [⟨31, 0, .rw, .live⟩]⟩
/-- Table ARC-14. -/
def ARC_SUB_PROG : RegDef := ⟨0x700100, 4, 16, 0x0,
  [⟨27, 16, .rw, .tick⟩, ⟨11, 0, .rw, .tick⟩]⟩
def ARC_SUB_PROG_LEN : Fld := ⟨ARC_SUB_PROG, 27, 16⟩
def ARC_SUB_PROG_BASE : Fld := ⟨ARC_SUB_PROG, 11, 0⟩
/-- Table ARC-14. -/
def ARC_SUB_BANK : RegDef := ⟨0x700140, 4, 16, 0x0,
  [⟨12, 0, .rw, .tick⟩]⟩
def ARC_SUB_BANK_BANKSZ : Fld := ⟨ARC_SUB_BANK, 12, 0⟩
/-- Table ARC-15. -/
def ARC_BAY_STAT : RegDef := ⟨0x700200, 4, 66, 0xFF0000,
  [⟨31, 29, .ro, .none⟩, ⟨23, 16, .ro, .none⟩, ⟨15, 8, .ro, .none⟩, ⟨7, 0, .rc, .none⟩]⟩
def ARC_BAY_STAT_STATE : Fld := ⟨ARC_BAY_STAT, 31, 29⟩
def ARC_BAY_STAT_LOGICAL : Fld := ⟨ARC_BAY_STAT, 23, 16⟩
def ARC_BAY_STAT_CAUSE : Fld := ⟨ARC_BAY_STAT, 15, 8⟩
def ARC_BAY_STAT_FAULTS : Fld := ⟨ARC_BAY_STAT, 7, 0⟩
/-- Table ARC-16. -/
def CY_STAGE : RegDef := ⟨0x800000, 0, 1, 0x0,
  [⟨12, 0, .rw, .tick⟩]⟩
def CY_STAGE_BASE : Fld := ⟨CY_STAGE, 12, 0⟩
/-- Table ARC-16. -/
def CY_BHAND : RegDef := ⟨0x800004, 0, 1, 0x0,
  [⟨12, 0, .rw, .tick⟩]⟩
def CY_BHAND_BASE : Fld := ⟨CY_BHAND, 12, 0⟩
/-- Table ARC-16. -/
def CY_TABLE : RegDef := ⟨0x800008, 0, 1, 0x0,
  [⟨28, 16, .rw, .tick⟩, ⟨12, 0, .rw, .tick⟩]⟩
def CY_TABLE_SIZE : Fld := ⟨CY_TABLE, 28, 16⟩
def CY_TABLE_BASE : Fld := ⟨CY_TABLE, 12, 0⟩
/-- Table ARC-17. -/
def CY_ECC : RegDef := ⟨0x800010, 0, 1, 0x0,
  [⟨31, 16, .rc, .none⟩, ⟨15, 0, .rc, .none⟩]⟩
def CY_ECC_UNCORR : Fld := ⟨CY_ECC, 31, 16⟩
def CY_ECC_CORR : Fld := ⟨CY_ECC, 15, 0⟩
/-- Table ARC-18. -/
def CY_INFO_ADDR : RegDef := ⟨0x800018, 0, 1, 0x0,
  [⟨12, 0, .rw, .live⟩]⟩
def CY_INFO_ADDR_SLOT : Fld := ⟨CY_INFO_ADDR, 12, 0⟩
/-- Table ARC-18. -/
def CY_INFO_DATA : RegDef := ⟨0x80001C, 0, 1, 0x0,
  [⟨31, 31, .ro, .none⟩, ⟨30, 30, .ro, .none⟩, ⟨29, 27, .ro, .none⟩, ⟨15, 0, .ro, .none⟩]⟩
def CY_INFO_DATA_SUSPECT : Fld := ⟨CY_INFO_DATA, 31, 31⟩
def CY_INFO_DATA_HELD : Fld := ⟨CY_INFO_DATA, 30, 30⟩
def CY_INFO_DATA_TAG : Fld := ⟨CY_INFO_DATA, 29, 27⟩
def CY_INFO_DATA_PENDING : Fld := ⟨CY_INFO_DATA, 15, 0⟩
/-- Table ARC-19. -/
def CY_WIN_SLOT : RegDef := ⟨0x800020, 0, 1, 0x0,
  [⟨12, 0, .rw, .live⟩]⟩
def CY_WIN_SLOT_SLOT : Fld := ⟨CY_WIN_SLOT, 12, 0⟩
/-- Table ARC-19. -/
def CY_SUSPECT : RegDef := ⟨0x800100, 4, 256, 0x0,
  [⟨31, 0, .ro, .none⟩]⟩
/-- Table ARC-19. -/
def CY_WIN : RegDef := ⟨0x808000, 4, 8192, 0x0,
  [⟨31, 0, .rw, .locked⟩]⟩
/-- Table TAL-3. -/
def TAL_CTL : RegDef := ⟨0x900000, 0, 1, 0x1,
  [⟨0, 0, .rw, .live⟩]⟩
def TAL_CTL_CHECK_EN : Fld := ⟨TAL_CTL, 0, 0⟩
/-- Table TAL-4. -/
def TAL_SPILL_BASE : RegDef := ⟨0x900004, 0, 1, 0x0,
  [⟨31, 0, .rw, .locked⟩]⟩
/-- Table TAL-5. -/
def TAL_SPILL_CFG : RegDef := ⟨0x900008, 0, 1, 0x0,
  [⟨29, 16, .rw, .locked⟩, ⟨13, 0, .rw, .locked⟩]⟩
def TAL_SPILL_CFG_NREC : Fld := ⟨TAL_SPILL_CFG, 29, 16⟩
def TAL_SPILL_CFG_REC0 : Fld := ⟨TAL_SPILL_CFG, 13, 0⟩
/-- Table TAL-6. -/
def TAL_MIN : RegDef := ⟨0x900010, 0, 1, 0xFFFFFFFF,
  [⟨31, 0, .ro, .none⟩]⟩
/-- Table TAL-7. -/
def TAL_MIN_LOC : RegDef := ⟨0x900014, 0, 1, 0x0,
  [⟨27, 14, .ro, .none⟩, ⟨11, 0, .ro, .none⟩]⟩
def TAL_MIN_LOC_RECORD : Fld := ⟨TAL_MIN_LOC, 27, 14⟩
def TAL_MIN_LOC_CELL : Fld := ⟨TAL_MIN_LOC, 11, 0⟩
/-- Table TAL-8. -/
def TAL_ZERO : RegDef := ⟨0x900018, 0, 1, 0x0,
  [⟨31, 0, .rc, .none⟩]⟩
/-- Table TAL-9. -/
def TAL_STAT : RegDef := ⟨0x90001C, 0, 1, 0x0,
  [⟨31, 16, .rc, .none⟩, ⟨15, 0, .rc, .none⟩]⟩
def TAL_STAT_SPILL_ECC : Fld := ⟨TAL_STAT, 31, 16⟩
def TAL_STAT_INVARIANT : Fld := ⟨TAL_STAT, 15, 0⟩
/-- Table VIS-3. -/
def LTA_CTL : RegDef := ⟨0x980000, 0, 1, 0x0,
  [⟨0, 0, .rw, .live⟩]⟩
def LTA_CTL_RUN : Fld := ⟨LTA_CTL, 0, 0⟩
/-- Table VIS-4. -/
def LTA_OUT_BASE : RegDef := ⟨0x980004, 0, 1, 0x0,
  [⟨31, 0, .rw, .locked⟩]⟩
/-- Table VIS-4. -/
def LTA_OUT_SIZE : RegDef := ⟨0x980008, 0, 1, 0x0,
  [⟨15, 0, .rw, .locked⟩]⟩
def LTA_OUT_SIZE_SIZE : Fld := ⟨LTA_OUT_SIZE, 15, 0⟩
/-- Table VIS-5. -/
def LTA_STAT : RegDef := ⟨0x980010, 0, 1, 0x0,
  [⟨31, 0, .rc, .none⟩]⟩
/-- Table VIS-5. -/
def LTA_FOLDED : RegDef := ⟨0x980014, 0, 1, 0x0,
  [⟨31, 16, .rc, .none⟩, ⟨15, 0, .rc, .none⟩]⟩
def LTA_FOLDED_ROLLBACK : Fld := ⟨LTA_FOLDED, 31, 16⟩
def LTA_FOLDED_FOLDED : Fld := ⟨LTA_FOLDED, 15, 0⟩
/-- Table VIS-5. -/
def LTA_OUT_USE : RegDef := ⟨0x980018, 0, 1, 0x0,
  [⟨15, 0, .ro, .none⟩]⟩
def LTA_OUT_USE_USE : Fld := ⟨LTA_OUT_USE, 15, 0⟩
/-- Table VIS-6. -/
def LTA_VIS_0 : RegDef := ⟨0x980100, 32, 32, 0x200,
  [⟨31, 31, .rw, .tick⟩, ⟨27, 24, .rw, .tick⟩, ⟨23, 16, .rw, .tick⟩, ⟨15, 12, .rw, .tick⟩, ⟨10, 10, .rw, .tick⟩, ⟨9, 9, .rw, .tick⟩, ⟨8, 8, .rw, .tick⟩, ⟨7, 7, .rw, .tick⟩, ⟨6, 6, .rw, .tick⟩]⟩
def LTA_VIS_0_EN : Fld := ⟨LTA_VIS_0, 31, 31⟩
def LTA_VIS_0_SUB : Fld := ⟨LTA_VIS_0, 27, 24⟩
def LTA_VIS_0_PROD : Fld := ⟨LTA_VIS_0, 23, 16⟩
def LTA_VIS_0_GCODE : Fld := ⟨LTA_VIS_0, 15, 12⟩
def LTA_VIS_0_ALIGN : Fld := ⟨LTA_VIS_0, 10, 10⟩
def LTA_VIS_0_ROWSTAT : Fld := ⟨LTA_VIS_0, 9, 9⟩
def LTA_VIS_0_NORM : Fld := ⟨LTA_VIS_0, 8, 8⟩
def LTA_VIS_0_OFMT : Fld := ⟨LTA_VIS_0, 7, 7⟩
def LTA_VIS_0_X32 : Fld := ⟨LTA_VIS_0, 6, 6⟩
/-- Table VIS-6. -/
def LTA_VIS_1 : RegDef := ⟨0x980104, 32, 32, 0xC,
  [⟨23, 0, .rw, .tick⟩]⟩
def LTA_VIS_1_T_INT : Fld := ⟨LTA_VIS_1, 23, 0⟩
/-- Table VIS-6. -/
def LTA_VIS_2 : RegDef := ⟨0x980108, 32, 32, 0x0,
  [⟨31, 0, .rw, .tick⟩]⟩
/-- Table VIS-6. -/
def LTA_VIS_3 : RegDef := ⟨0x98010C, 32, 32, 0x0,
  [⟨19, 0, .rw, .tick⟩]⟩
def LTA_VIS_3_FLOW_VIS : Fld := ⟨LTA_VIS_3, 19, 0⟩
/-- Table VIS-6. -/
def LTA_VIS_4 : RegDef := ⟨0x980110, 32, 32, 0x0,
  [⟨19, 0, .rw, .tick⟩]⟩
def LTA_VIS_4_FLOW_CNT : Fld := ⟨LTA_VIS_4, 19, 0⟩
/-- Table VIS-6. -/
def LTA_VIS_5 : RegDef := ⟨0x980114, 32, 32, 0x0,
  [⟨19, 0, .rw, .tick⟩]⟩
def LTA_VIS_5_FLOW_ROW : Fld := ⟨LTA_VIS_5, 19, 0⟩
/-- Table VIS-6. -/
def LTA_VIS_6 : RegDef := ⟨0x980118, 32, 32, 0x0,
  [⟨23, 0, .ro, .none⟩]⟩
def LTA_VIS_6_DONE : Fld := ⟨LTA_VIS_6, 23, 0⟩
/-- Table VIS-6. -/
def LTA_VIS_7 : RegDef := ⟨0x98011C, 32, 32, 0x0,
  [⟨31, 0, .rc, .none⟩]⟩
/-- Table BMF-4. -/
def BMF_CTL : RegDef := ⟨0xA00000, 0, 1, 0x0,
  [⟨0, 0, .rw, .live⟩]⟩
def BMF_CTL_RUN : Fld := ⟨BMF_CTL, 0, 0⟩
/-- Table BMF-5. -/
def BMF_TADDR : RegDef := ⟨0xA00010, 0, 1, 0x0,
  [⟨29, 26, .rw, .live⟩, ⟨25, 16, .rw, .live⟩, ⟨15, 3, .rw, .live⟩, ⟨2, 0, .rw, .live⟩]⟩
def BMF_TADDR_SUB : Fld := ⟨BMF_TADDR, 29, 26⟩
def BMF_TADDR_BEAM : Fld := ⟨BMF_TADDR, 25, 16⟩
def BMF_TADDR_POS : Fld := ⟨BMF_TADDR, 15, 3⟩
def BMF_TADDR_WORD : Fld := ⟨BMF_TADDR, 2, 0⟩
/-- Table BMF-5. -/
def BMF_TDATA : RegDef := ⟨0xA00014, 0, 1, 0x0,
  [⟨31, 0, .rw, .tick⟩]⟩
/-- Table BMF-6. -/
def BMF_TAB_0 : RegDef := ⟨0xA00100, 16, 16, 0x0,
  [⟨31, 0, .rw, .locked⟩]⟩
/-- Table BMF-6. -/
def BMF_TAB_1 : RegDef := ⟨0xA00104, 16, 16, 0x0,
  [⟨31, 0, .rw, .locked⟩]⟩
/-- Table BMF-6. -/
def BMF_TAB_2 : RegDef := ⟨0xA00108, 16, 16, 0x0,
  [⟨31, 31, .ro, .none⟩, ⟨30, 30, .ro, .none⟩, ⟨29, 29, .ro, .none⟩, ⟨10, 0, .rw, .locked⟩]⟩
def BMF_TAB_2_CUR : Fld := ⟨BMF_TAB_2, 31, 31⟩
def BMF_TAB_2_COPY : Fld := ⟨BMF_TAB_2, 30, 30⟩
def BMF_TAB_2_DIRTY : Fld := ⟨BMF_TAB_2, 29, 29⟩
def BMF_TAB_2_BEAMS : Fld := ⟨BMF_TAB_2, 10, 0⟩
/-- Table BMF-6. -/
def BMF_TAB_3 : RegDef := ⟨0xA0010C, 16, 16, 0x0,
  [⟨6, 0, .rw, .locked⟩]⟩
def BMF_TAB_3_KS : Fld := ⟨BMF_TAB_3, 6, 0⟩
/-- Table BMF-7. -/
def BMF_SADDR : RegDef := ⟨0xA00020, 0, 1, 0x0,
  [⟨18, 9, .rw, .live⟩, ⟨8, 0, .rw, .live⟩]⟩
def BMF_SADDR_SLOT : Fld := ⟨BMF_SADDR, 18, 9⟩
def BMF_SADDR_ENTRY : Fld := ⟨BMF_SADDR, 8, 0⟩
/-- Table BMF-7. -/
def BMF_SDATA : RegDef := ⟨0xA00024, 0, 1, 0x100,
  [⟨15, 0, .rw, .tick⟩]⟩
def BMF_SDATA_SCL : Fld := ⟨BMF_SDATA, 15, 0⟩
/-- Table BMF-8. -/
def BMF_CNT_0 : RegDef := ⟨0xA00030, 0, 1, 0x0,
  [⟨31, 0, .rc, .none⟩]⟩
/-- Table BMF-8. -/
def BMF_CNT_1 : RegDef := ⟨0xA00034, 0, 1, 0x0,
  [⟨31, 0, .rc, .none⟩]⟩
/-- Table BMF-8. -/
def BMF_CNT_2 : RegDef := ⟨0xA00038, 0, 1, 0x0,
  [⟨31, 0, .rc, .none⟩]⟩
/-- Table BMF-8. -/
def BMF_CNT_3 : RegDef := ⟨0xA0003C, 0, 1, 0x0,
  [⟨31, 0, .rc, .none⟩]⟩
/-- Table BMF-8. -/
def BMF_DSTATE : RegDef := ⟨0xA00040, 0, 1, 0x0,
  [⟨12, 0, .ro, .none⟩]⟩
def BMF_DSTATE_USE : Fld := ⟨BMF_DSTATE, 12, 0⟩
/-- Table BMF-9. -/
def BMF_PROD_0 : RegDef := ⟨0xA00200, 32, 32, 0x0,
  [⟨31, 31, .rw, .tick⟩, ⟨27, 24, .rw, .tick⟩, ⟨23, 16, .rw, .tick⟩, ⟨8, 8, .rw, .tick⟩, ⟨7, 7, .rw, .tick⟩, ⟨6, 6, .rw, .tick⟩, ⟨4, 0, .rw, .tick⟩]⟩
def BMF_PROD_0_EN : Fld := ⟨BMF_PROD_0, 31, 31⟩
def BMF_PROD_0_SUB : Fld := ⟨BMF_PROD_0, 27, 24⟩
def BMF_PROD_0_PROD : Fld := ⟨BMF_PROD_0, 23, 16⟩
def BMF_PROD_0_TYPE : Fld := ⟨BMF_PROD_0, 8, 8⟩
def BMF_PROD_0_STOKES : Fld := ⟨BMF_PROD_0, 7, 7⟩
def BMF_PROD_0_VFMT : Fld := ⟨BMF_PROD_0, 6, 6⟩
def BMF_PROD_0_SHIFT : Fld := ⟨BMF_PROD_0, 4, 0⟩
/-- Table BMF-9. -/
def BMF_PROD_1 : RegDef := ⟨0xA00204, 32, 32, 0x0,
  [⟨26, 16, .rw, .tick⟩, ⟨9, 0, .rw, .tick⟩]⟩
def BMF_PROD_1_NB : Fld := ⟨BMF_PROD_1, 26, 16⟩
def BMF_PROD_1_FIRST : Fld := ⟨BMF_PROD_1, 9, 0⟩
/-- Table BMF-9. -/
def BMF_PROD_2 : RegDef := ⟨0xA00208, 32, 32, 0x10604,
  [⟨28, 16, .rw, .tick⟩, ⟨12, 8, .rw, .tick⟩, ⟨3, 0, .rw, .tick⟩]⟩
def BMF_PROD_2_MINVALID : Fld := ⟨BMF_PROD_2, 28, 16⟩
def BMF_PROD_2_NSCODE : Fld := ⟨BMF_PROD_2, 12, 8⟩
def BMF_PROD_2_NCCODE : Fld := ⟨BMF_PROD_2, 3, 0⟩
/-- Table BMF-9. -/
def BMF_PROD_3 : RegDef := ⟨0xA0020C, 32, 32, 0x0,
  [⟨9, 0, .rw, .tick⟩]⟩
def BMF_PROD_3_SBASE : Fld := ⟨BMF_PROD_3, 9, 0⟩
/-- Table BMF-9. -/
def BMF_PROD_4 : RegDef := ⟨0xA00210, 32, 32, 0x0,
  [⟨19, 0, .rw, .tick⟩]⟩
def BMF_PROD_4_FLOW : Fld := ⟨BMF_PROD_4, 19, 0⟩
/-- Table BMF-9. -/
def BMF_PROD_5 : RegDef := ⟨0xA00214, 32, 32, 0x0,
  [⟨31, 0, .rc, .none⟩]⟩
/-- Table BMF-9. -/
def BMF_PROD_6 : RegDef := ⟨0xA00218, 32, 32, 0x0,
  [⟨31, 0, .rc, .none⟩]⟩
/-- Table CAP-4. -/
def CAP_CTL : RegDef := ⟨0xB00000, 0, 1, 0x0,
  [⟨0, 0, .rw, .live⟩]⟩
def CAP_CTL_RUN : Fld := ⟨CAP_CTL, 0, 0⟩
/-- Table CAP-5. -/
def CAP_FEED_0 : RegDef := ⟨0xB00100, 64, 16, 0x0,
  [⟨30, 30, .rw, .locked⟩, ⟨27, 24, .rw, .locked⟩, ⟨23, 16, .rw, .locked⟩, ⟨12, 8, .rw, .locked⟩]⟩
def CAP_FEED_0_MODE : Fld := ⟨CAP_FEED_0, 30, 30⟩
def CAP_FEED_0_SUB : Fld := ⟨CAP_FEED_0, 27, 24⟩
def CAP_FEED_0_PROD : Fld := ⟨CAP_FEED_0, 23, 16⟩
def CAP_FEED_0_SZCODE : Fld := ⟨CAP_FEED_0, 12, 8⟩
/-- Table CAP-5. -/
def CAP_FEED_1 : RegDef := ⟨0xB00104, 64, 16, 0x10000,
  [⟨24, 16, .rw, .locked⟩, ⟨7, 0, .rw, .locked⟩]⟩
def CAP_FEED_1_NQ : Fld := ⟨CAP_FEED_1, 24, 16⟩
def CAP_FEED_1_Q0 : Fld := ⟨CAP_FEED_1, 7, 0⟩
/-- Table CAP-5. -/
def CAP_FEED_2 : RegDef := ⟨0xB00108, 64, 16, 0x400000,
  [⟨31, 16, .rw, .locked⟩, ⟨15, 0, .rw, .locked⟩]⟩
def CAP_FEED_2_NCH : Fld := ⟨CAP_FEED_2, 31, 16⟩
def CAP_FEED_2_C0 : Fld := ⟨CAP_FEED_2, 15, 0⟩
/-- Table CAP-5. -/
def CAP_FEED_3 : RegDef := ⟨0xB0010C, 64, 16, 0x0,
  [⟨31, 0, .rw, .locked⟩]⟩
/-- Table CAP-5. -/
def CAP_FEED_4 : RegDef := ⟨0xB00110, 64, 16, 0x0,
  [⟨23, 0, .rw, .tick⟩]⟩
def CAP_FEED_4_POSTS : Fld := ⟨CAP_FEED_4, 23, 0⟩
/-- Table CAP-5. -/
def CAP_FEED_5 : RegDef := ⟨0xB00114, 64, 16, 0x7FF,
  [⟨31, 31, .rw, .tick⟩, ⟨10, 0, .rw, .tick⟩]⟩
def CAP_FEED_5_TSPEC_EN : Fld := ⟨CAP_FEED_5, 31, 31⟩
def CAP_FEED_5_TRIGSRC : Fld := ⟨CAP_FEED_5, 10, 0⟩
/-- Table CAP-5. -/
def CAP_FEED_6 : RegDef := ⟨0xB00118, 64, 16, 0x0,
  [⟨31, 0, .rw, .tick⟩]⟩
/-- Table CAP-5. -/
def CAP_FEED_7 : RegDef := ⟨0xB0011C, 64, 16, 0x0,
  [⟨15, 0, .rw, .tick⟩]⟩
def CAP_FEED_7_TSPEC_HI : Fld := ⟨CAP_FEED_7, 15, 0⟩
/-- Table CAP-5. -/
def CAP_FEED_8 : RegDef := ⟨0xB00120, 64, 16, 0x0,
  [⟨19, 0, .rw, .tick⟩]⟩
def CAP_FEED_8_FLOW : Fld := ⟨CAP_FEED_8, 19, 0⟩
/-- Table CAP-5. -/
def CAP_FEED_9 : RegDef := ⟨0xB00124, 64, 16, 0x0,
  [⟨31, 0, .rw, .live⟩]⟩
/-- Table CAP-5. -/
def CAP_FEED_10 : RegDef := ⟨0xB00128, 64, 16, 0x0,
  [⟨31, 0, .rw, .live⟩]⟩
/-- Table CAP-6. -/
def CAP_CMD : RegDef := ⟨0xB00800, 4, 16, 0x0,
  [⟨4, 4, .wo, .live⟩, ⟨3, 3, .wo, .live⟩, ⟨2, 2, .wo, .live⟩, ⟨1, 1, .wo, .live⟩, ⟨0, 0, .wo, .live⟩]⟩
def CAP_CMD_RELEASE : Fld := ⟨CAP_CMD, 4, 4⟩
def CAP_CMD_READ : Fld := ⟨CAP_CMD, 3, 3⟩
def CAP_CMD_FREEZE : Fld := ⟨CAP_CMD, 2, 2⟩
def CAP_CMD_TRIG : Fld := ⟨CAP_CMD, 1, 1⟩
def CAP_CMD_ARM : Fld := ⟨CAP_CMD, 0, 0⟩
/-- Table CAP-7. -/
def CAP_FSTAT_0 : RegDef := ⟨0xB00C00, 32, 16, 0x0,
  [⟨31, 29, .ro, .none⟩, ⟨28, 28, .ro, .none⟩, ⟨27, 27, .ro, .none⟩, ⟨26, 26, .ro, .none⟩]⟩
def CAP_FSTAT_0_STATE : Fld := ⟨CAP_FSTAT_0, 31, 29⟩
def CAP_FSTAT_0_TLATE : Fld := ⟨CAP_FSTAT_0, 28, 28⟩
def CAP_FSTAT_0_SHORT : Fld := ⟨CAP_FSTAT_0, 27, 27⟩
def CAP_FSTAT_0_TRIGD : Fld := ⟨CAP_FSTAT_0, 26, 26⟩
/-- Table CAP-7. -/
def CAP_FSTAT_1 : RegDef := ⟨0xB00C04, 32, 16, 0x0,
  [⟨31, 0, .ro, .none⟩]⟩
/-- Table CAP-7. -/
def CAP_FSTAT_2 : RegDef := ⟨0xB00C08, 32, 16, 0x0,
  [⟨31, 0, .ro, .none⟩]⟩
/-- Table CAP-7. -/
def CAP_FSTAT_3 : RegDef := ⟨0xB00C0C, 32, 16, 0x0,
  [⟨31, 0, .ro, .none⟩]⟩
/-- Table CAP-7. -/
def CAP_FSTAT_4 : RegDef := ⟨0xB00C10, 32, 16, 0x0,
  [⟨15, 0, .ro, .none⟩]⟩
def CAP_FSTAT_4_TRIG_HI : Fld := ⟨CAP_FSTAT_4, 15, 0⟩
/-- Table CAP-7. -/
def CAP_FSTAT_5 : RegDef := ⟨0xB00C14, 32, 16, 0x0,
  [⟨31, 0, .rc, .none⟩]⟩
/-- Table CAP-7. -/
def CAP_FSTAT_6 : RegDef := ⟨0xB00C18, 32, 16, 0x0,
  [⟨31, 0, .rc, .none⟩]⟩
/-- Table CAP-7. -/
def CAP_FSTAT_7 : RegDef := ⟨0xB00C1C, 32, 16, 0x0,
  [⟨31, 0, .rc, .none⟩]⟩
/-- Table TRW-6. -/
def TRW_CTL : RegDef := ⟨0xC00000, 0, 1, 0x0,
  [⟨0, 0, .rw, .live⟩]⟩
def TRW_CTL_RUN : Fld := ⟨TRW_CTL, 0, 0⟩
/-- Table TRW-6. -/
def TRW_CTX_BASE : RegDef := ⟨0xC00004, 0, 1, 0x0,
  [⟨31, 0, .rw, .locked⟩]⟩
/-- Table TRW-7. -/
def TRW_DOORBELL : RegDef := ⟨0xC00010, 0, 1, 0x0,
  [⟨19, 0, .wo, .live⟩]⟩
def TRW_DOORBELL_RING : Fld := ⟨TRW_DOORBELL, 19, 0⟩
/-- Table TRW-7. -/
def TRW_RING_CMD : RegDef := ⟨0xC00014, 0, 1, 0x0,
  [⟨31, 28, .wo, .live⟩, ⟨19, 0, .wo, .live⟩]⟩
def TRW_RING_CMD_OP : Fld := ⟨TRW_RING_CMD, 31, 28⟩
def TRW_RING_CMD_RING : Fld := ⟨TRW_RING_CMD, 19, 0⟩
/-- Table TRW-8. -/
def TRW_CTX_SEL : RegDef := ⟨0xC00020, 0, 1, 0x0,
  [⟨19, 0, .rw, .live⟩]⟩
def TRW_CTX_SEL_RING : Fld := ⟨TRW_CTX_SEL, 19, 0⟩
/-- Table TRW-8. -/
def TRW_CTX_DATA : RegDef := ⟨0xC00100, 4, 32, 0x0,
  [⟨31, 0, .rw, .live⟩]⟩
/-- Table TRW-9. -/
def TRW_STAT_0 : RegDef := ⟨0xC00030, 0, 1, 0x0,
  [⟨6, 0, .ro, .none⟩]⟩
def TRW_STAT_0_BUSY : Fld := ⟨TRW_STAT_0, 6, 0⟩
/-- Table TRW-9. -/
def TRW_STAT_1 : RegDef := ⟨0xC00034, 0, 1, 0x0,
  [⟨31, 0, .rc, .none⟩]⟩
/-- Table TRW-9. -/
def TRW_STAT_2 : RegDef := ⟨0xC00038, 0, 1, 0x0,
  [⟨31, 0, .rc, .none⟩]⟩
/-- Table TRW-9. -/
def TRW_STAT_3 : RegDef := ⟨0xC0003C, 0, 1, 0x0,
  [⟨31, 0, .rc, .none⟩]⟩
/-- Table TRW-10. -/
def OUT_CTL : RegDef := ⟨0xD00000, 0, 1, 0x4,
  [⟨2, 2, .rw, .locked⟩, ⟨1, 1, .rw, .locked⟩, ⟨0, 0, .rw, .live⟩]⟩
def OUT_CTL_SPARE_EN : Fld := ⟨OUT_CTL, 2, 2⟩
def OUT_CTL_PMODE : Fld := ⟨OUT_CTL, 1, 1⟩
def OUT_CTL_RUN : Fld := ⟨OUT_CTL, 0, 0⟩
/-- Table TRW-10. -/
def OUT_MAP : RegDef := ⟨0xD00004, 0, 1, 0x43210,
  [⟨19, 16, .ro, .none⟩, ⟨15, 0, .ro, .none⟩]⟩
def OUT_MAP_SPARE : Fld := ⟨OUT_MAP, 19, 16⟩
def OUT_MAP_MAP : Fld := ⟨OUT_MAP, 15, 0⟩
/-- Table TRW-11. -/
def OUT_PORT_0 : RegDef := ⟨0xD00100, 32, 4, 0x0,
  [⟨31, 0, .rw, .locked⟩]⟩
/-- Table TRW-11. -/
def OUT_PORT_1 : RegDef := ⟨0xD00104, 32, 4, 0x0,
  [⟨15, 0, .rw, .locked⟩]⟩
def OUT_PORT_1_SMAC_HI : Fld := ⟨OUT_PORT_1, 15, 0⟩
/-- Table TRW-11. -/
def OUT_PORT_2 : RegDef := ⟨0xD00108, 32, 4, 0x0,
  [⟨31, 0, .rw, .locked⟩]⟩
/-- Table TRW-11. -/
def OUT_PORT_3 : RegDef := ⟨0xD0010C, 32, 4, 0x0,
  [⟨31, 0, .rw, .locked⟩]⟩
/-- Table TRW-11. -/
def OUT_PORT_4 : RegDef := ⟨0xD00110, 32, 4, 0x0,
  [⟨31, 0, .rw, .locked⟩]⟩
/-- Table TRW-11. -/
def OUT_PORT_5 : RegDef := ⟨0xD00114, 32, 4, 0x0,
  [⟨31, 0, .rw, .locked⟩]⟩
/-- Table TRW-11. -/
def OUT_PORT_6 : RegDef := ⟨0xD00118, 32, 4, 0x0,
  [⟨31, 0, .rw, .locked⟩]⟩
/-- Table TRW-12. -/
def OUT_LANE_STAT_0 : RegDef := ⟨0xD00200, 16, 5, 0xF,
  [⟨31, 31, .ro, .none⟩, ⟨30, 28, .ro, .none⟩, ⟨3, 0, .ro, .none⟩]⟩
def OUT_LANE_STAT_0_UP : Fld := ⟨OUT_LANE_STAT_0, 31, 31⟩
def OUT_LANE_STAT_0_ROLE : Fld := ⟨OUT_LANE_STAT_0, 30, 28⟩
def OUT_LANE_STAT_0_LOGICAL : Fld := ⟨OUT_LANE_STAT_0, 3, 0⟩
/-- Table TRW-12. -/
def OUT_LANE_STAT_1 : RegDef := ⟨0xD00204, 16, 5, 0x0,
  [⟨31, 0, .rc, .none⟩]⟩
/-- Table TRW-12. -/
def OUT_LANE_STAT_2 : RegDef := ⟨0xD00208, 16, 5, 0x0,
  [⟨31, 0, .rc, .none⟩]⟩
/-- Table TRW-12. -/
def OUT_LANE_STAT_3 : RegDef := ⟨0xD0020C, 16, 5, 0x0,
  [⟨31, 0, .rc, .none⟩]⟩
/-- Table LAN-9. -/
def LAN_UP : RegDef := ⟨0xE00000, 0, 1, 0x0,
  [⟨31, 0, .ro, .none⟩]⟩
/-- Table LAN-9. -/
def LAN_UP_HI : RegDef := ⟨0xE00004, 0, 1, 0x0,
  [⟨21, 0, .ro, .none⟩]⟩
def LAN_UP_HI_UP_HI : Fld := ⟨LAN_UP_HI, 21, 0⟩
/-- Table LAN-10. -/
def LAN_CFG : RegDef := ⟨0xE01000, 64, 54, 0x228000,
  [⟨21, 21, .rw, .live⟩, ⟨20, 20, .rw, .live⟩, ⟨19, 19, .rw, .locked⟩, ⟨18, 18, .rw, .locked⟩, ⟨17, 17, .rw, .locked⟩, ⟨16, 16, .rw, .locked⟩, ⟨15, 15, .rw, .locked⟩, ⟨11, 10, .rw, .locked⟩, ⟨9, 8, .rw, .locked⟩, ⟨0, 0, .rw, .live⟩]⟩
def LAN_CFG_AUTO_RETRAIN : Fld := ⟨LAN_CFG, 21, 21⟩
def LAN_CFG_DEG_FAULT : Fld := ⟨LAN_CFG, 20, 20⟩
def LAN_CFG_RX_INV : Fld := ⟨LAN_CFG, 19, 19⟩
def LAN_CFG_TX_INV : Fld := ⟨LAN_CFG, 18, 18⟩
def LAN_CFG_PRECODE : Fld := ⟨LAN_CFG, 17, 17⟩
def LAN_CFG_AN_EN : Fld := ⟨LAN_CFG, 16, 16⟩
def LAN_CFG_TRAIN_EN : Fld := ⟨LAN_CFG, 15, 15⟩
def LAN_CFG_PMD : Fld := ⟨LAN_CFG, 11, 10⟩
def LAN_CFG_MODE : Fld := ⟨LAN_CFG, 9, 8⟩
def LAN_CFG_EN : Fld := ⟨LAN_CFG, 0, 0⟩
/-- Table LAN-11. -/
def LAN_TIME : RegDef := ⟨0xE01004, 64, 54, 0xA01F4,
  [⟨31, 16, .rw, .live⟩, ⟨15, 0, .rw, .live⟩]⟩
def LAN_TIME_RETRY : Fld := ⟨LAN_TIME, 31, 16⟩
def LAN_TIME_TRAIN_TMO : Fld := ⟨LAN_TIME, 15, 0⟩
/-- Table LAN-11. -/
def LAN_DEG : RegDef := ⟨0xE01008, 64, 54, 0x4001000,
  [⟨31, 16, .rw, .live⟩, ⟨15, 0, .rw, .live⟩]⟩
def LAN_DEG_DEG_CLR : Fld := ⟨LAN_DEG, 31, 16⟩
def LAN_DEG_DEG_SET : Fld := ⟨LAN_DEG, 15, 0⟩
/-- Table LAN-11. -/
def LAN_UNC : RegDef := ⟨0xE0100C, 64, 54, 0x40,
  [⟨15, 0, .rw, .live⟩]⟩
def LAN_UNC_UNC_THR : Fld := ⟨LAN_UNC, 15, 0⟩
/-- Table LAN-12. -/
def LAN_TEST : RegDef := ⟨0xE01010, 64, 54, 0x0,
  [⟨17, 16, .rw, .live⟩, ⟨11, 8, .rw, .live⟩, ⟨3, 0, .rw, .live⟩]⟩
def LAN_TEST_LOOP : Fld := ⟨LAN_TEST, 17, 16⟩
def LAN_TEST_CHK : Fld := ⟨LAN_TEST, 11, 8⟩
def LAN_TEST_GEN : Fld := ⟨LAN_TEST, 3, 0⟩
/-- Table LAN-12. -/
def LAN_INJ : RegDef := ⟨0xE01014, 64, 54, 0x10100,
  [⟨31, 31, .wo, .live⟩, ⟨30, 28, .rw, .live⟩, ⟨27, 16, .rw, .live⟩, ⟨15, 8, .rw, .live⟩, ⟨7, 0, .rw, .live⟩]⟩
def LAN_INJ_GO : Fld := ⟨LAN_INJ, 31, 31⟩
def LAN_INJ_TYPE : Fld := ⟨LAN_INJ, 30, 28⟩
def LAN_INJ_COUNT : Fld := ⟨LAN_INJ, 27, 16⟩
def LAN_INJ_LEN : Fld := ⟨LAN_INJ, 15, 8⟩
def LAN_INJ_PERIOD : Fld := ⟨LAN_INJ, 7, 0⟩
/-- Table LAN-13. -/
def LAN_STAT : RegDef := ⟨0xE01018, 64, 54, 0x800000,
  [⟨31, 29, .ro, .none⟩, ⟨28, 24, .ro, .none⟩, ⟨23, 23, .ro, .none⟩, ⟨22, 22, .ro, .none⟩, ⟨21, 21, .ro, .none⟩, ⟨20, 20, .ro, .none⟩, ⟨19, 19, .ro, .none⟩, ⟨18, 18, .ro, .none⟩, ⟨17, 17, .ro, .none⟩, ⟨14, 7, .ro, .none⟩, ⟨6, 0, .rc, .none⟩]⟩
def LAN_STAT_STATE : Fld := ⟨LAN_STAT, 31, 29⟩
def LAN_STAT_CAUSE : Fld := ⟨LAN_STAT, 28, 24⟩
def LAN_STAT_LOS : Fld := ⟨LAN_STAT, 23, 23⟩
def LAN_STAT_FEC_ALIGN : Fld := ⟨LAN_STAT, 22, 22⟩
def LAN_STAT_BLOCK_LOCK : Fld := ⟨LAN_STAT, 21, 21⟩
def LAN_STAT_RF : Fld := ⟨LAN_STAT, 20, 20⟩
def LAN_STAT_PRE_ACT : Fld := ⟨LAN_STAT, 19, 19⟩
def LAN_STAT_CHK_LOCK : Fld := ⟨LAN_STAT, 18, 18⟩
def LAN_STAT_INJ_ACT : Fld := ⟨LAN_STAT, 17, 17⟩
def LAN_STAT_FAR_LANE : Fld := ⟨LAN_STAT, 14, 7⟩
def LAN_STAT_TRAINS : Fld := ⟨LAN_STAT, 6, 0⟩
/-- Table LAN-13. -/
def LAN_COEF : RegDef := ⟨0xE0101C, 64, 54, 0x0,
  [⟨29, 24, .ro, .none⟩, ⟨23, 18, .ro, .none⟩, ⟨17, 12, .ro, .none⟩, ⟨11, 6, .ro, .none⟩, ⟨5, 0, .ro, .none⟩]⟩
def LAN_COEF_C1 : Fld := ⟨LAN_COEF, 29, 24⟩
def LAN_COEF_C0 : Fld := ⟨LAN_COEF, 23, 18⟩
def LAN_COEF_CM1 : Fld := ⟨LAN_COEF, 17, 12⟩
def LAN_COEF_CM2 : Fld := ⟨LAN_COEF, 11, 6⟩
def LAN_COEF_CM3 : Fld := ⟨LAN_COEF, 5, 0⟩
/-- Table LAN-14. -/
def LAN_CNT_8 : RegDef := ⟨0xE01020, 64, 54, 0x0,
  [⟨31, 0, .rc, .none⟩]⟩
/-- Table LAN-14. -/
def LAN_CNT_9 : RegDef := ⟨0xE01024, 64, 54, 0x0,
  [⟨31, 0, .rc, .none⟩]⟩
/-- Table LAN-14. -/
def LAN_CNT_10 : RegDef := ⟨0xE01028, 64, 54, 0x0,
  [⟨31, 0, .rc, .none⟩]⟩
/-- Table LAN-14. -/
def LAN_CNT_11 : RegDef := ⟨0xE0102C, 64, 54, 0x0,
  [⟨31, 0, .rc, .none⟩]⟩
/-- Table LAN-14. -/
def LAN_CNT_12 : RegDef := ⟨0xE01030, 64, 54, 0x0,
  [⟨31, 0, .rc, .none⟩]⟩
/-- Table LAN-14. -/
def LAN_CNT_13 : RegDef := ⟨0xE01034, 64, 54, 0x0,
  [⟨31, 0, .rc, .none⟩]⟩
/-- Table LAN-14. -/
def LAN_CNT_14 : RegDef := ⟨0xE01038, 64, 54, 0x0,
  [⟨31, 0, .rc, .none⟩]⟩
/-- Table LAN-14. -/
def LAN_CNT_15 : RegDef := ⟨0xE0103C, 64, 54, 0x0,
  [⟨31, 0, .rc, .none⟩]⟩
/-- Table HBM-5. -/
def HBM_CTL : RegDef := ⟨0x1000000, 0, 1, 0x6,
  [⟨2, 2, .rw, .live⟩, ⟨1, 1, .rw, .live⟩, ⟨0, 0, .ro, .none⟩]⟩
def HBM_CTL_SCRUB_EN : Fld := ⟨HBM_CTL, 2, 2⟩
def HBM_CTL_AUTO_FENCE : Fld := ⟨HBM_CTL, 1, 1⟩
def HBM_CTL_READY : Fld := ⟨HBM_CTL, 0, 0⟩
/-- Table HBM-6. -/
def HBM_RH_CFG : RegDef := ⟨0x1000004, 0, 1, 0x101000,
  [⟨31, 16, .rw, .live⟩, ⟨15, 0, .rw, .live⟩]⟩
def HBM_RH_CFG_RFM_MAX : Fld := ⟨HBM_RH_CFG, 31, 16⟩
def HBM_RH_CFG_THRESH : Fld := ⟨HBM_RH_CFG, 15, 0⟩
/-- Table HBM-6. -/
def HBM_ECC_CFG : RegDef := ⟨0x1000008, 0, 1, 0xE100010,
  [⟨31, 16, .rw, .live⟩, ⟨7, 0, .rw, .live⟩]⟩
def HBM_ECC_CFG_SCRUB_S : Fld := ⟨HBM_ECC_CFG, 31, 16⟩
def HBM_ECC_CFG_FENCE_UNC : Fld := ⟨HBM_ECC_CFG, 7, 0⟩
/-- Table HBM-6. -/
def HBM_THERM : RegDef := ⟨0x100000C, 0, 1, 0x64,
  [⟨7, 0, .rw, .live⟩]⟩
def HBM_THERM_HOT : Fld := ⟨HBM_THERM, 7, 0⟩
/-- Table HBM-7. -/
def HBM_ERR_ADDR_LO : RegDef := ⟨0x1000010, 0, 1, 0x0,
  [⟨31, 0, .ro, .none⟩]⟩
/-- Table HBM-7. -/
def HBM_ERR_ADDR_HI : RegDef := ⟨0x1000014, 0, 1, 0x0,
  [⟨31, 25, .ro, .none⟩, ⟨7, 0, .ro, .none⟩]⟩
def HBM_ERR_ADDR_HI_PC : Fld := ⟨HBM_ERR_ADDR_HI, 31, 25⟩
def HBM_ERR_ADDR_HI_ADDR_HI : Fld := ⟨HBM_ERR_ADDR_HI, 7, 0⟩
/-- Table HBM-8. -/
def HBM_FENCED : RegDef := ⟨0x1000020, 4, 4, 0x0,
  [⟨31, 0, .ro, .none⟩]⟩
/-- Table HBM-8. -/
def HBM_TEMP : RegDef := ⟨0x1000030, 4, 4, 0x0,
  [⟨31, 30, .ro, .none⟩, ⟨29, 29, .ro, .none⟩, ⟨7, 0, .ro, .none⟩]⟩
def HBM_TEMP_REFMUL : Fld := ⟨HBM_TEMP, 31, 30⟩
def HBM_TEMP_HOT : Fld := ⟨HBM_TEMP, 29, 29⟩
def HBM_TEMP_TEMP : Fld := ⟨HBM_TEMP, 7, 0⟩
/-- Table HBM-9. -/
def HBM_REGION_0 : RegDef := ⟨0x1000100, 32, 16, 0x0,
  [⟨31, 31, .rw, .tick⟩, ⟨30, 30, .rw, .tick⟩, ⟨15, 0, .rw, .tick⟩]⟩
def HBM_REGION_0_EN : Fld := ⟨HBM_REGION_0, 31, 31⟩
def HBM_REGION_0_MIRROR : Fld := ⟨HBM_REGION_0, 30, 30⟩
def HBM_REGION_0_SET : Fld := ⟨HBM_REGION_0, 15, 0⟩
/-- Table HBM-9. -/
def HBM_REGION_1 : RegDef := ⟨0x1000104, 32, 16, 0x0,
  [⟨31, 0, .rw, .tick⟩]⟩
/-- Table HBM-9. -/
def HBM_REGION_2 : RegDef := ⟨0x1000108, 32, 16, 0x0,
  [⟨31, 0, .rw, .tick⟩]⟩
/-- Table HBM-9. -/
def HBM_REGION_3 : RegDef := ⟨0x100010C, 32, 16, 0x0,
  [⟨17, 0, .rw, .tick⟩]⟩
def HBM_REGION_3_PCBASE : Fld := ⟨HBM_REGION_3, 17, 0⟩
/-- Table HBM-9. -/
def HBM_REGION_4 : RegDef := ⟨0x1000110, 32, 16, 0x0,
  [⟨17, 0, .rw, .tick⟩]⟩
def HBM_REGION_4_EXT : Fld := ⟨HBM_REGION_4, 17, 0⟩
/-- Table HBM-9. -/
def HBM_REGION_5 : RegDef := ⟨0x1000114, 32, 16, 0x0,
  [⟨7, 0, .ro, .none⟩]⟩
def HBM_REGION_5_LIVE : Fld := ⟨HBM_REGION_5, 7, 0⟩
/-- Table HBM-10. -/
def HBM_PC_0 : RegDef := ⟨0x1001000, 32, 128, 0x120,
  [⟨31, 31, .wo, .live⟩, ⟨8, 8, .rw, .tick⟩, ⟨7, 0, .rw, .live⟩]⟩
def HBM_PC_0_FENCE : Fld := ⟨HBM_PC_0, 31, 31⟩
def HBM_PC_0_POLICY : Fld := ⟨HBM_PC_0, 8, 8⟩
def HBM_PC_0_AGE : Fld := ⟨HBM_PC_0, 7, 0⟩
/-- Table HBM-10. -/
def HBM_PC_1 : RegDef := ⟨0x1001004, 32, 128, 0x0,
  [⟨31, 30, .ro, .none⟩, ⟨29, 24, .ro, .none⟩, ⟨8, 0, .ro, .none⟩]⟩
def HBM_PC_1_STATE : Fld := ⟨HBM_PC_1, 31, 30⟩
def HBM_PC_1_CAUSE : Fld := ⟨HBM_PC_1, 29, 24⟩
def HBM_PC_1_INFLIGHT : Fld := ⟨HBM_PC_1, 8, 0⟩
/-- Table HBM-10. -/
def HBM_PC_2 : RegDef := ⟨0x1001008, 32, 128, 0x0,
  [⟨31, 0, .rc, .none⟩]⟩
/-- Table HBM-10. -/
def HBM_PC_3 : RegDef := ⟨0x100100C, 32, 128, 0x0,
  [⟨31, 0, .rc, .none⟩]⟩
/-- Table HBM-10. -/
def HBM_PC_4 : RegDef := ⟨0x1001010, 32, 128, 0x0,
  [⟨31, 16, .rc, .none⟩, ⟨15, 0, .rc, .none⟩]⟩
def HBM_PC_4_PARITY : Fld := ⟨HBM_PC_4, 31, 16⟩
def HBM_PC_4_ODE : Fld := ⟨HBM_PC_4, 15, 0⟩
/-- Table HBM-10. -/
def HBM_PC_5 : RegDef := ⟨0x1001014, 32, 128, 0x0,
  [⟨31, 0, .rc, .none⟩]⟩
/-- Table HBM-10. -/
def HBM_PC_6 : RegDef := ⟨0x1001018, 32, 128, 0x0,
  [⟨31, 0, .rc, .none⟩]⟩
/-- Table HBM-10. -/
def HBM_PC_7 : RegDef := ⟨0x100101C, 32, 128, 0x0,
  [⟨31, 0, .rc, .none⟩]⟩
/-- Table RDB-4. -/
def RDB_QOS : RegDef := ⟨0x1400000, 4, 8, 0x0,
  [⟨3, 0, .rw, .live⟩]⟩
def RDB_QOS_QOS : Fld := ⟨RDB_QOS, 3, 0⟩
/-- Table RDB-5. -/
def RDB_PARK : RegDef := ⟨0x1400100, 4, 131, 0x0,
  [⟨2, 0, .rw, .live⟩]⟩
def RDB_PARK_PARK : Fld := ⟨RDB_PARK, 2, 0⟩
/-- Table RDB-6. -/
def RDB_CFG : RegDef := ⟨0x1400400, 0, 1, 0x64,
  [⟨15, 0, .rw, .live⟩]⟩
def RDB_CFG_TMO : Fld := ⟨RDB_CFG, 15, 0⟩
/-- Table RDB-6. -/
def RDB_STAT : RegDef := ⟨0x1400404, 0, 1, 0x0,
  [⟨31, 31, .ro, .none⟩, ⟨7, 0, .rc, .none⟩]⟩
def RDB_STAT_BRIDGE_UP : Fld := ⟨RDB_STAT, 31, 31⟩
def RDB_STAT_DOWNS : Fld := ⟨RDB_STAT, 7, 0⟩
/-- Table RDB-7. -/
def RDB_BRIDGE_CNT : RegDef := ⟨0x1400408, 0, 1, 0x0,
  [⟨31, 0, .rc, .none⟩]⟩
/-- Table RDB-7. -/
def RDB_TMO_ADDR_LO : RegDef := ⟨0x1400410, 0, 1, 0x0,
  [⟨31, 0, .ro, .none⟩]⟩
/-- Table RDB-7. -/
def RDB_TMO_ADDR_HI : RegDef := ⟨0x1400414, 0, 1, 0x0,
  [⟨31, 29, .ro, .none⟩, ⟨7, 0, .ro, .none⟩]⟩
def RDB_TMO_ADDR_HI_MASTER : Fld := ⟨RDB_TMO_ADDR_HI, 31, 29⟩
def RDB_TMO_ADDR_HI_ADDR_HI : Fld := ⟨RDB_TMO_ADDR_HI, 7, 0⟩
/-- Table RDB-8. -/
def RDB_INFLIGHT : RegDef := ⟨0x1400500, 4, 8, 0x0,
  [⟨8, 0, .ro, .none⟩]⟩
def RDB_INFLIGHT_COUNT : Fld := ⟨RDB_INFLIGHT, 8, 0⟩
/-- Table TMG-5. -/
def TMG_CTL : RegDef := ⟨0x180000, 0, 1, 0x2F,
  [⟨5, 5, .rw, .live⟩, ⟨4, 4, .rw, .live⟩, ⟨3, 0, .rw, .live⟩]⟩
def TMG_CTL_STEP_EN : Fld := ⟨TMG_CTL, 5, 5⟩
def TMG_CTL_HOLD : Fld := ⟨TMG_CTL, 4, 4⟩
def TMG_CTL_FORCE : Fld := ⟨TMG_CTL, 3, 0⟩
/-- Table TMG-6. -/
def TMG_STAT : RegDef := ⟨0x180004, 0, 1, 0x1E000000,
  [⟨31, 29, .ro, .none⟩, ⟨28, 25, .ro, .none⟩, ⟨24, 24, .ro, .none⟩, ⟨23, 23, .ro, .none⟩, ⟨22, 22, .ro, .none⟩, ⟨21, 21, .ro, .none⟩, ⟨20, 20, .ro, .none⟩, ⟨19, 19, .ro, .none⟩]⟩
def TMG_STAT_STATE : Fld := ⟨TMG_STAT, 31, 29⟩
def TMG_STAT_SEL : Fld := ⟨TMG_STAT, 28, 25⟩
def TMG_STAT_TIME_VALID : Fld := ⟨TMG_STAT, 24, 24⟩
def TMG_STAT_TRACE : Fld := ⟨TMG_STAT, 23, 23⟩
def TMG_STAT_MODEL_VALID : Fld := ⟨TMG_STAT, 22, 22⟩
def TMG_STAT_DAC_LIMIT : Fld := ⟨TMG_STAT, 21, 21⟩
def TMG_STAT_DISAGREE : Fld := ⟨TMG_STAT, 20, 20⟩
def TMG_STAT_PRIMARY : Fld := ⟨TMG_STAT, 19, 19⟩
/-- Table TMG-7. -/
def TMG_FS : RegDef := ⟨0x180008, 0, 1, 0xC80,
  [⟨11, 0, .rw, .locked⟩]⟩
def TMG_FS_FS : Fld := ⟨TMG_FS, 11, 0⟩
/-- Table TMG-7. -/
def TMG_EPOCH_LO : RegDef := ⟨0x18000C, 0, 1, 0x0,
  [⟨31, 0, .rw, .locked⟩]⟩
/-- Table TMG-7. -/
def TMG_EPOCH_HI : RegDef := ⟨0x180010, 0, 1, 0x0,
  [⟨7, 0, .rw, .locked⟩]⟩
def TMG_EPOCH_HI_EPOCH_HI : Fld := ⟨TMG_EPOCH_HI, 7, 0⟩
/-- Table TMG-8. -/
def TMG_SLEW : RegDef := ⟨0x180014, 0, 1, 0xA,
  [⟨9, 0, .rw, .live⟩]⟩
def TMG_SLEW_SLEW : Fld := ⟨TMG_SLEW, 9, 0⟩
/-- Table TMG-8. -/
def TMG_QUAL : RegDef := ⟨0x180018, 0, 1, 0x3C000A,
  [⟨31, 16, .rw, .live⟩, ⟨15, 0, .rw, .live⟩]⟩
def TMG_QUAL_WTR_S : Fld := ⟨TMG_QUAL, 31, 16⟩
def TMG_QUAL_QUAL_S : Fld := ⟨TMG_QUAL, 15, 0⟩
/-- Table TMG-8. -/
def TMG_LOCK : RegDef := ⟨0x18001C, 0, 1, 0xA0032,
  [⟨31, 16, .rw, .live⟩, ⟨15, 0, .rw, .live⟩]⟩
def TMG_LOCK_LOCK_S : Fld := ⟨TMG_LOCK, 31, 16⟩
def TMG_LOCK_LOCK_THR : Fld := ⟨TMG_LOCK, 15, 0⟩
/-- Table TMG-9. -/
def TMG_DIS_THR : RegDef := ⟨0x180020, 0, 1, 0x3E8,
  [⟨31, 0, .rw, .live⟩]⟩
/-- Table TMG-9. -/
def HO_THR : RegDef := ⟨0x180024, 0, 1, 0x64,
  [⟨31, 0, .rw, .live⟩]⟩
/-- Table TMG-9. -/
def HO_Y : RegDef := ⟨0x180028, 0, 1, 0x2710,
  [⟨31, 0, .rw, .live⟩]⟩
/-- Table TMG-9. -/
def HO_Q : RegDef := ⟨0x18002C, 0, 1, 0x3E8,
  [⟨31, 0, .rw, .live⟩]⟩
/-- Table TMG-9. -/
def HO_TE : RegDef := ⟨0x180030, 0, 1, 0x0,
  [⟨31, 0, .ro, .none⟩]⟩
/-- Table TMG-10. -/
def TMG_DAC_CFG : RegDef := ⟨0x180040, 0, 1, 0x14,
  [⟨16, 16, .rw, .locked⟩, ⟨15, 8, .rw, .locked⟩, ⟨7, 5, .rw, .locked⟩, ⟨4, 0, .rw, .locked⟩]⟩
def TMG_DAC_CFG_INVERT : Fld := ⟨TMG_DAC_CFG, 16, 16⟩
def TMG_DAC_CFG_PREFIX : Fld := ⟨TMG_DAC_CFG, 15, 8⟩
def TMG_DAC_CFG_PLEN : Fld := ⟨TMG_DAC_CFG, 7, 5⟩
def TMG_DAC_CFG_WIDTH : Fld := ⟨TMG_DAC_CFG, 4, 0⟩
/-- Table TMG-10. -/
def TMG_DAC_GAIN : RegDef := ⟨0x180044, 0, 1, 0x64,
  [⟨31, 0, .rw, .locked⟩]⟩
/-- Table TMG-10. -/
def TMG_DAC_INIT : RegDef := ⟨0x180048, 0, 1, 0x80000,
  [⟨23, 0, .rw, .live⟩]⟩
def TMG_DAC_INIT_DAC_INIT : Fld := ⟨TMG_DAC_INIT, 23, 0⟩
/-- Table TMG-10. -/
def TMG_DAC_CODE : RegDef := ⟨0x18004C, 0, 1, 0x80000,
  [⟨23, 0, .ro, .none⟩]⟩
def TMG_DAC_CODE_CODE : Fld := ⟨TMG_DAC_CODE, 23, 0⟩
/-- Table TMG-11. -/
def TMG_TIME_LO : RegDef := ⟨0x180050, 0, 1, 0x0,
  [⟨31, 0, .ro, .none⟩]⟩
/-- Table TMG-11. -/
def TMG_TIME_HI : RegDef := ⟨0x180054, 0, 1, 0x0,
  [⟨31, 0, .ro, .none⟩]⟩
/-- Table TMG-11. -/
def TMG_TIME_FR : RegDef := ⟨0x180058, 0, 1, 0x0,
  [⟨31, 0, .ro, .none⟩]⟩
/-- Table TMG-12. -/
def TMG_TSET_0 : RegDef := ⟨0x180060, 0, 1, 0x0,
  [⟨31, 0, .rw, .live⟩]⟩
/-- Table TMG-12. -/
def TMG_TSET_1 : RegDef := ⟨0x180064, 0, 1, 0x0,
  [⟨31, 31, .wo, .live⟩, ⟨7, 0, .rw, .live⟩]⟩
def TMG_TSET_1_GO : Fld := ⟨TMG_TSET_1, 31, 31⟩
def TMG_TSET_1_SEC_HI : Fld := ⟨TMG_TSET_1, 7, 0⟩
/-- Table TMG-13. -/
def TMG_OUT : RegDef := ⟨0x180070, 0, 1, 0xD00007D0,
  [⟨31, 31, .rw, .live⟩, ⟨30, 30, .rw, .live⟩, ⟨29, 24, .rw, .live⟩, ⟨23, 0, .rw, .live⟩]⟩
def TMG_OUT_TICK_EN : Fld := ⟨TMG_OUT, 31, 31⟩
def TMG_OUT_PPS_EN : Fld := ⟨TMG_OUT, 30, 30⟩
def TMG_OUT_TICK_W : Fld := ⟨TMG_OUT, 29, 24⟩
def TMG_OUT_PPS_W : Fld := ⟨TMG_OUT, 23, 0⟩
/-- Table TMG-13. -/
def TMG_PTP_CFG : RegDef := ⟨0x180074, 0, 1, 0x0,
  [⟨9, 8, .rw, .live⟩, ⟨7, 0, .rw, .live⟩]⟩
def TMG_PTP_CFG_TRANSPORT : Fld := ⟨TMG_PTP_CFG, 9, 8⟩
def TMG_PTP_CFG_DOMAIN : Fld := ⟨TMG_PTP_CFG, 7, 0⟩
/-- Table TMG-14. -/
def TMG_SKEW_LO : RegDef := ⟨0x180080, 0, 1, 0xFFFF8000,
  [⟨31, 0, .rw, .live⟩]⟩
/-- Table TMG-14. -/
def TMG_SKEW_HI : RegDef := ⟨0x180084, 0, 1, 0x7FFFFFFF,
  [⟨31, 0, .rw, .live⟩]⟩
/-- Table TMG-14. -/
def TMG_CHK : RegDef := ⟨0x180088, 0, 1, 0x1,
  [⟨8, 0, .rw, .live⟩]⟩
def TMG_CHK_MIS_CNT : Fld := ⟨TMG_CHK, 8, 0⟩
/-- Table TMG-14. -/
def TMG_CHK_STAT : RegDef := ⟨0x18008C, 0, 1, 0x0,
  [⟨24, 16, .ro, .none⟩, ⟨7, 0, .ro, .none⟩]⟩
def TMG_CHK_STAT_COUNT : Fld := ⟨TMG_CHK_STAT, 24, 16⟩
def TMG_CHK_STAT_FIRST : Fld := ⟨TMG_CHK_STAT, 7, 0⟩
/-- Table TMG-15. -/
def TMG_CHK_MASK : RegDef := ⟨0x180090, 4, 8, 0x0,
  [⟨31, 0, .rw, .live⟩]⟩
/-- Table TMG-15. -/
def TMG_REF_PH : RegDef := ⟨0x1800C0, 4, 7, 0x0,
  [⟨31, 0, .ro, .none⟩]⟩
/-- Table TMG-16. -/
def TMG_REF_0 : RegDef := ⟨0x180100, 32, 7, 0x0,
  [⟨31, 31, .rw, .live⟩, ⟨11, 11, .rw, .live⟩, ⟨10, 8, .rw, .live⟩, ⟨4, 0, .rw, .live⟩]⟩
def TMG_REF_0_EN : Fld := ⟨TMG_REF_0, 31, 31⟩
def TMG_REF_0_F100 : Fld := ⟨TMG_REF_0, 11, 11⟩
def TMG_REF_0_RANK : Fld := ⟨TMG_REF_0, 10, 8⟩
def TMG_REF_0_SRC : Fld := ⟨TMG_REF_0, 4, 0⟩
/-- Table TMG-16. -/
def TMG_REF_1 : RegDef := ⟨0x180104, 32, 7, 0x0,
  [⟨19, 0, .rw, .live⟩]⟩
def TMG_REF_1_BW : Fld := ⟨TMG_REF_1, 19, 0⟩
/-- Table TMG-16. -/
def TMG_REF_2 : RegDef := ⟨0x180108, 32, 7, 0x1E8480,
  [⟨31, 0, .rw, .live⟩]⟩
/-- Table TMG-16. -/
def TMG_REF_3 : RegDef := ⟨0x18010C, 32, 7, 0x0,
  [⟨15, 0, .rw, .live⟩]⟩
def TMG_REF_3_PJ_THR : Fld := ⟨TMG_REF_3, 15, 0⟩
/-- Table TMG-16. -/
def TMG_REF_4 : RegDef := ⟨0x180110, 32, 7, 0x0,
  [⟨31, 0, .rw, .live⟩]⟩
/-- Table TMG-16. -/
def TMG_REF_5 : RegDef := ⟨0x180114, 32, 7, 0x0,
  [⟨31, 31, .ro, .none⟩, ⟨30, 30, .ro, .none⟩, ⟨15, 0, .ro, .none⟩]⟩
def TMG_REF_5_QUAL : Fld := ⟨TMG_REF_5, 31, 31⟩
def TMG_REF_5_SELECTED : Fld := ⟨TMG_REF_5, 30, 30⟩
def TMG_REF_5_TIMER : Fld := ⟨TMG_REF_5, 15, 0⟩
/-- Table TMG-16. -/
def TMG_REF_6 : RegDef := ⟨0x180118, 32, 7, 0x0,
  [⟨3, 3, .w1c, .none⟩, ⟨2, 2, .w1c, .none⟩, ⟨1, 1, .w1c, .none⟩, ⟨0, 0, .w1c, .none⟩]⟩
def TMG_REF_6_DISQUALIFIED : Fld := ⟨TMG_REF_6, 3, 3⟩
def TMG_REF_6_PHASE_JUMP : Fld := ⟨TMG_REF_6, 2, 2⟩
def TMG_REF_6_FREQ_RANGE : Fld := ⟨TMG_REF_6, 1, 1⟩
def TMG_REF_6_LOS : Fld := ⟨TMG_REF_6, 0, 0⟩
/-- Table TMG-16. -/
def TMG_REF_7 : RegDef := ⟨0x18011C, 32, 7, 0x0,
  [⟨31, 0, .ro, .none⟩]⟩
/-- Table LSE-6. -/
def LSE_CTL : RegDef := ⟨0x1500000, 0, 1, 0x2,
  [⟨1, 1, .rw, .live⟩, ⟨0, 0, .wo, .live⟩]⟩
def LSE_CTL_WD_EN : Fld := ⟨LSE_CTL, 1, 1⟩
def LSE_CTL_HANDOVER : Fld := ⟨LSE_CTL, 0, 0⟩
/-- Table LSE-6. -/
def LSE_WD : RegDef := ⟨0x1500004, 0, 1, 0x0,
  [⟨0, 0, .wo, .live⟩]⟩
def LSE_WD_KICK : Fld := ⟨LSE_WD, 0, 0⟩
/-- Table LSE-7. -/
def LSE_STAT : RegDef := ⟨0x1500008, 0, 1, 0x3000000,
  [⟨31, 30, .ro, .none⟩, ⟨29, 28, .ro, .none⟩, ⟨27, 26, .ro, .none⟩, ⟨25, 24, .ro, .none⟩, ⟨23, 23, .ro, .none⟩, ⟨22, 22, .ro, .none⟩, ⟨21, 21, .ro, .none⟩, ⟨20, 20, .ro, .none⟩, ⟨19, 19, .ro, .none⟩, ⟨18, 18, .ro, .none⟩, ⟨17, 17, .ro, .none⟩, ⟨16, 16, .ro, .none⟩]⟩
def LSE_STAT_ROLE : Fld := ⟨LSE_STAT, 31, 30⟩
def LSE_STAT_LEASE : Fld := ⟨LSE_STAT, 29, 28⟩
def LSE_STAT_OWN : Fld := ⟨LSE_STAT, 27, 26⟩
def LSE_STAT_OTHER : Fld := ⟨LSE_STAT, 25, 24⟩
def LSE_STAT_HOT : Fld := ⟨LSE_STAT, 23, 23⟩
def LSE_STAT_OTHER_HOT : Fld := ⟨LSE_STAT, 22, 22⟩
def LSE_STAT_BRIDGE_HB : Fld := ⟨LSE_STAT, 21, 21⟩
def LSE_STAT_SIDE_HB : Fld := ⟨LSE_STAT, 20, 20⟩
def LSE_STAT_WIT_OTHER : Fld := ⟨LSE_STAT, 19, 19⟩
def LSE_STAT_WIT_OWN : Fld := ⟨LSE_STAT, 18, 18⟩
def LSE_STAT_WIT_FAULT : Fld := ⟨LSE_STAT, 17, 17⟩
def LSE_STAT_DRIVE : Fld := ⟨LSE_STAT, 16, 16⟩
/-- Table LSE-8. -/
def LSE_EPOCH : RegDef := ⟨0x150000C, 0, 1, 0x0,
  [⟨31, 0, .ro, .none⟩]⟩
/-- Table LSE-8. -/
def LSE_FENCE : RegDef := ⟨0x1500010, 0, 1, 0x0,
  [⟨31, 0, .ro, .none⟩]⟩
/-- Table LSE-8. -/
def LSE_PEER : RegDef := ⟨0x1500014, 0, 1, 0x0,
  [⟨31, 0, .ro, .none⟩]⟩
/-- Table LSE-8. -/
def LSE_HB_CNT : RegDef := ⟨0x1500018, 0, 1, 0x0,
  [⟨31, 16, .rc, .none⟩, ⟨15, 0, .rc, .none⟩]⟩
def LSE_HB_CNT_BRIDGE_MISS : Fld := ⟨LSE_HB_CNT, 31, 16⟩
def LSE_HB_CNT_SIDE_MISS : Fld := ⟨LSE_HB_CNT, 15, 0⟩
/-- Table LSE-9. -/
def LSE_SW_CNT : RegDef := ⟨0x150001C, 0, 1, 0x0,
  [⟨31, 16, .rc, .none⟩, ⟨15, 0, .rc, .none⟩]⟩
def LSE_SW_CNT_TAKEOVERS : Fld := ⟨LSE_SW_CNT, 31, 16⟩
def LSE_SW_CNT_SWITCHOVERS : Fld := ⟨LSE_SW_CNT, 15, 0⟩
/-- Table LSE-9. -/
def LSE_DREC : RegDef := ⟨0x1500100, 4, 64, 0x0,
  [⟨31, 0, .rw, .live⟩]⟩
/-- Table EVC-2. -/
def EVC_CTL : RegDef := ⟨0x200000, 0, 1, 0x0,
  [⟨0, 0, .rw, .live⟩]⟩
def EVC_CTL_EN : Fld := ⟨EVC_CTL, 0, 0⟩
/-- Table EVC-2. -/
def EVC_STAT : RegDef := ⟨0x200004, 0, 1, 0xB0000,
  [⟨19, 16, .ro, .none⟩, ⟨15, 0, .rc, .none⟩]⟩
def EVC_STAT_LAST : Fld := ⟨EVC_STAT, 19, 16⟩
def EVC_STAT_FAULTS : Fld := ⟨EVC_STAT, 15, 0⟩
/-- Table EVC-2. -/
def EVC_SWSET : RegDef := ⟨0x200008, 0, 1, 0x0,
  [⟨9, 0, .wo, .live⟩]⟩
def EVC_SWSET_SOURCE : Fld := ⟨EVC_SWSET, 9, 0⟩
/-- Table EVC-3. -/
def EVC_ENABLE : RegDef := ⟨0x200100, 4, 32, 0x0,
  [⟨31, 0, .rw, .live⟩]⟩
/-- Table EVC-3. -/
def EVC_PENDING : RegDef := ⟨0x200180, 4, 32, 0x0,
  [⟨31, 0, .w1c, .none⟩]⟩
/-- Table EVC-3. -/
def EVC_KIND : RegDef := ⟨0x200200, 4, 32, 0x0,
  [⟨31, 0, .ro, .none⟩]⟩
/-- Table EVC-4. -/
def EVC_HOLD : RegDef := ⟨0x200300, 4, 32, 0x0,
  [⟨19, 0, .rw, .live⟩]⟩
def EVC_HOLD_HOLD : Fld := ⟨EVC_HOLD, 19, 0⟩
/-- Table EVC-5. -/
def EVC_TGT_0 : RegDef := ⟨0x200400, 32, 12, 0x0,
  [⟨31, 0, .rw, .live⟩]⟩
/-- Table EVC-5. -/
def EVC_TGT_1 : RegDef := ⟨0x200404, 32, 12, 0x0,
  [⟨31, 31, .rw, .live⟩, ⟨30, 30, .ro, .none⟩, ⟨29, 29, .ro, .none⟩, ⟨9, 0, .ro, .none⟩]⟩
def EVC_TGT_1_MASK : Fld := ⟨EVC_TGT_1, 31, 31⟩
def EVC_TGT_1_SLEEP : Fld := ⟨EVC_TGT_1, 30, 30⟩
def EVC_TGT_1_OFFER : Fld := ⟨EVC_TGT_1, 29, 29⟩
def EVC_TGT_1_OSRC : Fld := ⟨EVC_TGT_1, 9, 0⟩
/-- Table EVC-5. -/
def EVC_TGT_2 : RegDef := ⟨0x200408, 32, 12, 0x0,
  [⟨31, 31, .rc, .none⟩, ⟨30, 30, .rc, .none⟩, ⟨9, 0, .rc, .none⟩]⟩
def EVC_TGT_2_VALID : Fld := ⟨EVC_TGT_2, 31, 31⟩
def EVC_TGT_2_ACTIVE : Fld := ⟨EVC_TGT_2, 30, 30⟩
def EVC_TGT_2_SOURCE : Fld := ⟨EVC_TGT_2, 9, 0⟩
/-- Table EVC-5. -/
def EVC_TGT_3 : RegDef := ⟨0x20040C, 32, 12, 0x0,
  [⟨9, 0, .wo, .live⟩]⟩
def EVC_TGT_3_SOURCE : Fld := ⟨EVC_TGT_3, 9, 0⟩
/-- Table EVC-5. -/
def EVC_TGT_4 : RegDef := ⟨0x200410, 32, 12, 0x0,
  [⟨31, 31, .ro, .none⟩, ⟨30, 30, .ro, .none⟩, ⟨29, 29, .ro, .none⟩, ⟨9, 0, .ro, .none⟩]⟩
def EVC_TGT_4_VALID : Fld := ⟨EVC_TGT_4, 31, 31⟩
def EVC_TGT_4_ACTIVE : Fld := ⟨EVC_TGT_4, 30, 30⟩
def EVC_TGT_4_KIND : Fld := ⟨EVC_TGT_4, 29, 29⟩
def EVC_TGT_4_SOURCE : Fld := ⟨EVC_TGT_4, 9, 0⟩
/-- Table EVC-5. -/
def EVC_TGT_5 : RegDef := ⟨0x200414, 32, 12, 0x0,
  [⟨31, 0, .rc, .none⟩]⟩
/-- Table EVC-5. -/
def EVC_TGT_6 : RegDef := ⟨0x200418, 32, 12, 0x0,
  [⟨31, 0, .rc, .none⟩]⟩
/-- Table EVC-5. -/
def EVC_TGT_7 : RegDef := ⟨0x20041C, 32, 12, 0x0,
  [⟨31, 0, .rc, .none⟩]⟩
/-- Table EVC-6. -/
def EVC_HV : RegDef := ⟨0x200600, 4, 8, 0x0,
  [⟨2, 2, .rw, .live⟩, ⟨1, 0, .rw, .live⟩]⟩
def EVC_HV_MSIX_EN : Fld := ⟨EVC_HV, 2, 2⟩
def EVC_HV_PIN : Fld := ⟨EVC_HV, 1, 0⟩
/-- Table EVC-6 (MSI-X table of R356). -/
def MSIX_0 : RegDef := ⟨0x201000, 16, 8, 0x0,
  [⟨31, 0, .rw, .live⟩]⟩
/-- Table EVC-6 (MSI-X table of R356). -/
def MSIX_1 : RegDef := ⟨0x201004, 16, 8, 0x0,
  [⟨31, 0, .rw, .live⟩]⟩
/-- Table EVC-6 (MSI-X table of R356). -/
def MSIX_2 : RegDef := ⟨0x201008, 16, 8, 0x0,
  [⟨31, 0, .rw, .live⟩]⟩
/-- Table EVC-6 (MSI-X table of R356). -/
def MSIX_3 : RegDef := ⟨0x20100C, 16, 8, 0x1,
  [⟨0, 0, .rw, .live⟩]⟩
def MSIX_3_VMASK : Fld := ⟨MSIX_3, 0, 0⟩
/-- Table EVC-6 (MSI-X pending bits of R356). -/
def MSIX_PBA : RegDef := ⟨0x201800, 0, 1, 0x0,
  [⟨7, 0, .ro, .none⟩]⟩
def MSIX_PBA_PEND : Fld := ⟨MSIX_PBA, 7, 0⟩
/-- Table SUP-3. -/
def SUP_CTL : RegDef := ⟨0x100000, 0, 1, 0x1,
  [⟨2, 2, .wo, .live⟩, ⟨1, 1, .rw, .live⟩, ⟨0, 0, .rw, .live⟩]⟩
def SUP_CTL_RESTART : Fld := ⟨SUP_CTL, 2, 2⟩
def SUP_CTL_PMB_FAST : Fld := ⟨SUP_CTL, 1, 1⟩
def SUP_CTL_AVS_EN : Fld := ⟨SUP_CTL, 0, 0⟩
/-- Table SUP-3. -/
def SUP_STAT : RegDef := ⟨0x100004, 0, 1, 0x0,
  [⟨31, 29, .ro, .none⟩, ⟨28, 26, .ro, .none⟩, ⟨25, 24, .ro, .none⟩, ⟨23, 22, .ro, .none⟩, ⟨21, 21, .ro, .none⟩, ⟨20, 20, .ro, .none⟩]⟩
def SUP_STAT_MAIN : Fld := ⟨SUP_STAT, 31, 29⟩
def SUP_STAT_CAUSE : Fld := ⟨SUP_STAT, 28, 26⟩
def SUP_STAT_FEED_A : Fld := ⟨SUP_STAT, 25, 24⟩
def SUP_STAT_FEED_B : Fld := ⟨SUP_STAT, 23, 22⟩
def SUP_STAT_PFW : Fld := ⟨SUP_STAT, 21, 21⟩
def SUP_STAT_THERM : Fld := ⟨SUP_STAT, 20, 20⟩
/-- Table SUP-4. -/
def SUP_FEED : RegDef := ⟨0x100008, 0, 1, 0x1901D064,
  [⟨31, 30, .rw, .live⟩, ⟨29, 20, .rw, .live⟩, ⟨19, 12, .rw, .live⟩, ⟨11, 0, .rw, .live⟩]⟩
def SUP_FEED_MODE : Fld := ⟨SUP_FEED, 31, 30⟩
def SUP_FEED_IOC : Fld := ⟨SUP_FEED, 29, 20⟩
def SUP_FEED_RET_V : Fld := ⟨SUP_FEED, 19, 12⟩
def SUP_FEED_RET_MS : Fld := ⟨SUP_FEED, 11, 0⟩
/-- Table SUP-4. -/
def SUP_BO : RegDef := ⟨0x10000C, 0, 1, 0x13880A02,
  [⟨31, 16, .rw, .live⟩, ⟨15, 8, .rw, .live⟩, ⟨7, 0, .rw, .live⟩]⟩
def SUP_BO_BO_HOLD : Fld := ⟨SUP_BO, 31, 16⟩
def SUP_BO_PFW_CLR : Fld := ⟨SUP_BO, 15, 8⟩
def SUP_BO_SEQ_RETRY : Fld := ⟨SUP_BO, 7, 0⟩
/-- Table SUP-4. -/
def SUP_AVS : RegDef := ⟨0x100010, 0, 1, 0x280F28A,
  [⟨31, 31, .ro, .none⟩, ⟨27, 20, .rw, .live⟩, ⟨19, 12, .rw, .live⟩, ⟨11, 0, .rw, .live⟩]⟩
def SUP_AVS_LIMIT : Fld := ⟨SUP_AVS, 31, 31⟩
def SUP_AVS_AVS_HI : Fld := ⟨SUP_AVS, 27, 20⟩
def SUP_AVS_AVS_LO : Fld := ⟨SUP_AVS, 19, 12⟩
def SUP_AVS_AVS_MIN : Fld := ⟨SUP_AVS, 11, 0⟩
/-- Table SUP-4. -/
def SUP_THERM : RegDef := ⟨0x100014, 0, 1, 0x7364,
  [⟨15, 8, .rw, .live⟩, ⟨7, 0, .rw, .live⟩]⟩
def SUP_THERM_T_TRIP : Fld := ⟨SUP_THERM, 15, 8⟩
def SUP_THERM_T_ALERT : Fld := ⟨SUP_THERM, 7, 0⟩
/-- Table SUP-5. -/
def SUP_RAIL_0 : RegDef := ⟨0x100100, 16, 9, 0x80000000,
  [⟨31, 31, .rw, .live⟩, ⟨30, 24, .rw, .live⟩, ⟨23, 16, .rw, .live⟩, ⟨11, 0, .rw, .live⟩]⟩
def SUP_RAIL_0_EN : Fld := ⟨SUP_RAIL_0, 31, 31⟩
def SUP_RAIL_0_ADDR : Fld := ⟨SUP_RAIL_0, 30, 24⟩
def SUP_RAIL_0_PAGE : Fld := ⟨SUP_RAIL_0, 23, 16⟩
def SUP_RAIL_0_VNOM : Fld := ⟨SUP_RAIL_0, 11, 0⟩
/-- Table SUP-5. -/
def SUP_RAIL_1 : RegDef := ⟨0x100104, 16, 9, 0x0,
  [⟨31, 16, .rw, .live⟩, ⟨15, 0, .rw, .live⟩]⟩
def SUP_RAIL_1_WHI : Fld := ⟨SUP_RAIL_1, 31, 16⟩
def SUP_RAIL_1_WLO : Fld := ⟨SUP_RAIL_1, 15, 0⟩
/-- Table SUP-5. -/
def SUP_RAIL_2 : RegDef := ⟨0x100108, 16, 9, 0x0,
  [⟨31, 16, .ro, .none⟩, ⟨15, 0, .ro, .none⟩]⟩
def SUP_RAIL_2_VOUT : Fld := ⟨SUP_RAIL_2, 31, 16⟩
def SUP_RAIL_2_IOUT : Fld := ⟨SUP_RAIL_2, 15, 0⟩
/-- Table SUP-5. -/
def SUP_RAIL_3 : RegDef := ⟨0x10010C, 16, 9, 0x0,
  [⟨15, 0, .ro, .none⟩]⟩
def SUP_RAIL_3_STATUS : Fld := ⟨SUP_RAIL_3, 15, 0⟩
/-- Table SUP-6. -/
def HKA_CTL : RegDef := ⟨0x140000, 0, 1, 0x0,
  [⟨31, 31, .wo, .live⟩, ⟨30, 30, .wo, .live⟩, ⟨29, 29, .rw, .live⟩, ⟨5, 0, .rw, .live⟩]⟩
def HKA_CTL_GO : Fld := ⟨HKA_CTL, 31, 31⟩
def HKA_CTL_CAL : Fld := ⟨HKA_CTL, 30, 30⟩
def HKA_CTL_REPEAT : Fld := ⟨HKA_CTL, 29, 29⟩
def HKA_CTL_LEN : Fld := ⟨HKA_CTL, 5, 0⟩
/-- Table SUP-6. -/
def HKA_STAT : RegDef := ⟨0x140004, 0, 1, 0x0,
  [⟨31, 30, .ro, .none⟩, ⟨29, 29, .ro, .none⟩, ⟨28, 24, .ro, .none⟩, ⟨23, 12, .rc, .none⟩, ⟨11, 0, .rc, .none⟩]⟩
def HKA_STAT_STATE : Fld := ⟨HKA_STAT, 31, 30⟩
def HKA_STAT_CALDONE : Fld := ⟨HKA_STAT, 29, 29⟩
def HKA_STAT_ENTRY : Fld := ⟨HKA_STAT, 28, 24⟩
def HKA_STAT_MERGED : Fld := ⟨HKA_STAT, 23, 12⟩
def HKA_STAT_GLITCH : Fld := ⟨HKA_STAT, 11, 0⟩
/-- Table SUP-7. -/
def HKA_CAL : RegDef := ⟨0x140010, 4, 4, 0x40000000,
  [⟨31, 16, .rw, .live⟩, ⟨15, 0, .rw, .live⟩]⟩
def HKA_CAL_GAIN : Fld := ⟨HKA_CAL, 31, 16⟩
def HKA_CAL_OFFSET : Fld := ⟨HKA_CAL, 15, 0⟩
/-- Table SUP-7. -/
def HKA_SEQ : RegDef := ⟨0x140100, 4, 32, 0x0,
  [⟨18, 16, .rw, .live⟩, ⟨15, 0, .rw, .live⟩]⟩
def HKA_SEQ_AVG : Fld := ⟨HKA_SEQ, 18, 16⟩
def HKA_SEQ_IN : Fld := ⟨HKA_SEQ, 15, 0⟩
/-- Table SUP-7. -/
def HKA_RES : RegDef := ⟨0x140200, 4, 64, 0x0,
  [⟨31, 31, .rc, .none⟩, ⟨11, 0, .ro, .none⟩]⟩
def HKA_RES_FRESH : Fld := ⟨HKA_RES, 31, 31⟩
def HKA_RES_CODE : Fld := ⟨HKA_RES, 11, 0⟩
/-- Table SUP-7. -/
def HKA_URG : RegDef := ⟨0x140300, 4, 4, 0x0,
  [⟨27, 16, .ro, .none⟩, ⟨11, 0, .ro, .none⟩]⟩
def HKA_URG_S3 : Fld := ⟨HKA_URG, 27, 16⟩
def HKA_URG_S2 : Fld := ⟨HKA_URG, 11, 0⟩
/-- Table STA-6. -/
def NVM_XSPI : RegDef := ⟨0x280000, 0, 1, 0xC8,
  [⟨7, 0, .rw, .live⟩]⟩
def NVM_XSPI_FMAX : Fld := ⟨NVM_XSPI, 7, 0⟩
/-- Table STA-6. -/
def NVM_SWITCH : RegDef := ⟨0x280004, 0, 1, 0x4,
  [⟨7, 0, .rw, .live⟩]⟩
def NVM_SWITCH_DRAIN_MAX : Fld := ⟨NVM_SWITCH, 7, 0⟩
/-- Table STA-7. -/
def NVM_STAT : RegDef := ⟨0x280008, 0, 1, 0x0,
  [⟨31, 30, .ro, .none⟩, ⟨29, 28, .ro, .none⟩, ⟨27, 27, .ro, .none⟩, ⟨26, 26, .ro, .none⟩, ⟨25, 25, .ro, .none⟩, ⟨24, 24, .ro, .none⟩, ⟨23, 23, .ro, .none⟩, ⟨22, 20, .ro, .none⟩, ⟨19, 16, .ro, .none⟩, ⟨2, 0, .ro, .none⟩]⟩
def NVM_STAT_PORTA : Fld := ⟨NVM_STAT, 31, 30⟩
def NVM_STAT_PORTB : Fld := ⟨NVM_STAT, 29, 28⟩
def NVM_STAT_BOOTPORT : Fld := ⟨NVM_STAT, 27, 27⟩
def NVM_STAT_BOOTSLOT : Fld := ⟨NVM_STAT, 26, 26⟩
def NVM_STAT_FUSED : Fld := ⟨NVM_STAT, 25, 25⟩
def NVM_STAT_SPLIT : Fld := ⟨NVM_STAT, 24, 24⟩
def NVM_STAT_BARE : Fld := ⟨NVM_STAT, 23, 23⟩
def NVM_STAT_REPLAY : Fld := ⟨NVM_STAT, 22, 20⟩
def NVM_STAT_PROF : Fld := ⟨NVM_STAT, 19, 16⟩
def NVM_STAT_PSEL : Fld := ⟨NVM_STAT, 2, 0⟩
/-- Table STA-8. -/
def NVM_BOOT : RegDef := ⟨0x28000C, 0, 1, 0x0,
  [⟨31, 28, .ro, .none⟩, ⟨15, 0, .ro, .none⟩]⟩
def NVM_BOOT_STAGE : Fld := ⟨NVM_BOOT, 31, 28⟩
def NVM_BOOT_MS : Fld := ⟨NVM_BOOT, 15, 0⟩
/-- Table STA-8. -/
def NVM_SEQ : RegDef := ⟨0x280010, 0, 1, 0x0,
  [⟨31, 0, .ro, .none⟩]⟩
/-- Table STA-8. -/
def NVM_REPLAY : RegDef := ⟨0x280014, 0, 1, 0x0,
  [⟨31, 16, .ro, .none⟩, ⟨15, 0, .ro, .none⟩]⟩
def NVM_REPLAY_STATUS : Fld := ⟨NVM_REPLAY, 31, 16⟩
def NVM_REPLAY_FRAME : Fld := ⟨NVM_REPLAY, 15, 0⟩
/-- Table EXY-4. -/
def DEV_MBX_CTL : RegDef := ⟨0x18000, 0, 1, 0x0,
  [⟨31, 31, .wo, .live⟩, ⟨30, 30, .ro, .none⟩, ⟨29, 29, .w1c, .none⟩, ⟨28, 28, .w1c, .none⟩, ⟨27, 27, .w1c, .none⟩]⟩
def DEV_MBX_CTL_REQ_GO : Fld := ⟨DEV_MBX_CTL, 31, 31⟩
def DEV_MBX_CTL_BUSY : Fld := ⟨DEV_MBX_CTL, 30, 30⟩
def DEV_MBX_CTL_RSP_VALID : Fld := ⟨DEV_MBX_CTL, 29, 29⟩
def DEV_MBX_CTL_EVT_VALID : Fld := ⟨DEV_MBX_CTL, 28, 28⟩
def DEV_MBX_CTL_OVR : Fld := ⟨DEV_MBX_CTL, 27, 27⟩
/-- Table EXY-4. -/
def DEV_MBX_REQ : RegDef := ⟨0x10000, 4, 4096, 0x0,
  [⟨31, 0, .rw, .live⟩]⟩
/-- Table EXY-4. -/
def DEV_MBX_RSP : RegDef := ⟨0x14000, 4, 4096, 0x0,
  [⟨31, 0, .ro, .none⟩]⟩
/-- Table EXY-4. -/
def DEV_MBX_EVT : RegDef := ⟨0x1C000, 4, 2048, 0x0,
  [⟨31, 0, .ro, .none⟩]⟩
/-- Table REG-2. -/
def DEV_ID : RegDef := ⟨0x0, 0, 1, 0x40960B1E,
  [⟨31, 16, .ro, .none⟩, ⟨15, 0, .ro, .none⟩]⟩
def DEV_ID_PART : Fld := ⟨DEV_ID, 31, 16⟩
def DEV_ID_FAMILY : Fld := ⟨DEV_ID, 15, 0⟩
/-- Table REG-2. -/
def DEV_REV : RegDef := ⟨0x4, 0, 1, 0xA0000100,
  [⟨31, 24, .ro, .none⟩, ⟨15, 8, .ro, .none⟩, ⟨0, 0, .ro, .none⟩]⟩
def DEV_REV_STEPPING : Fld := ⟨DEV_REV, 31, 24⟩
def DEV_REV_PKG : Fld := ⟨DEV_REV, 15, 8⟩
def DEV_REV_LID : Fld := ⟨DEV_REV, 0, 0⟩
/-- Table REG-2. -/
def DEV_FWVER : RegDef := ⟨0x8, 0, 1, 0x1000000,
  [⟨31, 24, .ro, .none⟩, ⟨23, 16, .ro, .none⟩, ⟨15, 0, .ro, .none⟩]⟩
def DEV_FWVER_MAJOR : Fld := ⟨DEV_FWVER, 31, 24⟩
def DEV_FWVER_MINOR : Fld := ⟨DEV_FWVER, 23, 16⟩
def DEV_FWVER_BUILD : Fld := ⟨DEV_FWVER, 15, 0⟩
/-- Table REG-2. -/
def DEV_HALF : RegDef := ⟨0xC, 0, 1, 0x0,
  [⟨15, 12, .ro, .none⟩, ⟨9, 8, .ro, .none⟩, ⟨0, 0, .ro, .none⟩]⟩
def DEV_HALF_ORD : Fld := ⟨DEV_HALF, 15, 12⟩
def DEV_HALF_ROLE : Fld := ⟨DEV_HALF, 9, 8⟩
def DEV_HALF_HALF : Fld := ⟨DEV_HALF, 0, 0⟩
/-- Table REG-3. -/
def DEV_SERIAL_LO : RegDef := ⟨0x10, 0, 1, 0x0,
  [⟨31, 0, .ro, .none⟩]⟩
/-- Table REG-3. -/
def DEV_SERIAL_HI : RegDef := ⟨0x14, 0, 1, 0x0,
  [⟨31, 0, .ro, .none⟩]⟩
/-- Table REG-3. -/
def DEV_MAC_LO : RegDef := ⟨0x18, 0, 1, 0x0,
  [⟨31, 0, .ro, .none⟩]⟩
/-- Table REG-3. -/
def DEV_MAC_HI : RegDef := ⟨0x1C, 0, 1, 0x0,
  [⟨15, 0, .ro, .none⟩]⟩
def DEV_MAC_HI_MAC_HI : Fld := ⟨DEV_MAC_HI, 15, 0⟩
/-- Table REG-3. -/
def DEV_STATE : RegDef := ⟨0x20, 0, 1, 0x0,
  [⟨31, 31, .ro, .none⟩, ⟨30, 30, .ro, .none⟩, ⟨27, 26, .ro, .none⟩, ⟨25, 24, .ro, .none⟩, ⟨15, 0, .ro, .none⟩]⟩
def DEV_STATE_PRIMARY : Fld := ⟨DEV_STATE, 31, 31⟩
def DEV_STATE_VALID : Fld := ⟨DEV_STATE, 30, 30⟩
def DEV_STATE_NORTH : Fld := ⟨DEV_STATE, 27, 26⟩
def DEV_STATE_SOUTH : Fld := ⟨DEV_STATE, 25, 24⟩
def DEV_STATE_GEN : Fld := ⟨DEV_STATE, 15, 0⟩
/-- Table REG-3. -/
def DEV_SCRATCH : RegDef := ⟨0x24, 0, 1, 0x0,
  [⟨31, 0, .rw, .live⟩]⟩
/-- Table ERR-6. -/
def ERR_HEAD_0 : RegDef := ⟨0x240000, 0, 1, 0x0,
  [⟨31, 16, .ro, .none⟩, ⟨15, 0, .ro, .none⟩]⟩
def ERR_HEAD_0_CODE : Fld := ⟨ERR_HEAD_0, 31, 16⟩
def ERR_HEAD_0_INST : Fld := ⟨ERR_HEAD_0, 15, 0⟩
/-- Table ERR-6. -/
def ERR_HEAD_1 : RegDef := ⟨0x240004, 0, 1, 0x0,
  [⟨31, 0, .ro, .none⟩]⟩
/-- Table ERR-6. -/
def ERR_HEAD_2 : RegDef := ⟨0x240008, 0, 1, 0x0,
  [⟨31, 31, .ro, .none⟩, ⟨30, 16, .ro, .none⟩, ⟨15, 0, .ro, .none⟩]⟩
def ERR_HEAD_2_HANDLED : Fld := ⟨ERR_HEAD_2, 31, 31⟩
def ERR_HEAD_2_COUNT : Fld := ⟨ERR_HEAD_2, 30, 16⟩
def ERR_HEAD_2_FRAME_HI : Fld := ⟨ERR_HEAD_2, 15, 0⟩
/-- Table ERR-6. -/
def ERR_HEAD_3 : RegDef := ⟨0x24000C, 0, 1, 0x0,
  [⟨31, 0, .ro, .none⟩]⟩
/-- Table ERR-7. -/
def ERR_CTL : RegDef := ⟨0x240010, 0, 1, 0x0,
  [⟨1, 1, .wo, .live⟩, ⟨0, 0, .wo, .live⟩]⟩
def ERR_CTL_CLEAR : Fld := ⟨ERR_CTL, 1, 1⟩
def ERR_CTL_POP : Fld := ⟨ERR_CTL, 0, 0⟩
/-- Table ERR-7. -/
def ERR_STAT : RegDef := ⟨0x240014, 0, 1, 0x0,
  [⟨31, 16, .rc, .none⟩, ⟨15, 12, .ro, .none⟩, ⟨6, 0, .ro, .none⟩]⟩
def ERR_STAT_OVERFLOW : Fld := ⟨ERR_STAT, 31, 16⟩
def ERR_STAT_PRESENT : Fld := ⟨ERR_STAT, 15, 12⟩
def ERR_STAT_COUNT : Fld := ⟨ERR_STAT, 6, 0⟩
/-- Table ERR-7. -/
def ERR_SUPPR : RegDef := ⟨0x240018, 0, 1, 0x0,
  [⟨31, 0, .rc, .none⟩]⟩

/-- The registers of block DEV. -/
def regsDEV : List RegDef :=
  [DEV_FRM_CFG, DEV_SHDW_CTL, DEV_FRM_IDX_LO, DEV_FRM_IDX_HI, DEV_OVR_STAT, DEV_LATE_CNT, DEV_SUBARR_ACT, DEV_QUOTA_USE_0, DEV_QUOTA_USE_1, DEV_QUOTA_USE_2, DEV_QUOTA_USE_3, DEV_MBX_CTL, DEV_MBX_REQ, DEV_MBX_RSP, DEV_MBX_EVT, DEV_ID, DEV_REV, DEV_FWVER, DEV_HALF, DEV_SERIAL_LO, DEV_SERIAL_HI, DEV_MAC_LO, DEV_MAC_HI, DEV_STATE, DEV_SCRATCH]
/-- The registers of block ING. -/
def regsING : List RegDef :=
  [ING_CTL, ING_MAC_LO, ING_MAC_HI, ING_ETH_CFG, ING_LOCK, ING_LANE_CFG, ING_LANE_CNT_0, ING_LANE_CNT_1, ING_LANE_CNT_2, ING_LANE_CNT_3, ING_LANE_CNT_4, ING_LANE_CNT_5, ING_LANE_CNT_6, ING_LANE_CNT_7, ING_FDLY, ING_SKEW, ING_POS_SRC_0, ING_POS_SRC_1]
/-- The registers of block CHN. -/
def regsCHN : List RegDef :=
  [CHN_CTL, CHN_CFG, CHN_SCALE, CHN_COEF_ADDR, CHN_COEF_DATA, CHN_PWR_CFG, CHN_PWR_BAND, CHN_PWR_THR, CHN_SK_THR, CHN_OVF_STAT, CHN_MASK, CHN_INPUT_CFG, CHN_STAT_0, CHN_STAT_1, CHN_STAT_2, CHN_STAT_3, CHN_PWR_MEAN]
/-- The registers of block DLY. -/
def regsDLY : List RegDef :=
  [DLY_CTL, DLY_RQ_CFG, DLY_EARLY_CNT, DLY_RDPTR_LO, DLY_RDPTR_HI, DLY_GAIN_ADDR, DLY_GAIN_DATA, DLY_MODEL_0, DLY_MODEL_1, DLY_MODEL_2, DLY_MODEL_3, DLY_MODEL_4, DLY_MODEL_5, DLY_MODEL_6, DLY_MODEL_7, DLY_MODEL_8, DLY_MODEL_9, DLY_MODEL_10, DLY_MODEL_11, DLY_MODEL_12, DLY_INPUT_CFG, DLY_STATE_0, DLY_STATE_1, DLY_STATE_2, DLY_STATE_3, DLY_RQ_STAT_0, DLY_RQ_STAT_1, DLY_RQ_STAT_2, DLY_RQ_STAT_3]
/-- The registers of block XCH. -/
def regsXCH : List RegDef :=
  [XCH_CTL, XCH_CFG, XCH_PLAZA_ID, XCH_WIN, XCH_CT_MISS, XCH_LANE_CFG, XCH_LINK_STAT_0, XCH_LINK_STAT_1, XCH_LINK_STAT_2, XCH_LINK_STAT_3, XCH_LINK_STAT_4, XCH_LINK_STAT_5, XCH_LINK_STAT_6, XCH_LINK_STAT_7]
/-- The registers of block ARC. -/
def regsARC : List RegDef :=
  [ARC_CTL, ARC_STAT, ARC_STALL, ARC_USE, ARC_BADOP, ARC_DBG, ARC_PROG_ADDR, ARC_PROG_DATA, ARC_SUB_PROG, ARC_SUB_BANK, ARC_BAY_STAT]
/-- The registers of block CY. -/
def regsCY : List RegDef :=
  [CY_STAGE, CY_BHAND, CY_TABLE, CY_ECC, CY_INFO_ADDR, CY_INFO_DATA, CY_WIN_SLOT, CY_SUSPECT, CY_WIN]
/-- The registers of block TAL. -/
def regsTAL : List RegDef :=
  [TAL_CTL, TAL_SPILL_BASE, TAL_SPILL_CFG, TAL_MIN, TAL_MIN_LOC, TAL_ZERO, TAL_STAT]
/-- The registers of block LTA. -/
def regsLTA : List RegDef :=
  [LTA_CTL, LTA_OUT_BASE, LTA_OUT_SIZE, LTA_STAT, LTA_FOLDED, LTA_OUT_USE, LTA_VIS_0, LTA_VIS_1, LTA_VIS_2, LTA_VIS_3, LTA_VIS_4, LTA_VIS_5, LTA_VIS_6, LTA_VIS_7]
/-- The registers of block BMF. -/
def regsBMF : List RegDef :=
  [BMF_CTL, BMF_TADDR, BMF_TDATA, BMF_TAB_0, BMF_TAB_1, BMF_TAB_2, BMF_TAB_3, BMF_SADDR, BMF_SDATA, BMF_CNT_0, BMF_CNT_1, BMF_CNT_2, BMF_CNT_3, BMF_DSTATE, BMF_PROD_0, BMF_PROD_1, BMF_PROD_2, BMF_PROD_3, BMF_PROD_4, BMF_PROD_5, BMF_PROD_6]
/-- The registers of block CAP. -/
def regsCAP : List RegDef :=
  [CAP_CTL, CAP_FEED_0, CAP_FEED_1, CAP_FEED_2, CAP_FEED_3, CAP_FEED_4, CAP_FEED_5, CAP_FEED_6, CAP_FEED_7, CAP_FEED_8, CAP_FEED_9, CAP_FEED_10, CAP_CMD, CAP_FSTAT_0, CAP_FSTAT_1, CAP_FSTAT_2, CAP_FSTAT_3, CAP_FSTAT_4, CAP_FSTAT_5, CAP_FSTAT_6, CAP_FSTAT_7]
/-- The registers of block TRW. -/
def regsTRW : List RegDef :=
  [TRW_CTL, TRW_CTX_BASE, TRW_DOORBELL, TRW_RING_CMD, TRW_CTX_SEL, TRW_CTX_DATA, TRW_STAT_0, TRW_STAT_1, TRW_STAT_2, TRW_STAT_3]
/-- The registers of block OUT. -/
def regsOUT : List RegDef :=
  [OUT_CTL, OUT_MAP, OUT_PORT_0, OUT_PORT_1, OUT_PORT_2, OUT_PORT_3, OUT_PORT_4, OUT_PORT_5, OUT_PORT_6, OUT_LANE_STAT_0, OUT_LANE_STAT_1, OUT_LANE_STAT_2, OUT_LANE_STAT_3]
/-- The registers of block LAN. -/
def regsLAN : List RegDef :=
  [LAN_UP, LAN_UP_HI, LAN_CFG, LAN_TIME, LAN_DEG, LAN_UNC, LAN_TEST, LAN_INJ, LAN_STAT, LAN_COEF, LAN_CNT_8, LAN_CNT_9, LAN_CNT_10, LAN_CNT_11, LAN_CNT_12, LAN_CNT_13, LAN_CNT_14, LAN_CNT_15]
/-- The registers of block HBM. -/
def regsHBM : List RegDef :=
  [HBM_CTL, HBM_RH_CFG, HBM_ECC_CFG, HBM_THERM, HBM_ERR_ADDR_LO, HBM_ERR_ADDR_HI, HBM_FENCED, HBM_TEMP, HBM_REGION_0, HBM_REGION_1, HBM_REGION_2, HBM_REGION_3, HBM_REGION_4, HBM_REGION_5, HBM_PC_0, HBM_PC_1, HBM_PC_2, HBM_PC_3, HBM_PC_4, HBM_PC_5, HBM_PC_6, HBM_PC_7]
/-- The registers of block RDB. -/
def regsRDB : List RegDef :=
  [RDB_QOS, RDB_PARK, RDB_CFG, RDB_STAT, RDB_BRIDGE_CNT, RDB_TMO_ADDR_LO, RDB_TMO_ADDR_HI, RDB_INFLIGHT]
/-- The registers of block TMG. -/
def regsTMG : List RegDef :=
  [TMG_CTL, TMG_STAT, TMG_FS, TMG_EPOCH_LO, TMG_EPOCH_HI, TMG_SLEW, TMG_QUAL, TMG_LOCK, TMG_DIS_THR, HO_THR, HO_Y, HO_Q, HO_TE, TMG_DAC_CFG, TMG_DAC_GAIN, TMG_DAC_INIT, TMG_DAC_CODE, TMG_TIME_LO, TMG_TIME_HI, TMG_TIME_FR, TMG_TSET_0, TMG_TSET_1, TMG_OUT, TMG_PTP_CFG, TMG_SKEW_LO, TMG_SKEW_HI, TMG_CHK, TMG_CHK_STAT, TMG_CHK_MASK, TMG_REF_PH, TMG_REF_0, TMG_REF_1, TMG_REF_2, TMG_REF_3, TMG_REF_4, TMG_REF_5, TMG_REF_6, TMG_REF_7]
/-- The registers of block LSE. -/
def regsLSE : List RegDef :=
  [LSE_CTL, LSE_WD, LSE_STAT, LSE_EPOCH, LSE_FENCE, LSE_PEER, LSE_HB_CNT, LSE_SW_CNT, LSE_DREC]
/-- The registers of block EVC. -/
def regsEVC : List RegDef :=
  [EVC_CTL, EVC_STAT, EVC_SWSET, EVC_ENABLE, EVC_PENDING, EVC_KIND, EVC_HOLD, EVC_TGT_0, EVC_TGT_1, EVC_TGT_2, EVC_TGT_3, EVC_TGT_4, EVC_TGT_5, EVC_TGT_6, EVC_TGT_7, EVC_HV, MSIX_0, MSIX_1, MSIX_2, MSIX_3, MSIX_PBA]
/-- The registers of block SUP. -/
def regsSUP : List RegDef :=
  [SUP_CTL, SUP_STAT, SUP_FEED, SUP_BO, SUP_AVS, SUP_THERM, SUP_RAIL_0, SUP_RAIL_1, SUP_RAIL_2, SUP_RAIL_3]
/-- The registers of block HKA. -/
def regsHKA : List RegDef :=
  [HKA_CTL, HKA_STAT, HKA_CAL, HKA_SEQ, HKA_RES, HKA_URG]
/-- The registers of block NVM. -/
def regsNVM : List RegDef :=
  [NVM_XSPI, NVM_SWITCH, NVM_STAT, NVM_BOOT, NVM_SEQ, NVM_REPLAY]
/-- The registers of block ERR. -/
def regsERR : List RegDef :=
  [ERR_HEAD_0, ERR_HEAD_1, ERR_HEAD_2, ERR_HEAD_3, ERR_CTL, ERR_STAT, ERR_SUPPR]

/-- Every register of a window (Table REG-4). -/
def allRegs : List RegDef :=
  regsDEV ++ regsING ++ regsCHN ++ regsDLY ++ regsXCH ++ regsARC ++ regsCY ++ regsTAL ++ regsLTA ++ regsBMF ++ regsCAP ++ regsTRW ++ regsOUT ++ regsLAN ++ regsHBM ++ regsRDB ++ regsTMG ++ regsLSE ++ regsEVC ++ regsSUP ++ regsHKA ++ regsNVM ++ regsERR

end Sys2Proof.Machine
end

