-- ==== Sys2Proof/Config.lean ====
section
/-! DEFINITION. What one part fixes and the spec leaves open: fused values, the choices of the
resident firmware that the spec does not lay down, and free values. Each is an opaque constant, so
that no proof can see what it is. -/

namespace Sys2Proof.Config

/-- Fused serial number (Table REG-3). -/
opaque serial : BitVec 64

/-- Fused MAC address of the north management port, first octet in bits 47:40 (Table REG-3). -/
opaque macNorth : BitVec 48

/-- Fused lid bit of DEV_REV (Table REG-2). -/
opaque lid : Bool

/-- The fused hash of the image key (R385); all zero bytes while unfused. -/
opaque keyHash : Nat

/-- The fused start value of VDD_ARC, an offset above 650 mV that Table SUP-1 bounds to 150. -/
opaque vddArcStep : Fin 151

/-- The fused reference code of each housekeeping converter (R375). -/
opaque fusedRefCode : Fin 4 → BitVec 12

/-- How a ring's engine state reads in bytes 96 to 127 of its context (Table TRW-3), which the spec does not lay out: the
word of an index, from tokens, running CRC, deficit and cap. -/
opaque engineWord : Int → Nat → Nat → Option Nat → Nat → Word

/-- TAG and NOTIFY of the descriptors that hardware producers append (R239), which the spec does not give: by ring and
descriptor number. -/
opaque producerTag : Nat → Nat → Word
opaque producerNotify : Nat → Nat → Bool

/-- What an engine takes a descriptor's control word for whose bytes hold an uncorrectable word (R235), by its address and the word as last
written. -/
opaque eccControl : Nat → Nat → Nat

/-- What an int16 lane of a cell holds after a sum outside its range (R136), by the exact sum. Only a RESTORE can bring a lane there. -/
opaque laneOverflow : Int → BitVec 16

/-- What a hand-off word holds of a beam sum outside int24 (R203), by the exact sum. Only a RESTORE can bring a beam cell there. -/
opaque handOverflow : Int → BitVec 24

/-- What a preset of training other than preset 1 sets LAN_COEF to in a lane mode, by mode and preset: IEEE 802.3, which the spec
names and does not hold, gives the taps (R265). None: a preset that the standard does not have. -/
opaque tapPreset : Nat → Nat → Option (BitVec 30)

/-- Lowest and highest step index of a tap in a lane mode (R265: the limits of IEEE 802.3, which the spec does not hold). -/
opaque tapLimit : Nat → Nat → Int × Int

/-- One less than the banks of a pseudo-channel over all bank groups and stack identifiers (R274), which the spec does not
give. -/
opaque hbmBanks : Nat

/-- A free value: the n-th value that the spec leaves open in a run. -/
opaque freeValue : Nat → Nat

end Sys2Proof.Config
end

