-- ==== Sys2Proof/Machine/Map.lean ====
section
/-! DEFINITION. Sparse tables: lists of (key, value) pairs with keys strictly rising. Registers,
memories and the per-index stores of the block are held so; `wf` is the canonical form. -/

namespace Sys2Proof.Machine

/-- A sparse table from natural keys. -/
abbrev SMap (α : Type) := List (Nat × α)

/-- The value listed at `k`. -/
def SMap.find? {α : Type} : SMap α → Nat → Option α
  | [], _ => none
  | (k', v) :: m, k => if k = k' then some v else SMap.find? m k

/-- The value at `k`, `d` where none is listed. -/
def SMap.getD {α : Type} (m : SMap α) (k : Nat) (d : α) : α := (SMap.find? m k).getD d

/-- List `v` at `k`, in key order. -/
def SMap.insert {α : Type} : SMap α → Nat → α → SMap α
  | [], k, v => [(k, v)]
  | (k', w) :: m, k, v =>
    if k < k' then (k, v) :: (k', w) :: m
    else if k = k' then (k, v) :: m
    else (k', w) :: SMap.insert m k v

/-- Remove the entry at `k`. -/
def SMap.erase {α : Type} (m : SMap α) (k : Nat) : SMap α := m.filter (fun e => e.1 != k)

/-- Change the value at `k`, starting from `d` where none is listed. -/
def SMap.modify {α : Type} (m : SMap α) (k : Nat) (d : α) (f : α → α) : SMap α :=
  SMap.insert m k (f (SMap.getD m k d))

/-- List `v` at `k`, or nothing where `v` is what an unlisted key reads as. -/
def SMap.put {α : Type} [DecidableEq α] (d : α) (m : SMap α) (k : Nat) (v : α) : SMap α :=
  if v = d then SMap.erase m k else SMap.insert m k v

/-- The entries of consecutive values from key `k`, those equal to `d` left out. -/
def cellsFrom {α : Type} [DecidableEq α] (d : α) : Nat → List α → SMap α
  | _, [] => []
  | k, v :: vs => if v = d then cellsFrom d (k + 1) vs else (k, v) :: cellsFrom d (k + 1) vs

/-- Write consecutive values from key `k`. -/
def SMap.putRun {α : Type} [DecidableEq α] (d : α) (m : SMap α) (k : Nat) (vs : List α) : SMap α :=
  let top := k + vs.length
  m.filter (fun e => e.1 < k) ++ cellsFrom d k vs ++ m.filter (fun e => top ≤ e.1)

/-- `n` consecutive values from key `k`, `d` where none is listed. -/
def SMap.readRun {α : Type} (d : α) (m : SMap α) (k n : Nat) : Array α :=
  (m.filter (fun e => k ≤ e.1 && e.1 < k + n)).foldl (fun a e => a.setIfInBounds (e.1 - k) e.2) (Array.replicate n d)

/-- Keys strictly rising. -/
def SMap.sorted {α : Type} : SMap α → Bool
  | [] => true
  | [_] => true
  | a :: b :: m => a.1 < b.1 && SMap.sorted (b :: m)

/-- The canonical form: keys strictly rising, and no entry equal to what an unlisted key reads as. -/
def SMap.canon {α : Type} [DecidableEq α] (d : α) (m : SMap α) : Bool := SMap.sorted m && m.all (fun e => !decide (e.2 = d))

end Sys2Proof.Machine
end

