-- ==== Sys2Proof/Machine/State.lean ====
section
/-! DEFINITION. The state of the block as plain data: the two halves with their registers, queues,
stores and engines, the board, and the queue of waiting commands. -/

namespace Sys2Proof.Machine

/-- Why the machine stops with a fault. No meaning of this block faults: every command has an effect, or
none, by its rule. -/
inductive Fault where
  /-- Raised by no meaning; the block has no stuck state. Safe. -/
  | stuck
  deriving DecidableEq, Repr

/-- Why a command is refused. -/
inductive Refusal where
  /-- The command of this mnemonic has no meaning yet. Raised by the dispatch alone. Safe. -/
  | notModelled (mnemonic : String)
  deriving DecidableEq, Repr

/-- What a half sends, drives or returns. (DEDUCED, log 52) -/
inductive Emission where
  /-- The word a register read returned. -/
  | value (w : Word)
  /-- A block on an exchange lane. -/
  | kradel (lane : Nat) (bytes : List Byte)
  /-- A data block over the die bridge to the other half. -/
  | bridgeBlock (bytes : List Byte)
  /-- A frame on an output lane (physical lane). -/
  | outFrame (lane : Nat) (bytes : List Byte)
  /-- An Ethernet frame on the management port. -/
  | mgmtFrame (bytes : List Byte)
  /-- A UDP datagram of the management port: destination MAC, address, port and payload. -/
  | datagram (mac ip : List Byte) (port : Nat) (bytes : List Byte)
  /-- Bytes that an SMBus read returned. -/
  | smbus (bytes : List Byte)
  /-- An SMBus transfer was refused on its last byte. -/
  | smbusNack
  /-- An MSI-X message of an entry. -/
  | msix (entry : Nat)
  /-- The tick pulse and the second pulse with their widths in TCLK cycles (R322). -/
  | tickOut (k width : Nat)
  | ppsOut (sec width : Nat)
  /-- An oscillator DAC frame: its bits, as a number of `len` bits, first bit highest (R321). -/
  | dacFrame (len value : Nat)
  /-- Lease messages on a path. -/
  | heartbeat (path : HbPath) (hb : Heartbeat)
  | relinquish (path : HbPath)
  | leaseQuery (path : HbPath)
  | leaseAnswer (path : HbPath) (epoch role : Nat)
  /-- A PMBus command for a rail: command name code and data. -/
  | pmbus (rail cmd data : Nat)
  /-- A flash operation on a port: 0 erase, 1 program, 2 read back, with its offset and bytes. -/
  | flashOp (port kind offset : Nat) (bytes : List Byte)
  /-- A response that a master port hands to its unit, tagged with the transaction's ID (R296), with its data and whether it was poisoned
  or in error. -/
  | completion (master id : Nat) (data : List Byte) (poisoned error : Bool)
  /-- Memory maintenance of a bank: 0 refresh, 1 RFM. -/
  | bankOp (pc bank kind : Nat)
  /-- A serial lane's transmitter takes up what its state of Table LAN-5 sends. -/
  | laneState (lane : Nat) (code : Nat)
  /-- The error injector changes a lane's outgoing stream: TYPE and burst length (R270). -/
  | injection (lane type len : Nat)
  /-- A lane management block on a serial lane (Table LAN-4). -/
  | lmBlock (lane : Nat) (bytes : List Byte)
  /-- A transmitter's answer to a request of training (R265): 0 UPDATED, 1 AT_LIMIT, 2 NOT_SUPPORTED. -/
  | tapAnswer (lane code : Nat)
  deriving DecidableEq, Repr

/-- An error record (Table ERR-3). `id` tells one instance from a later one of the same code (R435). -/
structure ErrRec where
  id : Nat
  inst : Nat
  code : Nat
  frame : Nat
  count : Nat
  handled : Bool
  info : Nat
  deriving DecidableEq, Repr

/-- The error record queue of a half (R430, R431): records oldest first, the (code, instance) pairs
created in this tick interval, and the record latched by ERR_HEAD. -/
structure ErrQueue where
  recs : List ErrRec
  created : List (Nat × Nat)
  nextId : Nat
  latched : Option Nat
  deriving DecidableEq, Repr

/-- A target of the event controller (R346 to R357): the offer that stands, the source in service, a
core's sleep. -/
structure Tgt where
  offer : Option Nat
  insvc : Option Nat
  sleep : Bool
  deriving DecidableEq, Repr

/-- The event controller beside its registers: targets 0 to 11, groups whose hold-off runs, the MSI-X
function mask. -/
structure Evc where
  tgts : List Tgt
  holdOff : List Nat
  fnMask : Bool
  deriving DecidableEq, Repr

/-- One feed of an island (R362, R363): consecutive samples over current and over voltage, consecutive
good samples towards the end of a FAULT, and consecutive samples towards preference. -/
structure Feed where
  overI : Nat
  overV : Nat
  okRun : Nat
  retRun : Nat
  fault : Bool
  /-- the diode of this feed is held off -/
  heldOff : Bool
  deriving DecidableEq, Repr

/-- What the rail sequencer does (R366). -/
inductive SeqState where
  | idle
  | up (rail : Nat)
  | down (rail : Nat)
  | retryWait
  deriving DecidableEq, Repr

/-- The supervisory island beside its registers: what survives reset of the main domain. -/
structure Island where
  powered : Bool
  ready : Bool
  /-- listening after power-up (R334), and what was heard -/
  listening : Bool
  heardAny : Bool
  heardPrimary : Bool
  /-- sequence numbers: last sent, last received, highest echoed -/
  hbSeq : Nat
  hbIn : Nat
  hbEchoed : Nat
  /-- the guard of R330 runs -/
  guard : Bool
  /-- ALIVE deasserted after an UNSURE interval without answer (R335) -/
  aliveOff : Bool
  /-- the role before an UNSURE interval -/
  roleKept : Nat
  /-- the new primary takes up the device record (R339) -/
  takingUp : Bool
  /-- a device-time copy since the last heartbeat, and a verified image on its port (R337) -/
  copyFresh : Bool
  imageOk : Bool
  /-- a class F error: only RESET_N or power-up restarts (R432) -/
  fatalF : Bool
  /-- a thermal trip holds the half DOWN (R377) -/
  tripped : Bool
  seq : SeqState
  retries : Nat
  /-- what follows once the rails are down: 0 nothing, 1 a retry, 2 a restart -/
  downThen : Nat
  /-- the wait of BO_HOLD runs -/
  boWait : Bool
  /-- the restart takes the schedule from the primary instead of the profile (R381) -/
  rejoin : Bool
  feedA : Feed
  feedB : Feed
  /-- the preferred feed is held preferred -/
  prefGood : Bool
  /-- the rail under an urgent burst, and the converter state that it pre-empted (R373) -/
  urgentRail : Option Nat
  hkaPrev : Nat
  /-- VDD_ARC command in mV, and the command before the last change while the window is their union -/
  vddArc : Nat
  vddPrev : Nat
  smbAddr : Nat
  smbAsm : List Byte
  smbFrame : Option (List Byte)
  smbReply : List Byte
  deriving DecidableEq, Repr

/-- An accepted sample-stream frame (R52): first counter, S_f, the first counter not already closed, whether its
samples are valid, and its payload. -/
structure Ssf where
  counter : Nat
  len : Nat
  lo : Nat
  valid : Bool
  payload : List Byte
  deriving DecidableEq, Repr

/-- An open gap of an Ethernet-mode input (R60): its counters and the frames accepted beyond it. -/
structure Gap where
  lo : Nat
  hi : Nat
  beyond : Nat
  deriving DecidableEq, Repr

/-- A spectrum formed and not yet written to the store: flag record bits known at once (Table CHN-2), raw power flag
(0 none, 1 high, 2 low), the values Y for SK, the codes, y-frame, spectrum advance, front delay applied, D_int,
and whether the store may take it (R106). -/
structure Spec where
  flags : Nat
  raw : Nat
  y : List (Int × Int)
  codes : List Nat
  yframe : Nat
  ns : Int
  fdly : Nat
  dint : Int
  storable : Bool
  /-- CHN_SK_THR and CHN_INPUT_CFG in effect for it -/
  skThr : Nat
  cfg : Nat
  deriving DecidableEq, Repr

/-- One input of a half through ingest, front delay, channelizer, flagger, phaser and requantiser (R58, R60, R66, R81, R98). -/
structure Inp where
  /-- counter at which the stream was opened (R60) -/
  opened : Option Nat
  /-- counters below are accepted or closed; the highest accepted plus one in this stream -/
  frontier : Nat
  top : Nat
  gaps : List Gap
  ssfs : SMap Ssf
  /-- highest counter accepted since reset, plus one (R58) -/
  nmax : Option Nat
  /-- an SSF was accepted in this tick interval -/
  got : Bool
  /-- front delay of each output block in use (R62) -/
  fdly : SMap Nat
  /-- the last spectrum formed, and the frontier when CHN stopped (R87) -/
  last : Option Nat
  stopFrontier : Nat
  specs : SMap Spec
  /-- raw power flags of recent spectra (R80) -/
  raw : SMap Nat
  /-- deferred flag records per spectrum and SK bits (flagged channels) per block, once decided (R79) -/
  deferred : SMap Nat
  sk : SMap (List Nat)
  /-- running mean (R81) as a count of 2^-149, warm-up, spectra and exact power summed in it, consecutive raw flags -/
  mu : Int
  warm : Bool
  warmCnt : Nat
  warmSum : Nat
  rawRun : Nat
  /-- sums of the y-frame in progress (R101) -/
  rqFrame : Nat
  rqPow : Nat
  rqValid : Nat
  /-- y-frame whose FDLY_DIFF was looked at, and the last y-frame written with its advance (R91, R107) -/
  diffFrame : Option Nat
  written : Option (Nat × Int)
  deriving DecidableEq, Repr

/-- The front end of a half beside its registers. -/
structure Front where
  inputs : SMap Inp
  /-- logical lanes that were enabled at the last tick -/
  enAtTick : List Nat
  /-- the coefficient table as written (R72), bad entries of the pipes, and an uncorrectable master (R73) -/
  coef : SMap Int
  badCoef : List (Nat × Nat)
  masterBad : Bool
  /-- spectrum boundary at which CHN stopped (R87) -/
  stopAt : Option Nat
  /-- gain table, its shadow and what was written inside the window (R97); keyed by input·1024 + entry -/
  gain : SMap Word
  gainShadow : SMap Word
  gainLate : SMap Word
  /-- model entries armed for hand-over, and those armed inside the window, by input: what each of the words 0 to 12 will be, none where
  it has not been written (R94) -/
  armed : SMap (List (Option Word))
  armedLate : SMap (List (Option Word))
  /-- row-valid bits of the delay store (R102): a bit that is set, by row·256 + dense input index, with the y-spectrum that its row holds -/
  store : SMap Nat
  /-- output frames below it were lost at a re-lay: none of their rows becomes valid (Table HBM-4) -/
  voidBelow : Nat
  /-- the next output spectrum the store will read (R104), and the end of the frame being read -/
  rp : Nat
  rpEnd : Nat
  deriving DecidableEq, Repr

def Inp.reset : Inp :=
  { opened := none, frontier := 0, top := 0, gaps := [], ssfs := [], nmax := none, got := false, fdly := [],
    last := none, stopFrontier := 0, specs := [], raw := [], deferred := [], sk := [], mu := 0, warm := true,
    warmCnt := 0, warmSum := 0, rawRun := 0, rqFrame := 0, rqPow := 0, rqValid := 0, diffFrame := none,
    written := none }

def Front.reset : Front :=
  { inputs := [], enAtTick := [], coef := [], badCoef := [], masterBad := false, stopAt := none, gain := [],
    gainShadow := [], gainLate := [], armed := [], armedLate := [], store := [], voidBelow := 0, rp := 0, rpEnd := 0 }

/-- A reference beside its registers (R310 to R314): e_r in ps and the phase of device time it was taken at; offset o_r and a
request to capture it again; EN as of the last selection cycle; LOS now; clean seconds counted, a condition within the running
second, a qualification lost before; device time of the last event, if any. -/
structure Ref where
  err : Int
  phaseAt : Int
  ofs : Option Int
  recapture : Bool
  en : Bool
  los : Bool
  clean : Nat
  dirty : Bool
  lost : Bool
  seenAt : Option Nat
  deriving DecidableEq, Repr

def Ref.reset : Ref := ⟨0, 0, none, false, false, false, 0, true, false, none⟩

/-- The timing unit beside its registers: the tick due next with the spectrum length and rate it was placed by (R307); phase that
slewing and stepping have given device time, in ps; a PTP sample has come since reset (R323); references; correction in 10^-15; what is left of a slew in ps (R318);
selection cycles within LOCK_THR (Table TMG-4); a time reference has been followed; seconds run; corrections summed over the
running 64 s; means stored, newest first, with their second (R319); seconds and E0 of the holdover in ps (R320). -/
structure Tmg where
  due : Option (Nat × Nat × Nat)
  phase : Int
  ptpSeen : Bool
  refs : List Ref
  corr : Int
  slew : Int
  within : Nat
  traced : Bool
  secs : Nat
  sumCorr : Int
  cntCorr : Nat
  means : List (Nat × Int)
  hoSecs : Nat
  hoE0 : Nat
  deriving DecidableEq, Repr

def Tmg.reset : Tmg :=
  { due := none, phase := 0, ptpSeen := false, refs := List.replicate 7 Ref.reset, corr := 0, slew := 0, within := 0, traced := false, secs := 0,
    sumCorr := 0, cntCorr := 0, means := [], hoSecs := 0, hoE0 := 0 }


/-- A transaction of one access unit in a pseudo-channel's queue (R279): its flight at the Roundabout, write or read, unit,
byte enables, local byte, copy of a mirrored region, data (of a read: as its unit stood on arrival, R281), poison, hint, arrival
in ns. -/
structure QTxn where
  flight : Nat
  write : Bool
  unit : Nat
  be : Nat
  lbyte : Nat
  copy : Nat
  data : List Byte
  poison : Bool
  hint : Bool
  since : Nat
  deriving DecidableEq, Repr

/-- The memory of a half beside its registers: the bytes by HBM address (an unlisted byte reads 0), the copies of access
units that hold an uncorrectable word (unit·2 + copy), and the live pseudo-channels over which each enabled region is laid
(R274, R275, R289). Then the controllers: queues, oldest first (R279); open rows and activate tables of each bank by
p·2^16 + bank (R280, R283); RFMs of the window; refreshes postponed, or pulled in if negative (R282); times of uncorrectable
reads in ns (R287); next scrub unit (R286); units whose contents a re-lay took; groups fenced whole and not re-laid; fences inside the window (R288, R289). -/
structure Hbm where
  mem : List Host.Cell
  poison : List Nat
  lays : SMap (List Nat)
  queue : SMap (List QTxn)
  rows : SMap Nat
  acts : SMap (List (Nat × Nat))
  rfms : SMap Nat
  owed : SMap Int
  uncs : SMap (List Nat)
  scrub : SMap Nat
  lost : List Nat
  grpFenced : List Nat
  lateFence : List Nat
  /-- pseudo-channels that are draining a batch of writes (R279) -/
  batch : List Nat
  deriving DecidableEq, Repr

def Hbm.reset : Hbm := ⟨[], [], [], [], [], [], [], [], [], [], [], [], [], []⟩

/-- A transaction in flight at a master port (R296): its number, port, ID, request, whether it crosses the bridge, and the
flight of the other half that it serves. -/
structure Flight where
  seq : Nat
  master : Nat
  id : Nat
  req : Txn
  across : Bool
  origin : Option Nat
  /-- units still to come back, and what has come back of a read: data by unit, any poisoned -/
  left : Nat
  got : SMap (List Byte)
  bad : Bool
  deriving DecidableEq, Repr

/-- A request that waits at a target port (R297 to R301): its flight, target port, master, QoS carried, MCLK cycle from
which its wait counts, MCLK cycle in which it arrives at the port, its request. -/
structure Req where
  flight : Nat
  port : Nat
  master : Nat
  qos : Nat
  since : Nat
  ready : Nat
  req : Txn
  deriving DecidableEq, Repr

/-- A target port (R299, R301): the master granted last, the MCLK cycle at which its burst ends. -/
structure Port where
  last : Nat
  busy : Nat
  deriving DecidableEq, Repr

/-- The Roundabout of a half beside its registers: target ports, requests waiting in issue order, transactions in flight,
requests of units whose port has no free ID (R296), the next flight number, the latest MCLK cycle seen. -/
structure Rdb where
  ports : SMap Port
  waiting : List Req
  flights : List Flight
  stalled : List (Flight × List Req)
  next : Nat
  clock : Nat
  deriving DecidableEq, Repr

def Rdb.reset : Rdb := ⟨[], [], [], [], 0, 0⟩

/-- A frame in a lane's transmit FIFO: the ring, its wire bytes (R246), and the frame. -/
structure FifoFrame where
  ring : Nat
  wire : Nat
  frame : List Byte
  deriving DecidableEq, Repr

/-- A descriptor as an engine executed it (R232): address, END, NOTIFY, TAG, NEXT, source and length, and the running CRC after it. -/
structure Executed where
  addr : Nat
  ended : Bool
  notify : Bool
  tag : Nat
  next : Nat
  src : Nat
  len : Nat
  crc : Nat
  deriving DecidableEq, Repr

/-- What the completion record of a fault carries of the faulty descriptor (R235, R236): TAG, the running CRC, END, DGEND; and
whether the descriptor has NOTIFY. -/
structure DescFault where
  tag : Nat
  crc : Nat
  ended : Bool
  dgend : Bool
  notify : Bool
  deriving DecidableEq, Repr

def DescFault.none : DescFault := ⟨0, 0, false, false, false⟩

/-- A datagram that an engine holds (R232): its lane, its descriptors, payload, running CRC after it, the fault status of R235 (0 none)
and its descriptor; and TCI, DSCP and EVG of its ring as they stood at the grant (R242). -/
structure Datagram where
  lane : Nat
  descs : List Executed
  payload : List Byte
  crc : Nat
  status : Nat
  fault : DescFault
  tci : Nat
  dscp : Nat
  evg : Nat
  deriving DecidableEq, Repr

/-- What the on-die table and the engine keep for a ring (R231): the scheduler's copies of EN, PRIO and LANES, the doorbell
recorded while its context is not cached, tokens in 1/800 byte with the time they were last brought up to, deficit, running
CRC, cap (R250), last descriptor completed, last descriptor of the last datagram sent (R235), a stop asked for, the datagram held. -/
structure RingEng where
  en : Bool
  prio : Nat
  lanes : Nat
  bell : Bool
  tokens : Int
  tokTime : Nat
  deficit : Nat
  crc : Nat
  cap : Option Nat
  last : Option Nat
  sentAt : Option Nat
  stopAsked : Bool
  held : Option Datagram
  deriving DecidableEq, Repr

/-- The Tramway of a half beside its registers: cached contexts, newest use first (R231); engine state by ring; FIFOs and
the ring last served of each logical lane and priority (R243); space held in the outbound buffer (R191), and the tick before which each
dump packet in it must leave (R18); the latest device time that a grant came with (R244). -/
structure Trw where
  lru : List Nat
  ctx : SMap (List Byte)
  eng : SMap RingEng
  fifo : SMap (List FifoFrame)
  served : SMap Nat
  outHeld : SMap Nat
  outDue : SMap Nat
  /-- what each packet in the outbound buffer belongs to (R29): [0, entry, first frame, o, PART] for a dump's block, [1, entry] for beams -/
  outTag : SMap (List Nat)
  clock : Nat
  /-- physical output lanes that reported a link fault since the last tick (R252) -/
  faulted : List Nat
  /-- the port of PMODE 1 has been down since the last tick or before it (R253) -/
  portDown : Bool
  deriving DecidableEq, Repr

def RingEng.reset : RingEng := ⟨false, 0, 0, false, 0, 0, 0, 0xFFFFFFFF, none, none, none, false, none⟩

def Trw.reset : Trw := ⟨[], [], [], [], [], [], [], [], 0, [], false⟩

/-- A record that a capture feed holds (R219): its SEQ, input and y-spectrum. -/
structure CapRec where
  seq : Nat
  q : Nat
  spec : Nat
  deriving DecidableEq, Repr

/-- A capture feed beside its registers (R219, R222, R225, R226, R228), SEQs counted beyond 2^32: records written since the last ARM that
still lie in the ring, oldest first; how many have been written; the next SEQ to send in STREAMING; y-spectrum last written of each
input; σ_t while TRIGGERED; the TSPEC that a record has matched; packets on flow rings whose datagram has not been moved, as (staging
address, first SEQ, records); RELEASE waits for the datagram in progress; the last y-spectrum that is written once RUN is cleared. -/
structure Cap where
  recs : List CapRec
  count : Nat
  sent : Nat
  lastSpec : SMap Nat
  trig : Option Nat
  matched : Option Nat
  outs : List (Nat × Nat × Nat)
  releasing : Bool
  stopAt : Option Nat
  deriving DecidableEq, Repr

def Cap.reset : Cap := ⟨[], 0, 0, [], none, none, [], false, none⟩

/-- A serial lane beside its registers (R258, R262, R265, R269, R270): consecutive good LM blocks with RF at 1, whether the relock window
runs, injections left (none: until stopped); SEQ of the next LM block that it sends, CORR of the last window; its transmitter precodes; what it
has sent in loopback and not yet had back. -/
structure Lane where
  lmRf : Nat
  relock : Bool
  injLeft : Option Nat
  lmSeq : Nat
  corr : Nat
  txPre : Bool
  sent : List (List Byte)
  deriving DecidableEq, Repr

def Lane.reset : Lane := ⟨0, false, none, 0, 0, false, []⟩

/-- An exchange lane of a half beside its registers (R112, R115, R119): next SEQ to send; SEQ expected; data blocks the
sender may still send; credits handed to the far sender and not used; blocks of the lane in the landing buffer; ℓ in 2^-16 ps;
exchanges measured and their sum. -/
structure XLane where
  seqTx : Nat
  seqRx : Option Nat
  credits : Nat
  given : Nat
  waits : Nat
  lat : Int
  cnt : Nat
  sum : Int
  deriving DecidableEq, Repr

def XLane.reset : XLane := ⟨0, none, 0, 0, 0, 0, 0, 0⟩

/-- A data block that waits in a link group's queue (R118): σ, sending half, header with SEQ 0 and payload. -/
structure QBlock where
  sigma : Nat
  src : Nat
  bytes : List Byte
  deriving DecidableEq, Repr

/-- A link group beside its registers: READY seen in the peer's HELLO; the frame index of the last TICK block agreed; θ in
ps; frame of the last TICK block; the queue in the order of R118; the spectrum being sent and the blocks of it handled; the
limit of R126. -/
structure Link where
  peerReady : Bool
  tickOk : Bool
  theta : Int
  tickAt : Option Nat
  queue : SMap QBlock
  sig : Nat
  idx : Nat
  limit : Option Nat
  deriving DecidableEq, Repr

def Link.reset : Link := ⟨false, true, 0, none, [], 0, 0, none⟩

/-- A block that waits in the landing buffer (R120): the entry it is counted in, the lane whose credit it holds. -/
structure Waiting where
  entry : Nat
  lane : Option Nat
  bytes : List Byte
  deriving DecidableEq, Repr

/-- The exchange of a half beside its registers. `ct0` and `ct1` are the landing maps of the corner-turn buffers (R124): a listed
(t·K + input block)·G + group is a set bit. `closed`: frames below it have passed their landing instant; `handed`: the frame whose buffer
the Arcade has (R123); `void`: the frame that a re-lay took (Table HBM-4); `solo`: the other half was down at the last tick (R129);
`allot`: blocks of the landing buffer for each live lane and for the die bridge, from the last tick; `bridgeQ`: blocks for the other half that wait
for a credit of the die bridge, oldest first (R119). -/
structure Xch where
  lanes : SMap XLane
  links : SMap Link
  ct0 : List Nat
  ct1 : List Nat
  waiting : List Waiting
  closed : Nat
  handed : Option Nat
  void : Option Nat
  solo : Bool
  allot : Nat
  bridgeQ : List (List Byte)
  deriving DecidableEq, Repr

def Xch.reset : Xch := ⟨[], [], [], [], [], 0, none, none, false, 0, []⟩

/-- A stripe buffer (R133): stripe, its length, the Plaza blocks staged, and how many of them form group A. -/
structure Stripe where
  s : Nat
  sst : Nat
  o : Nat
  blocks : List Nat
  na : Nat
  deriving DecidableEq, Repr

/-- A quadrant of an XT pass (R139): its quarter of the slot, and its row and column blocks by place in the stripe (blocks of 64
inputs for XT-64, of 32 for XT-32). -/
structure Quad where
  q : Nat
  row : Nat
  col : Nat
  deriving DecidableEq, Repr

/-- State of a cell (Table ARC-7). -/
structure CellState where
  re : Int
  im : Int
  l0re : Int
  l0im : Int
  l1re : Int
  l1im : Int
  cnt : Nat
  deriving DecidableEq, Repr

/-- An issued pass: its op words, where it belongs, what it reads and writes, whether it waits for a bay (0), runs (1), is
finished (2) or waits for its spill (3), its logical bay, the sample and cell state it stands at where it has been halted, restored or
finished (R156, R157), whether an A32 adder or a tally counter of it has overflowed (R142, R172), and whether it ran before ARC_DBG asked
for a halt. -/
structure Pass where
  op : List Word
  shape : Nat
  frame : Nat
  sub : Nat
  o : Nat
  blk : Nat
  s : Nat
  sst : Nat
  nblk : Nat
  slot : Nat
  trec : Nat
  quads : List Quad
  amode : Nat
  k16 : Nat
  last : Bool
  grp : Nat
  win : Nat
  status : Nat
  bay : Nat
  start : Nat
  init : List CellState
  ovf : Bool
  tovf : Bool
  exempt : Bool
  deriving DecidableEq, Repr

/-- Where the sequencer stands in the frame that it runs (R146): subarray, output channel, block index, program index, the
loop as (first op, length, count, iteration), and the blocks that have closed. -/
structure ArcRun where
  frame : Nat
  sub : Nat
  o : Nat
  blk : Nat
  pc : Nat
  loop : Option (Nat × Nat × Nat × Nat)
  stripe : Option Nat
  closed : List (Nat × Nat)
  deriving DecidableEq, Repr

/-- A drained beam pass in the hand-off buffer (R203): its slot there, block, fine channel, first spectrum, group, shape. -/
structure HandOff where
  idx : Nat
  frame : Nat
  sub : Nat
  o : Nat
  blk : Nat
  c : Nat
  t : Nat
  grp : Nat
  shape : Nat
  deriving DecidableEq, Repr

/-- The Arcade and the Courtyard of a half beside their registers: program store; members of each subarray among the Plaza
inputs by the first frame, newest first, where Exylo has named them; the sequencer; passes in issue order; stripe buffers; Courtyard words by word address;
tags, suspect slots and records; table entries that act as gain 0 (R199); the table in the region (subarray, hand-over
number) and hand-overs of each table; slots and records of the last drain of each bay; frames abandoned whose beam samples are not yet
filled (R205); records spilled by open blocks as (frame, subarray, block, record); bays fenced since the last tick; repairs by command; the
containment of R161; bay-cycles of the frame; hand-off queue. -/
structure Arc where
  prog : SMap Word
  members : SMap (List (Nat × List Nat))
  run : Option ArcRun
  passes : List Pass
  stripe0 : Option Stripe
  stripe1 : Option Stripe
  cy : SMap Word
  tags : SMap Nat
  suspect : List Nat
  recSuspect : List Nat
  tabBad : List Nat
  tabIn : Option (Nat × Nat)
  tabStale : Bool
  tabGen : SMap Nat
  lastDrain : SMap (List Nat × List Nat)
  unfilled : List Nat
  spills : List (Nat × Nat × Nat × Nat)
  fenced : List Nat
  repair : List Nat
  contained : Bool
  used : Nat
  hand : List HandOff
  handNext : Nat
  deriving DecidableEq, Repr

def Arc.reset : Arc :=
  { prog := [], members := [], run := none, passes := [], stripe0 := none, stripe1 := none, cy := [], tags := [], suspect := [],
    recSuspect := [], tabBad := [], tabIn := none, tabStale := false, tabGen := [], lastDrain := [], unfilled := [], spills := [], fenced := [],
    repair := [], contained := false, used := 0, hand := [], handNext := 0 }

/-- Where a block's tally spill lies (R169): byte address of buffer 0, first record, records. -/
structure SpillArea where
  base : Nat
  rec0 : Nat
  nrec : Nat
  deriving DecidableEq, Repr

/-- A block that a CLOSE has handed to the folder (R147): block index, PART, its slots, the records it spilled, whether
the spill was lost (R289), the spill area as it stood at the CLOSE (R38), and whether a slot or record of it was suspect then (R153). -/
structure Block where
  frame : Nat
  sub : Nat
  o : Nat
  blk : Nat
  part : Nat
  slot : Nat
  count : Nat
  spilled : List Nat
  spillLost : Bool
  area : SpillArea
  bad : Bool
  deriving DecidableEq, Repr

/-- Statistics of a row in the making (R186): exact sum in 2^-149, largest m and its column. -/
structure RowAcc where
  sum : Int
  top : Int
  col : Nat
  deriving DecidableEq, Repr

/-- An integration of a visibility product (R178, R179): first and final frame, the entry's words 0 to 5 and tile plan it
runs under, whether it ends early, the blocks dumped as (o, PART), whether a packet was dropped (R29), row statistics by
o·2^14 + input, the blocks of output channel 0 folded of its newest frame, and the frames whose channel 0 has folded whole. -/
structure Integ where
  v : Nat
  first : Nat
  last : Nat
  words : List Nat
  plan : List Nat
  early : Bool
  dumped : List (Nat × Nat)
  lossy : Bool
  rows : SMap RowAcc
  got : List (Nat × Nat)
  frames : Nat
  deriving DecidableEq, Repr

/-- Long-term accumulation beside its registers: frames that every open integration holding them marks incomplete (R340,
R369); blocks handed over, oldest first; blocks folded or discarded as (frame, subarray, o, PART); fresh bits that are clear,
as (product, o, PART); integrations. -/
structure Lta where
  markInc : List Nat
  blocks : List Block
  seen : List (Nat × Nat × Nat × Nat)
  stale : List (Nat × Nat × Nat)
  integs : List Integ
  deriving DecidableEq, Repr

/-- A voltage packet in the making (R207): product, beam, fine channel, packet number, samples taken, bytes, marks. -/
structure VPacket where
  v : Nat
  beam : Nat
  c : Nat
  p : Nat
  taken : Nat
  bytes : SMap Byte
  incomplete : Bool
  sat : Bool
  deriving DecidableEq, Repr

/-- One Stokes sum (R210): s and e in units of 2^-149. -/
structure KSum where
  s : Int
  e : Int
  deriving DecidableEq, Repr

/-- An open detected-beam record (R209, R210): product, first frame of its run, beam or first beam of the pair, channel bin, time bin, samples
accounted, sums, NT, VMIN, marks. -/
structure DRecord where
  v : Nat
  since : Nat
  beam : Nat
  cb : Nat
  tb : Nat
  taken : Nat
  sums : List KSum
  nt : Nat
  vmin : Nat
  incomplete : Bool
  deriving DecidableEq, Repr

/-- A packet of detected records in the making (R212): product, beam, frame; bytes; first record's bins; marks. -/
structure DPacket where
  v : Nat
  beam : Nat
  frame : Nat
  bytes : List Byte
  cb : Nat
  tb : Nat
  incomplete : Bool
  cont : Bool
  deriving DecidableEq, Repr

/-- Beamforming beside its registers: beam-table words written inside the window (R31); the scale table, its shadow and late
writes, keyed by slot·512 + entry; packets and records in the making; windows accounted as (frame, subarray, key); runs of
each product as (words 0 to 4, first frame), newest first. -/
structure Bmf where
  tabLate : List (Nat × Nat × Word)
  scale : SMap Nat
  scaleShadow : SMap Nat
  scaleLate : SMap Nat
  vpkts : List VPacket
  recs : List DRecord
  dpkts : List DPacket
  seen : List (Nat × Nat × Nat)
  runs : SMap (List (List Nat × Nat))
  deriving DecidableEq, Repr

/-- A session record (R402): transport kind (0 UDP, 1 mailbox, 2 SMBus), source, number, last accepted
SEQ and the reply to it. -/
structure Sess where
  kind : Nat
  ip : List Byte
  port : Nat
  num : Nat
  seq : Nat
  reply : List Byte
  deriving DecidableEq, Repr

/-- One write that a command has set aside for the tick of its effective frame (R408). -/
inductive PWrite where
  /-- a register word by window offset -/
  | reg (addr : Nat) (w : Word)
  /-- a gain-table entry: input row, entry, word -/
  | gain (row entry : Nat) (w : Word)
  /-- a beam-table word of a subarray's image -/
  | beam (sub index : Nat) (w : Word)
  /-- a scale-table value: slot, entry -/
  | scale (slot entry : Nat) (v : Nat)
  deriving DecidableEq, Repr

/-- Writes waiting for their tick: the effective frame, the tick they land at, the opcode, and the input,
subarray or slot of R408. -/
structure Planned where
  ke : Nat
  tick : Nat
  opcode : Nat
  key : Nat
  writes : List PWrite
  deriving DecidableEq, Repr

/-- A half's flash port as last read (R382, R383): present, bytes of a slot, and the valid image that each slot holds; no slots before the
port has been read. -/
structure FlashPort where
  present : Bool
  slotBytes : Nat
  slots : List (Option (List Byte))
  deriving DecidableEq, Repr

/-- An image update (R392): state 0 idle, 1 staging, 2 writing, 3 done, 4 failed; bytes and HBM address of the staging, and what has been
stored in it, newest first; the port (0 A, 1 B) and slot being written, the phase (0 erase, 1 program, 2 read back, 3 header), the
offset of the operation in progress; bytes written; the operation has been issued; an abort asked for. -/
structure FlashUpd where
  state : Nat
  len : Nat
  base : Nat
  stage : List (Nat × List Byte)
  port : Nat
  slot : Nat
  phase : Nat
  ofs : Nat
  written : Nat
  issued : Bool
  aborting : Bool
  deriving DecidableEq, Repr

/-- Queued events of a subscriber slot (R411). -/
structure EvtSlot where
  queue : List (List Byte)
  lost : Nat
  sent : Nat
  deriving DecidableEq, Repr

/-- A visibility product as SCHED_VIS gives it (Table EXY-8). -/
structure VisSet where
  i32 : Bool
  norm : Bool
  rowstat : Bool
  align : Bool
  x32 : Bool
  gcode : Nat
  amode : Nat
  k16c : Nat
  tInt : Nat
  flowVis : Nat
  flowCnt : Nat
  flowRow : Nat
  deriving DecidableEq, Repr

/-- A beam product as SCHED_BEAM gives it (Table EXY-8); shape 0 is BT-64, 1 BT-16. -/
structure BeamSet where
  shape : Nat
  detected : Bool
  stokes : Bool
  vfmt8 : Bool
  shift : Nat
  nb : Nat
  first : Nat
  minValid : Nat
  nsCode : Nat
  ncCode : Nat
  flow : Nat
  deriving DecidableEq, Repr

/-- A capture feed as SCHED_CAPTURE gives it (Table EXY-8); `input` is the first Plaza input. -/
structure CapSet where
  stream : Bool
  input : Nat
  nq : Nat
  c0 : Nat
  nch : Nat
  szCode : Nat
  flow : Nat
  deriving DecidableEq, Repr

inductive ProdSet where
  | vis (x : VisSet)
  | beam (x : BeamSet)
  | cap (x : CapSet)
  deriving DecidableEq, Repr

/-- A product of a schedule (R406): number, priority, settings. -/
structure Prod where
  num : Nat
  prio : Nat
  set : ProdSet
  deriving DecidableEq, Repr

/-- A schedule (R33): Plaza inputs, ascending; the four quotas of R457; products by ascending number. -/
structure Sched where
  inputs : List Nat
  quotas : List Nat
  prods : List Prod
  deriving DecidableEq, Repr

/-- A draft and the session that owns it (Table EXY-8): its transport, source and number. -/
structure Draft where
  kind : Nat
  ip : List Byte
  port : Nat
  num : Nat
  sched : Sched
  deriving DecidableEq, Repr

/-- A subarray (R36 to R44): its schedules with their effective frames, newest first, `none` from a tear-down; quotas in force and
from the next tick; products shed, with true where R35 shed them; products named to READMIT. -/
structure Sub where
  vers : List (Nat × Option Sched)
  quotas : List Nat
  next : Option (List Nat)
  shed : List (Nat × Bool)
  readmit : List Nat
  deriving DecidableEq, Repr

/-- Where Exylo has put a product of a subarray (R406): the frame from which, its entry among its kind (0 visibility, 1 beam, 2 capture),
HBM address and bytes of what it owns there (scale slots for a beam product), first scale slot. -/
structure Place where
  sub : Nat
  num : Nat
  ke : Nat
  kind : Nat
  entry : Nat
  base : Nat
  size : Nat
  scale : Nat
  deriving DecidableEq, Repr

/-- A ring that RING_CREATE made: its context bytes 8 to 47 as last set, region base and RCODE, completion base and CCODE, and
the larger region it moves to (base, RCODE, first tick) (R249). -/
structure RingRec where
  ring : Nat
  conf : List Byte
  base : Nat
  rcode : Nat
  cbase : Nat
  ccode : Nat
  grow : Option (Nat × Nat × Nat)
  deriving DecidableEq, Repr

/-- What a half keeps of the other, for its return after a restart (R342): registers, subarrays, sky settings, rings. (DEDUCED, log 43) -/
structure Share where
  regs : SMap Word
  subs : SMap Sub
  sky : SMap (Bool × Nat)
  rings : List RingRec
  deriving DecidableEq, Repr

/-- The resident firmware of a half. -/
structure Exy where
  /-- session records, most recently used first (R402) -/
  sessions : List Sess
  /-- frames discarded under the sequence rule, counted (R402) -/
  seqDiscards : Nat
  planned : List Planned
  evts : List EvtSlot
  /-- the end of an update has not been read by FLASH_INFO: FLASH_DONE stands (R392) -/
  flashUnread : Bool
  port : FlashPort
  upd : FlashUpd
  /-- the chosen image (R387) -/
  image : Option (List Byte)
  /-- frames of the profile not yet replayed, the index of the next, ALIGN, the start frame (R388, R389) -/
  replayLeft : List (List Byte)
  replayIdx : Nat
  replayAlign : Nat
  startFrame : Option Nat
  /-- a profile switch: index, effective frame, draining (R391) -/
  switchTo : Option (Nat × Nat)
  draining : Bool
  /-- admission is to be recomputed at the next tick (R35); a half reset at a tick (R342) and the rejoin frame -/
  recompute : Bool
  resetAt : Option Nat
  rejoinAt : Option Nat
  /-- the maps that the last QUOTA_SHED carried: the products shed, by subarray (R43) -/
  shedMaps : SMap (List Nat)
  /-- the ring-space quota of the last cut below what a subarray holds, while its rings are capped (R250) -/
  cutTo : SMap Nat
  /-- drafts and subarrays by number; where products stand; the beam-table images of subarrays, as (A, B, bytes of each) -/
  drafts : SMap Draft
  subs : SMap Sub
  places : List Place
  images : SMap (Nat × Nat × Nat)
  /-- sky settings by Plaza input: lower sideband, f_LO in 2^-16 Hz (R409) -/
  sky : SMap (Bool × Nat)
  rings : List RingRec
  /-- the Arcade configuration last written, as (subarray, schedule with the products that run) -/
  applied : List (Nat × Sched)
  /-- a reply that waits for RSP_VALID to clear (R398), and what is kept of the other half (R342) -/
  mbxReply : Option (List Byte)
  peer : Option Share
  deriving DecidableEq, Repr

/-- One half (R9). `regs`, `shadow` and `shadowLate` are keyed by window offset. -/
@[ext]
structure Half where
  /-- which half it is (R9) -/
  id : HalfId
  /-- register words that differ from their reset value, by window offset (R4) -/
  regs : SMap Word
  /-- TICK-class shadows, and those written inside the hand-over window (R31) -/
  shadow : SMap Word
  shadowLate : SMap Word
  /-- HOLD as it stood at the start of the hand-over window (R32) -/
  holdSample : Bool
  /-- words latched by a read of their low word (R420) -/
  latch : SMap Word
  /-- sources raised in this tick interval that are raised at most once in it (R47, R65, R88) -/
  once : List Nat
  /-- values handed over, newest first, each with the frame of its tick (R62, R76, R95), and the last 17 hand-overs -/
  hist : SMap (List (Nat × Word))
  hoTicks : List Nat
  /-- the error record queue (R430) -/
  errq : ErrQueue
  /-- the event controller (R344) -/
  evc : Evc
  /-- the supervisory island (R361) -/
  isl : Island
  /-- the resident firmware, Exylo (R395) -/
  exy : Exy
  /-- the timing unit (R307) -/
  tmg : Tmg
  /-- ingest to delay store (R52, R66, R102) -/
  front : Front
  /-- long-term accumulation (R181) -/
  lta : Lta
  /-- memory (R273) -/
  hbm : Hbm
  /-- the Roundabout (R295) -/
  rdb : Rdb
  /-- the Tramway (R230) -/
  trw : Trw
  /-- capture feeds (R219) -/
  caps : SMap Cap
  /-- serial lanes by lane index (R262, Table LAN-1) -/
  lanes : SMap Lane
  /-- the exchange (R113) -/
  xch : Xch
  /-- the Arcade (R133) -/
  arc : Arc
  /-- beamforming (R195) -/
  bmf : Bmf
  /-- capture readout headers in the feeds' header staging (R234), by staging address -/
  stage : SMap (List Byte)
  /-- the half must enter DOWN with this cause (class H, R427) -/
  fatal : Option Nat
  /-- what the half has sent or driven, oldest first (log 52) -/
  out : List Emission
  deriving DecidableEq, Repr

/-- The board pins that are shared by both halves (Table ELP-7) and the die bridge. -/
structure Board where
  resetN : Bool
  pfwN : Bool
  /-- the board controller pulls THERM_N -/
  thermPull : Bool
  /-- both halves throttle (R452) -/
  throttled : Bool
  /-- PROFILE_SEL pins -/
  profileSel : Nat
  /-- the bridge carries traffic, and has retrained but not yet returned (R304) -/
  bridgeUp : Bool
  bridgeReady : Bool
  deriving DecidableEq, Repr

/-- The machine. `freeCtr` is the model's own counter of free values, not a register of the part. -/
@[ext]
structure State where
  pending : List Instr
  freeCtr : Nat
  north : Half
  south : Half
  board : Board
  deriving DecidableEq, Repr

/-- An error queue with nothing in it. -/
def ErrQueue.empty : ErrQueue := ⟨[], [], 0, none⟩

def Tgt.idle : Tgt := ⟨none, none, false⟩

def Evc.reset : Evc := ⟨List.replicate 12 Tgt.idle, [], false⟩

def Feed.reset : Feed := ⟨0, 0, 0, 0, false, false⟩

/-- The island before it has power (R361). (DESIGN CHOICE, log 2) -/
def Island.reset : Island :=
  { powered := false, ready := false, listening := false, heardAny := false, heardPrimary := false,
    hbSeq := 0, hbIn := 0, hbEchoed := 0, guard := false, aliveOff := false, roleKept := 0,
    takingUp := false, copyFresh := false, imageOk := false, fatalF := false, tripped := false,
    seq := .idle, retries := 0, downThen := 0, boWait := false, rejoin := false,
    feedA := Feed.reset, feedB := Feed.reset, prefGood := true, urgentRail := none, hkaPrev := 0,
    vddArc := 650 + Config.vddArcStep.val, vddPrev := 650 + Config.vddArcStep.val,
    smbAddr := 0, smbAsm := [], smbFrame := none, smbReply := [] }

def Exy.reset : Exy :=
  { sessions := [], seqDiscards := 0, planned := [], evts := List.replicate 8 ⟨[], 0, 0⟩, flashUnread := false,
    port := ⟨false, 0, []⟩, upd := ⟨0, 0, 0, [], 0, 0, 0, 0, 0, false, false⟩, image := none,
    replayLeft := [], replayIdx := 0, replayAlign := 0, startFrame := none, switchTo := none,
    draining := false, recompute := false, resetAt := none, rejoinAt := none, shedMaps := [], cutTo := [], drafts := [], subs := [], places := [],
    images := [], sky := [], rings := [], applied := [], mbxReply := none, peer := none }

def Lta.reset : Lta := ⟨[], [], [], [], []⟩

def Bmf.reset : Bmf := ⟨[], [], [], [], [], [], [], [], []⟩

/-- A half before power: every register at its reset value. (DESIGN CHOICE, log 2) -/
def Half.reset (id : HalfId) : Half :=
  { id := id, regs := [], shadow := [], shadowLate := [], holdSample := false, latch := [], once := [], hist := [], hoTicks := [],
    errq := ErrQueue.empty, evc := Evc.reset, isl := Island.reset, exy := Exy.reset, tmg := Tmg.reset, front := Front.reset, lta := Lta.reset, hbm := Hbm.reset, rdb := Rdb.reset, trw := Trw.reset, caps := [], lanes := [], xch := Xch.reset, arc := Arc.reset, bmf := Bmf.reset, stage := [], fatal := none, out := [] }

def Board.reset : Board :=
  { resetN := false, pfwN := true, thermPull := false, throttled := false, profileSel := 0, bridgeUp := false,
    bridgeReady := false }

/-- The machine before power: both halves unpowered, every register at its reset value, no command waiting. (DESIGN CHOICE, log 2) -/
def State.reset : State :=
  { pending := [], freeCtr := 0, north := Half.reset .north, south := Half.reset .south,
    board := Board.reset }

end Sys2Proof.Machine
end

