-- ==== Sys2Proof/Machine/Ops.lean ====
section
/-! DEFINITION. The named operations over the registers, the error queue, the event sources and the
halves: what every meaning is written with. -/

namespace Sys2Proof.Machine

/-! ### Registers of a half -/

/-- Nominal voltage and window half-width in per cent of a main rail (Table SUP-1), in mV. -/
def railNominal (r : Nat) : Nat × Nat :=
  match r with
  | 0 => (1800, 5)
  | 1 => (1800, 5)
  | 2 => (750, 4)
  | 3 => (800, 4)
  | 4 => (1100, 4)
  | 5 => (400, 5)
  | 6 => (650 + Config.vddArcStep.val, 4)
  | 7 => (900, 4)
  | _ => (1200, 4)

/-- The reset value of instance `i` of a register word: the tabled value with, in the registers that
differ between instances or are fused, the value the table's words give (Tables REG-2, REG-3, EVC-1, ING-8, LAN-1,
RDB-1, RDB-5, SUP-1, TMG-1). (DESIGN CHOICE, log 2; PRESUMED, log 49) -/
def regReset (id : HalfId) (r : RegDef) (i : Nat) : Nat :=
  match r.base with
  | 0x4 => r.reset + b2n Config.lid
  | 0xC => r.reset + (match id with | .north => 0 | .south => 1)
  | 0x10 => Config.serial.toNat % 2 ^ 32
  | 0x14 => Config.serial.toNat / 2 ^ 32
  | 0x18 => Config.macNorth.toNat % 2 ^ 32
  | 0x1C => Config.macNorth.toNat / 2 ^ 32
  | 0x200200 => if i = 3 || i = 28 || i = 29 then 2 ^ 32 - 1 else 0
  | 0x300100 => r.reset + i % 32 * 2 ^ ((ING_LANE_CFG_SRC).lo)
  | 0xE01000 => r.reset + (if i < 48 then 0 else if i < 53 then 1 else 2) * 2 ^ ((LAN_CFG_MODE).lo)
  | 0x1400000 => [12, 12, 10, 8, 6, 4, 4, 0].getD i 0
  | 0x1400100 => if i = 128 then 2 else if i = 129 then 5 else if i = 130 then 1 else 0
  | 0x100100 => r.reset + (0x40 + i) * 2 ^ ((SUP_RAIL_0_ADDR).lo) + (railNominal i).1
  | 0x100104 => let (v, p) := railNominal i; (v + v * p / 100) * 2 ^ 16 + (v - v * p / 100)
  | 0x180100 => r.reset + i * 2 ^ ((TMG_REF_0_RANK).lo)
  | 0x180104 => r.reset + [1000, 1000, 100, 100, 100000, 300000, 10].getD i 0
  | 0x18010C => r.reset + [5, 5, 50, 50, 2, 20, 500].getD i 0
  | _ => r.reset

/-- Window offset of instance `i` of a register word (R416). -/
def RegDef.at (r : RegDef) (i : Nat) : Nat := r.base + i * r.stride

/-- The value in effect of a register word. -/
def Half.get (h : Half) (r : RegDef) (i : Nat := 0) : Word :=
  (SMap.find? h.regs (r.at i)).getD (BitVec.ofNat 32 (regReset h.id r i))

/-- The value in effect, as a natural. -/
def Half.getN (h : Half) (r : RegDef) (i : Nat := 0) : Nat := (h.get r i).toNat

/-- Give a register word a value. -/
def Half.put (h : Half) (r : RegDef) (w : Word) (i : Nat := 0) : Half :=
  { h with regs := SMap.insert h.regs (r.at i) w }

def Half.putN (h : Half) (r : RegDef) (n : Nat) (i : Nat := 0) : Half := h.put r (BitVec.ofNat 32 n) i

/-- `w` with bits `hi:lo` replaced by `v`. -/
def setBits (w hi lo v : Nat) : Nat :=
  w / 2 ^ (hi + 1) * 2 ^ (hi + 1) + v % 2 ^ (hi + 1 - lo) * 2 ^ lo + w % 2 ^ lo

/-- The value in effect of a field. -/
def Half.fget (h : Half) (f : Fld) (i : Nat := 0) : Nat := bits (h.getN f.reg i) f.hi f.lo

/-- Give a field a value; the word's other bits stay. -/
def Half.fset (h : Half) (f : Fld) (v : Nat) (i : Nat := 0) : Half :=
  h.putN f.reg (setBits (h.getN f.reg i) f.hi f.lo v) i

/-- A one-bit field as a truth value. -/
def Half.flag (h : Half) (f : Fld) (i : Nat := 0) : Bool := h.fget f i == 1

/-- Add `n` to a counter field, which saturates. (DEDUCED, log 16) -/
def Half.bump (h : Half) (f : Fld) (n : Nat := 1) (i : Nat := 0) : Half :=
  h.fset f (min (h.fget f i + n) (2 ^ (f.hi + 1 - f.lo) - 1)) i

/-- Add `n` to a counter that fills its word and saturates. (DEDUCED, log 16) -/
def Half.bumpWord (h : Half) (r : RegDef) (n : Nat := 1) (i : Nat := 0) : Half :=
  h.putN r (min (h.getN r i + n) (2 ^ 32 - 1)) i

/-- Hand an emission to the outside. (DEDUCED, log 52) -/
def Half.emit (h : Half) (e : Emission) : Half := { h with out := h.out ++ [e] }

def Half.emits (h : Half) (es : List Emission) : Half := { h with out := h.out ++ es }

def Half.modIsl (h : Half) (f : Island → Island) : Half := { h with isl := f h.isl }

/-- Fold a half through a list. -/
def Half.fold {α : Type} (h : Half) (xs : List α) (f : Half → α → Half) : Half := xs.foldl f h

/-- The frame index current in the half (Table FRM-4). -/
def Half.frame (h : Half) : Nat := h.fget DEV_FRM_IDX_HI_IDX_HI * 2 ^ 32 + h.getN DEV_FRM_IDX_LO

/-- Half states of Table LSE-1. -/
def Half.own (h : Half) : Nat := h.fget LSE_STAT_OWN

/-- The main domain works: the half is BOOTING or RUNNING. -/
def Half.mainUp (h : Half) : Bool := h.own == 1 || h.own == 2

def Half.running (h : Half) : Bool := h.own == 2

/-- The half is in the HOLD of R369. -/
def Half.inHold (h : Half) : Bool := h.fget SUP_STAT_MAIN == 3

/-! ### Errors (R427 to R438) -/

/-- The class of a code (R427). -/
def codeClass (code : Nat) : Nat := bits code 15 14

/-- The unit of a code (R427). -/
def codeUnit (code : Nat) : Nat := bits code 13 8

/-- The newest record of class `c`, removed from a queue kept oldest first. -/
def dropNewest (c : Nat) (recs : List ErrRec) : List ErrRec :=
  match recs.reverse.findIdx? (fun r => codeClass r.code == c) with
  | some i => recs.eraseIdx (recs.length - 1 - i)
  | none => recs

/-- The lowest class queued. -/
def lowestClass (recs : List ErrRec) : Nat := recs.foldl (fun m r => min m (codeClass r.code)) 3

/-- An occurrence that no queued record merges becomes a new record, displacing the newest of the
lowest class from a full queue or being discarded (R430, R431). -/
def Half.newRec (h : Half) (code inst info : Nat) : Half :=
  let q := h.errq
  let r : ErrRec := ⟨q.nextId, inst, code, h.frame, 1, false, info⟩
  let add (recs : List ErrRec) : ErrQueue :=
    { q with recs := recs ++ [r], created := (code, inst) :: q.created, nextId := q.nextId + 1 }
  if q.recs.length < 64 then { h with errq := add q.recs }
  else if lowestClass q.recs < codeClass code then
    ({ h with errq := add (dropNewest (lowestClass q.recs) q.recs) } : Half).bump ERR_STAT_OVERFLOW
  else h.bump ERR_STAT_OVERFLOW

/-- An error occurrence: merged, recorded or suppressed (R430). The queue lies in the main domain, so
nothing is recorded while that is down (R433). (DEDUCED, log 9) -/
def Half.logErr (h : Half) (code : Nat) (inst : Nat := 0xFFFF) (info : Nat := 0) : Half :=
  if !h.mainUp then h
  else if h.errq.recs.any (fun r => r.code == code && r.inst == inst) then
    { h with errq := { h.errq with recs := h.errq.recs.map (fun r =>
        if r.code == code && r.inst == inst then { r with count := min (r.count + 1) 0x7FFF } else r) } }
  else if h.errq.created.contains (code, inst) then h.bumpWord ERR_SUPPR
  else h.newRec code inst info

/-- The status or address word that a record carries (Table ERR-3): the unit's status register for the
instance, the latched address where the unit latches one, the ring for TRW codes (given as the instance). (DEDUCED, log 9) -/
def Half.statusInfo (h : Half) (code inst : Nat) : Nat :=
  let i := if inst = 0xFFFF then 0 else inst
  match codeUnit code with
  | 1 => if code = errFRAME_OVERRUN || code = errOUTPUT_LATE then h.getN DEV_OVR_STAT else 0
  | 2 => h.getN SUP_STAT
  | 3 => h.getN HKA_STAT
  | 4 => h.getN TMG_STAT
  | 5 => h.getN EVC_STAT
  | 7 => h.getN NVM_STAT
  | 9 => if code = errCHN_OVERFLOW then h.getN CHN_OVF_STAT else if inst = 0xFFFF then 0 else h.getN CHN_STAT_0 i
  | 10 => if inst = 0xFFFF then 0 else h.getN DLY_STATE_0 i
  | 11 => if inst = 0xFFFF then 0 else h.getN XCH_LINK_STAT_0 i
  | 12 => if inst = 0xFFFF then h.getN ARC_STAT else h.getN ARC_BAY_STAT i
  | 14 => h.getN TAL_STAT
  | 15 => h.getN LTA_STAT
  | 17 => if inst = 0xFFFF then 0 else h.getN CAP_FSTAT_0 i
  | 18 => inst
  | 19 => if inst = 0xFFFF then 0 else h.getN OUT_LANE_STAT_0 i
  | 20 => if inst = 0xFFFF then 0 else h.getN LAN_STAT i
  | 21 => if code = errHBM_UNC || code = errHBM_CORR || code = errHBM_NO_REGION then h.getN HBM_ERR_ADDR_LO
          else if inst = 0xFFFF then 0 else h.getN HBM_PC_1 i
  | 22 => if code = errRDB_TIMEOUT then h.getN RDB_TMO_ADDR_LO else h.getN RDB_STAT
  | 23 => h.getN LSE_STAT
  | _ => 0

/-- An error occurrence with the unit's status word as INFO. (DEDUCED, log 9) -/
def Half.log (h : Half) (code : Nat) (inst : Nat := 0xFFFF) : Half :=
  h.logErr code inst (h.statusInfo code inst)

/-- A class H error: recorded, and the half is to enter DOWN with the cause (R427). (DEDUCED, log 8) -/
def Half.logFatal (h : Half) (code cause : Nat) (inst : Nat := 0xFFFF) (info : Nat := 0) : Half :=
  { h.logErr code inst info with fatal := some cause }

/-- Handling order (R434): by class, F first, oldest first within a class. -/
def handlingOrder (recs : List ErrRec) : List ErrRec :=
  [3, 2, 1, 0].flatMap (fun c => recs.filter (fun r => codeClass r.code == c))

/-! ### Event sources (R344, R345, R355, R438) -/

/-- Sources that no owner raises (Table EVC-1 and the owners' tables). -/
def sourceReserved (n : Nat) : Bool :=
  (13 ≤ n && n ≤ 31) || (45 ≤ n && n ≤ 63) || (72 ≤ n && n ≤ 95) || (124 ≤ n && n ≤ 127)
    || (182 ≤ n && n ≤ 255) || (460 ≤ n && n ≤ 511) || (714 ≤ n && n ≤ 767) || (808 ≤ n && n ≤ 831)
    || (865 ≤ n && n ≤ 895) || (900 ≤ n && n ≤ 927) || 930 ≤ n

/-- A source of level kind (Table EVC-1). -/
def sourceLevel (n : Nat) : Bool := (96 ≤ n && n ≤ 127) || (896 ≤ n && n ≤ 959)

/-- The condition of a level source (R438, Table EXY-16). (DEDUCED, log 10) -/
def Half.level (h : Half) (n : Nat) : Bool :=
  if !h.mainUp then false
  else if n = 96 then h.errq.recs.any (fun r => codeClass r.code == 3)
  else if n = 97 then h.errq.recs.any (fun r => codeClass r.code == 2)
  else if n = 98 then h.errq.recs.any (fun r => codeClass r.code == 1)
  else if n = 99 then h.errq.recs.any (fun r => codeClass r.code == 0)
  else if n = 100 then h.fget ERR_STAT_OVERFLOW != 0
  else if 101 ≤ n ∧ n ≤ 123 then h.errq.recs.any (fun r => codeUnit r.code == n - 100)
  else if n = 896 then h.flag DEV_MBX_CTL_BUSY
  else if n = 898 then h.isl.smbFrame.isSome
  else if n = 899 then h.exy.flashUnread
  else if n = 928 then h.flag DEV_MBX_CTL_RSP_VALID
  else if n = 929 then h.flag DEV_MBX_CTL_EVT_VALID
  else false

/-- The level sources that can hold. (DEDUCED, log 10) -/
def levelSources : List Nat := (List.range 28).map (· + 96) ++ [896, 898, 899, 928, 929]

def Half.tgt (h : Half) (t : Nat) : Tgt := h.evc.tgts.getD t Tgt.idle

def Half.setTgt (h : Half) (t : Nat) (f : Tgt → Tgt) : Half :=
  { h with evc := { h.evc with tgts := h.evc.tgts.modify t f } }

/-- Bit `n` of a row of 32-bit words, one bit per source. -/
def Half.srcBit (h : Half) (r : RegDef) (n : Nat) : Bool := bit (h.getN r (n / 32)) (n % 32)

def Half.setSrcBit (h : Half) (r : RegDef) (n : Nat) (b : Bool) : Half :=
  h.putN r (setBits (h.getN r (n / 32)) (n % 32) (n % 32) (b2n b)) (n / 32)

/-- The source is enabled (R345). -/
def Half.srcEnabled (h : Half) (n : Nat) : Bool := h.srcBit EVC_ENABLE n

/-- The source's group is routed to the target (R346). -/
def Half.routed (h : Half) (t n : Nat) : Bool := bit (h.getN EVC_TGT_0 t) (n / 32)

/-- A source that becomes pending and enabled wakes the cores it is routed to (R355). -/
def Half.wake (h : Half) (n : Nat) : Half :=
  if h.srcEnabled n then
    h.fold (List.range 4) (fun h t => if h.routed t n then h.setTgt t (fun x => { x with sleep := false }) else h)
  else h

/-- An owner raises an edge source (R345). -/
def Half.raise (h : Half) (n : Nat) : Half :=
  if !h.mainUp || sourceReserved n || sourceLevel n || h.srcBit EVC_PENDING n then h
  else (h.setSrcBit EVC_PENDING n true).wake n

/-- An owner raises a source at most once per tick interval. -/
def Half.raiseOnce (h : Half) (n : Nat) : Half :=
  if h.once.contains n then h else { h.raise n with once := n :: h.once }

/-- The source is pending: an edge source by its bit, a level source while its condition holds and it
is not in service (R345, R350). -/
def Half.inService (h : Half) (n : Nat) : Bool := h.evc.tgts.any (fun t => t.insvc == some n)

def Half.offered (h : Half) (n : Nat) : Bool := h.evc.tgts.any (fun t => t.offer == some n)

def Half.pendingSrc (h : Half) (n : Nat) : Bool :=
  if sourceLevel n then h.level n && !h.inService n else h.srcBit EVC_PENDING n

/-- An offer is withdrawn (R354): the target is released, and a host vector's held message is dropped. -/
def Half.withdraw (h : Half) (t : Nat) : Half :=
  if (h.tgt t).offer.isNone then h
  else
    let h := (h.setTgt t (fun x => { x with offer := none })).bumpWord EVC_TGT_6 1 t
    if 4 ≤ t then h.putN MSIX_PBA (setBits (h.getN MSIX_PBA) (t - 4) (t - 4) 0) else h

/-- Withdraw the offers whose standing conditions have ended (R354): enable, mask, route, EN, or the
condition of a level source. -/
def Half.withdrawStale (h : Half) : Half :=
  h.fold (List.range 12) (fun h t =>
    match (h.tgt t).offer with
    | none => h
    | some n =>
      if h.flag EVC_CTL_EN && h.srcEnabled n && !h.flag EVC_TGT_1_MASK t && h.routed t n
          && (!sourceLevel n || h.level n) then h
      else h.withdraw t)

/-- After a command: level sources that have newly come to hold wake their cores, and stale offers are
withdrawn. -/
def Half.finish (old new : Half) : Half :=
  (new.fold levelSources (fun h n => if new.level n && !old.level n then h.wake n else h)).withdrawStale

/-! ### Halves of the machine -/

def State.half (s : State) : HalfId → Half
  | .north => s.north
  | .south => s.south

def State.setHalf (s : State) (i : HalfId) (h : Half) : State :=
  match i with
  | .north => { s with north := h }
  | .south => { s with south := h }

/-- The window offsets of the registers that lie in the island (R378, R394, Tables STA-7, STA-8). -/
def islandAddr (a : Nat) : Bool :=
  (0x100000 ≤ a && a < 0x180000) || (0x1500000 ≤ a && a < 0x1600000) || a == 0x280008 || a == 0x28000C

/-- A half that goes DOWN leaves HOLD: its main rails stand on (Table SUP-3). -/
def Half.endHold (h : Half) : Half := if h.inHold then h.fset SUP_STAT_MAIN 2 else h

/-- Reset of the main domain: its registers and state return to reset, the island keeps its own (R425). (DEDUCED, log 38) -/
def Half.resetMain (h : Half) : Half :=
  { Half.reset h.id with
    regs := h.regs.filter (fun e => islandAddr e.1)
    isl := h.isl
    out := h.out }

/-! ### Transactions in flight at the Roundabout (R296, R304) -/

/-- Change the Roundabout's state. -/
def Half.modRdb (h : Half) (f : Rdb → Rdb) : Half := { h with rdb := f h.rdb }

/-- Transactions that a master port has in flight. -/
def Half.inFlight (h : Half) (m : Nat) : List Flight := h.rdb.flights.filter (fun f => f.master == m)

/-- The lowest free ID of a master port. -/
def Half.freeId (h : Half) (m : Nat) : Option Nat :=
  (List.range 256).find? (fun n => !(h.inFlight m).any (fun f => f.id == n))

/-- RDB_INFLIGHT follows the flights (Table RDB-8). -/
def Half.countFlights (h : Half) (m : Nat) : Half := h.fset RDB_INFLIGHT_COUNT (h.inFlight m).length m

/-- A transaction takes a free ID and its requests wait at their ports; while all 256 are in use the unit waits (R296). -/
def Half.launch (h : Half) (f : Flight) (rs : List Req) : Half :=
  match h.freeId f.master with
  | none => h.modRdb (fun r => { r with stalled := r.stalled ++ [(f, rs)] })
  | some n =>
    let up (q : Req) : Req := { q with since := max q.since (if f.origin.isSome then 0 else h.rdb.clock), ready := max q.ready h.rdb.clock }
    (h.modRdb (fun r => { r with flights := r.flights ++ [{ f with id := n }], waiting := r.waiting ++ rs.map up })).countFlights f.master

/-- A flight ends: its ID is free, and the first transaction waiting for one takes it. -/
def Half.landFlight (h : Half) (f : Flight) : Half :=
  let h := (h.modRdb (fun r => { r with flights := r.flights.filter (fun g => g.seq != f.seq), waiting := r.waiting.filter (fun q => q.flight != f.seq) })).countFlights f.master
  match h.rdb.stalled.find? (fun p => p.1.master == f.master) with
  | none => h
  | some p =>
    (h.modRdb (fun r => { r with stalled := r.stalled.filter (fun q => q.1.seq != p.1.seq) })).launch p.1 p.2

/-- What an errored transaction returns (R304): poisoned data, or 0xFFFFFFFF from a register. -/
def errData (x : Txn) : List Byte :=
  if x.write then [] else if x.space == .registers then List.replicate 4 0xFF else List.replicate (64 * x.beats) 0

/-- A transaction completes with an error; a write so completed is discarded (R304). -/
def Half.failFlight (h : Half) (f : Flight) : Half :=
  let h := h.landFlight f
  if f.origin.isSome then h else h.emit (.completion f.master f.id (errData f.req) (!f.req.write) true)

/-- The bridge has gone down, as this half sees it (R304): what is in flight across it completes with an error, and what arrived
over it ends. -/
def Half.bridgeLost (h : Half) : Half :=
  if !h.mainUp then h
  else
    let h := ((h.fset RDB_STAT_BRIDGE_UP 0).bump RDB_STAT_DOWNS)
    let h := h.logErr errRDB_BRIDGE_DOWN 0xFFFF (h.statusInfo errRDB_BRIDGE_DOWN 0xFFFF)
    h.fold (h.rdb.flights.filter (fun f => f.req.remote || f.origin.isSome)) Half.failFlight

/-- The die bridge goes down (R304). -/
def State.bridgeFall (s : State) : State :=
  if !s.board.bridgeUp then { s with board := { s.board with bridgeReady := false } }
  else { s with board := { s.board with bridgeUp := false, bridgeReady := false }, north := s.north.bridgeLost, south := s.south.bridgeLost }

/-- The half becomes secondary or loses the role: its drivers are disabled. -/
def Half.setRole (h : Half) (r : Nat) : Half :=
  if h.fget LSE_STAT_ROLE = r then h
  else ((h.fset LSE_STAT_ROLE r).fset DEV_HALF_ROLE r).raise 64

/-- Relinquish the role (R338): drivers disabled and RELINQUISH sent on both paths. -/
def Half.relinquish (h : Half) (newRole : Nat) : Half :=
  ((h.fset LSE_STAT_DRIVE 0).setRole newRole).emits [.relinquish .bridge, .relinquish .sideband]

/-- A half enters DOWN (R326, R425, R433): a primary relinquishes first (R338), the main domain resets, the cause is kept in
the island, the surviving island logs LSE_HALF_DOWN, and the surviving half keeps what the other takes up when it returns (R342). (DEDUCED, log 8; DEDUCED, log 38) -/
def State.enterDown (s : State) (i : HalfId) (cause : Nat) : State :=
  let h := s.half i
  if !h.mainUp then s
  else
    let h0 := h
    let h := if h.fget LSE_STAT_ROLE = 2 then h.relinquish 0 else h
    let h := h.resetMain
    let h := (((h.fset LSE_STAT_OWN 0).setRole 0).fset SUP_STAT_CAUSE cause).endHold
    let h := h.modIsl (fun x => { x with guard := false, copyFresh := false, imageOk := false, takingUp := false, rejoin := x.rejoin || cause != 4 })
    let o := s.half i.other
    let o := o.logErr errLSE_HALF_DOWN 0xFFFF (h.getN SUP_STAT)
    let o := if (List.range 16).any (fun p => h0.fget XCH_LINK_STAT_0_STATE p == 5 && o.fget XCH_LINK_STAT_0_STATE p != 5)
      then o.log errPEER_DOWN else o
    let o := if o.mainUp then { o with exy := { o.exy with peer := some ⟨h0.regs.filter (fun e => !islandAddr e.1), h0.exy.subs, h0.exy.sky, h0.exy.rings⟩ } } else o
    let t := ((s.setHalf i h).setHalf i.other o).bridgeFall
    t.setHalf i.other (Half.finish (s.half i.other) (t.half i.other))

/-- A class F error (R432): both halves DOWN, no role, no drive, until RESET_N rises or power returns. (DEDUCED, log 8) -/
def State.classF (s : State) : State :=
  let kill (h : Half) : Half :=
    let h := if h.mainUp then ((h.resetMain.fset LSE_STAT_OWN 0).fset SUP_STAT_CAUSE 6).endHold else h
    ((h.fset LSE_STAT_DRIVE 0).setRole 0).modIsl (fun x => { x with fatalF := true, guard := false })
  { s with north := kill s.north, south := kill s.south, board := { s.board with bridgeUp := false, bridgeReady := false } }

/-- Carry out the DOWN entries that errors of class H have asked for. -/
def State.settleHalf (s : State) (i : HalfId) : State :=
  match (s.half i).fatal with
  | none => s
  | some c => (s.setHalf i { s.half i with fatal := none }).enterDown i c

def State.settle (s : State) : State := (s.settleHalf .north).settleHalf .south

/-- Apply a change to a half, with what follows from it at once. -/
def State.on (s : State) (i : HalfId) (f : Half → Half) : State :=
  (s.setHalf i (Half.finish (s.half i) (f (s.half i)))).settle

/-- Apply a change to a half whose main domain works; otherwise nothing happens. (DEDUCED, log 7) -/
def State.onMain (s : State) (i : HalfId) (f : Half → Half) : State :=
  if (s.half i).mainUp then s.on i f else s

/-- Apply a change to a half whose island has power. (DEDUCED, log 7) -/
def State.onIsland (s : State) (i : HalfId) (f : Half → Half) : State :=
  if (s.half i).isl.powered then s.on i f else s

/-- The outcome of a meaning that always completes. -/
abbrev done (s : State) : Host.Outcome State Fault Refusal := .next s

/-- Use the next free value of the run. (DESIGN CHOICE, log 5) -/
def State.free (s : State) : Nat × State := (Config.freeValue s.freeCtr, { s with freeCtr := s.freeCtr + 1 })

/-- Level that a half drives on its ALIVE pin (R327, R335). -/
def Half.aliveDrive (h : Half) : Bool :=
  h.isl.powered && h.isl.ready && h.own != 0 && !h.isl.aliveOff

/-- The witness as a half reads it (R327): the other half's ALIVE pin, or asserted while WIT_FAULT. (DEDUCED, log 34) -/
def State.witness (s : State) (i : HalfId) : Bool :=
  (s.half i).flag LSE_STAT_WIT_FAULT || (s.half i.other).aliveDrive

/-- The half that is primary, if any. -/
def State.primary? (s : State) : Option HalfId :=
  if s.north.fget LSE_STAT_ROLE = 2 then some .north
  else if s.south.fget LSE_STAT_ROLE = 2 then some .south else none

end Sys2Proof.Machine
end

