-- ==== Sys2Proof/Machine/Events.lean ====
section
/-! DEFINITION. The event controller (18_event_controller.md) and the error queue's commands
(23_errors.md). -/

namespace Sys2Proof.Machine

/-! ### Selection and delivery -/

/-- The target may take the source (R346). -/
def Half.eligible (h : Half) (t n : Nat) : Bool :=
  h.routed t n && !h.flag EVC_TGT_1_MASK t && (h.tgt t).insvc.isNone && (h.tgt t).offer.isNone
    && (t < 4 || h.flag EVC_HV_MSIX_EN (t - 4) || h.fget EVC_HV_PIN (t - 4) != 0)

/-- The targets in the order of selection: ascending from the one after the target last offered (R347). -/
def Half.targetOrder (h : Half) : List Nat :=
  (List.range 12).map (fun j => (h.fget EVC_STAT_LAST + 1 + j) % 12)

/-- The first eligible target for a source (R347). -/
def Half.pickTarget (h : Half) (n : Nat) : Option Nat := h.targetOrder.find? (fun t => h.eligible t n)

/-- A source that may be offered now (R347). -/
def Half.selectable (h : Half) (n : Nat) : Bool :=
  h.pendingSrc n && h.srcEnabled n && !h.inService n && !h.offered n
    && !h.evc.holdOff.contains (n / 32) && (h.pickTarget n).isSome

/-- The message of an MSI-X entry is sent, or held while the entry or the function is masked (R357). -/
def Half.sendMsix (h : Half) (e : Nat) : Half :=
  if h.flag MSIX_3_VMASK e || h.evc.fnMask then h.putN MSIX_PBA (setBits (h.getN MSIX_PBA) e e 1)
  else h.emit (.msix e)

/-- Offer a source to a target (R347, R349, R357). -/
def Half.offer (h : Half) (n t : Nat) : Half :=
  let h := (h.setTgt t (fun x => { x with offer := some n })).fset EVC_STAT_LAST t
  let h := if h.getN EVC_HOLD (n / 32) = 0 then h
           else { h with evc := { h.evc with holdOff := (n / 32) :: h.evc.holdOff } }
  if 4 ≤ t && h.flag EVC_HV_MSIX_EN (t - 4) then h.sendMsix (t - 4) else h

/-- One selection (R347). (DESIGN CHOICE, log 51) -/
def Half.evcSelect (h : Half) : Half :=
  if !h.flag EVC_CTL_EN then h
  else match (List.range 1024).find? h.selectable with
    | none => h
    | some n => match h.pickTarget n with
      | none => h
      | some t => h.offer n t

def execEvcSelect (h : HalfId) (s : State) : Host.Outcome State Fault Refusal :=
  done (s.onMain h Half.evcSelect)

/-! ### Claim and completion -/

/-- The error code that goes with an event source, 0 when none (Table EXY-17). -/
def sourceCode (h : Half) (n : Nat) : Nat :=
  let newest (p : ErrRec → Bool) : Nat := match h.errq.recs.reverse.find? p with | some r => r.code | none => 0
  if 96 ≤ n ∧ n ≤ 99 then newest (fun r => codeClass r.code == 99 - n)
  else if n = 100 then newest (fun _ => true)
  else if 101 ≤ n ∧ n ≤ 123 then newest (fun r => codeUnit r.code == n - 100)
  else if 768 ≤ n ∧ n ≤ 799 then errINPUT_LOST
  else if 707 ≤ n ∧ n ≤ 711 then errOUT_LANE_DOWN
  else match n with
    | 6 => errSUP_THERM_TRIP
    | 7 => errSUP_AVS_LIMIT
    | 8 => errSUP_SEQ_FAIL
    | 41 => errREF_DISAGREE
    | 42 => errTIMEBASE_MISMATCH
    | 43 => errTMG_DAC_LIMIT
    | 66 => errPARTITION
    | 68 => errLSE_STALE_EPOCH
    | 69 => errLSE_UNSURE
    | 70 => errLSE_WITNESS_FAULT
    | 71 => errLSE_WD_EXPIRED
    | 451 => errFRAME_OVERRUN
    | 452 => errSHADOW_LATE
    | 454 => errLATE_SPECTRUM
    | 455 => errQUOTA_SHED
    | 458 => errOUTPUT_LATE
    | 705 => errTRW_RING_FULL
    | 712 => errOUT_LANE_SPARED
    | 800 => errSSF_CRC
    | 801 => errSSF_FORMAT
    | 802 => errSSF_MISROUTE
    | 803 => errSAMPLE_EARLY
    | 804 => errSAMPLE_DUP
    | 805 => errSAMPLE_GAP
    | 806 => errFDLY_RANGE
    | 807 => errETH_DROP
    | 864 => errCAP_OVERRUN
    | _ => 0

/-- The owning block's status register for a source (Table EXY-17). -/
def sourceDetail (h : Half) (n : Nat) : Nat :=
  if 384 ≤ n ∧ n ≤ 449 then h.getN ARC_BAY_STAT (n - 384)
  else if 128 ≤ n ∧ n ≤ 181 then h.getN LAN_STAT (n - 128)
  else if 256 ≤ n ∧ n ≤ 383 then h.getN HBM_PC_1 (n - 256)
  else if 32 ≤ n ∧ n ≤ 44 then h.getN TMG_STAT
  else if 64 ≤ n ∧ n ≤ 71 then h.getN LSE_STAT
  else 0

/-- The 16-byte entry of an event (Table EXY-17). -/
def eventEntry (h : Half) (n : Nat) : List Byte :=
  leBytes 2 (n + (match h.id with | .north => 0 | .south => 32768)) ++ leBytes 2 (sourceCode h n)
    ++ leBytes 6 h.frame ++ leBytes 2 0 ++ leBytes 4 (sourceDetail h n)

/-- Exylo queues a claimed event for every subscriber of its group (R411). -/
def Half.queueEvent (h : Half) (n : Nat) : Half :=
  h.fold (List.range 8) (fun h k =>
    if bits (h.getN LSE_DREC (10 + 4 * k)) 7 0 != 0 && bit (h.getN LSE_DREC (11 + 4 * k)) (n / 32) then
      { h with exy := { h.exy with evts := h.exy.evts.modify k (fun q =>
          if q.queue.length < 256 then { q with queue := q.queue ++ [eventEntry h n] }
          else { q with lost := q.lost + 1 }) } }
    else h)

/-- The word that a claim of source `n` returns (R350). -/
def Half.claimWord (h : Half) (n : Nat) : Nat :=
  2 ^ 31 + (if sourceLevel n && h.level n then 2 ^ 30 else 0) + n

/-- A read of CLAIM takes the standing offer into service, or returns 0 (R350); `raised` tells that the owner raises the source in the claim
cycle itself, which leaves an edge source pending (R351). -/
def Half.claimRead (h : Half) (t : Nat) (raised : Bool := false) : Word × Half :=
  match (h.tgt t).offer with
  | none => (0, h)
  | some n =>
    let w := h.claimWord n
    let h := if t < 4 then h.queueEvent n else h
    let h := h.setTgt t (fun x => { x with offer := none, insvc := some n })
    let h := if sourceLevel n || raised then h else h.setSrcBit EVC_PENDING n false
    (BitVec.ofNat 32 w, h.bumpWord EVC_TGT_5 1 t)

/-- The claim, its word returned. -/
def Half.evcClaim (h : Half) (t : Nat) (raised : Bool) : Half := (h.claimRead t raised).2.emit (.value (h.claimRead t raised).1)

def execEvcClaim (h : HalfId) (c : ClaimRead) (s : State) : Host.Outcome State Fault Refusal :=
  done (s.onMain h (fun x => x.evcClaim c.target c.raised))

/-- A write of COMPLETE (R352); a level source whose condition holds becomes pending, and wakes its cores (R355). -/
def Half.evcComplete (h : Half) (t n : Nat) : Half :=
  let was := (h.tgt t).insvc
  let ok := was == some n
  let h := h.setTgt t (fun x => { x with insvc := none })
  let h := match was with | some m => if sourceLevel m && h.level m then h.wake m else h | none => h
  if ok then h
  else ((h.bumpWord EVC_TGT_7 1 t).bump EVC_STAT_FAULTS).log errEVC_FAULT

def execEvcComplete (h : HalfId) (t n : Nat) (s : State) : Host.Outcome State Fault Refusal :=
  done (s.onMain h (fun x => if t < 12 then x.evcComplete t (n % 1024) else x))

/-- A write of EVC_SWSET (Table EVC-2). -/
def Half.evcSwset (h : Half) (n : Nat) : Half :=
  if sourceLevel n || sourceReserved n then h.log errEVC_CFG_RANGE else h.raise n

def execEvcSwset (h : HalfId) (n : Nat) (s : State) : Host.Outcome State Fault Refusal :=
  done (s.onMain h (fun x => x.evcSwset (n % 1024)))

/-- A write of word `w` of EVC_PENDING (Table EVC-3). -/
def Half.evcPendingClear (h : Half) (w : Nat) (v : Word) : Half :=
  h.fold (List.range 32) (fun h j =>
    let n := 32 * w + j
    if bit v.toNat j && !sourceLevel n && !h.offered n && !h.inService n then h.setSrcBit EVC_PENDING n false else h)

def execEvcPendingClear (h : HalfId) (w : Nat) (v : Word) (s : State) : Host.Outcome State Fault Refusal :=
  done (s.onMain h (fun x => if w < 32 then x.evcPendingClear w v else x))

def execHoldOffExpiry (h : HalfId) (g : Nat) (s : State) : Host.Outcome State Fault Refusal :=
  done (s.onMain h (fun x => { x with evc := { x.evc with holdOff := x.evc.holdOff.filter (· != g) } }))

def execCoreWfi (h : HalfId) (core : Nat) (s : State) : Host.Outcome State Fault Refusal :=
  done (s.onMain h (fun x => if core < 4 then x.setTgt core (fun y => { y with sleep := true }) else x))

/-- A mask clears: the messages held by it are sent (R357). -/
def Half.msixMaskClear (h : Half) (entry : Option Nat) : Half :=
  let h := match entry with
    | some e => if e < 8 then h.fset MSIX_3_VMASK 0 e else h
    | none => { h with evc := { h.evc with fnMask := false } }
  h.fold (List.range 8) (fun h e =>
    if bit (h.getN MSIX_PBA) e && !h.flag MSIX_3_VMASK e && !h.evc.fnMask then
      (h.putN MSIX_PBA (setBits (h.getN MSIX_PBA) e e 0)).emit (.msix e)
    else h)

def execMsixMaskClear (h : HalfId) (entry : Option Nat) (s : State) : Host.Outcome State Fault Refusal :=
  done (s.onMain h (fun x => x.msixMaskClear entry))

/-- A half pulls IRQ_N[p] low while an offer stands to a host vector routed to it (R357). -/
def Half.irqLow (h : Half) (p : Nat) : Bool :=
  (List.range 8).any (fun v => h.fget EVC_HV_PIN v == p + 1 && (h.tgt (v + 4)).offer.isSome)

/-! ### The error queue -/

def execTclkLost (s : State) : Host.Outcome State Fault Refusal :=
  done (if s.north.mainUp || s.south.mainUp then s.classF else s)

/-- Reactions of Exylo that the owning rules give: admission is recomputed at the next tick (R35). -/
def recomputeCode (code : Nat) : Bool :=
  code == errARC_BAY_FAULT || code == errARC_NO_SPARE || code == errHBM_FENCE || code == errOUT_LANE_DOWN
    || code == errOUT_NO_SPARE || code == errARC_CONTAIN

/-- Exylo takes the next record in handling order, reacts and marks it handled (R434). -/
def Half.errorHandle (h : Half) : Half :=
  match (handlingOrder h.errq.recs).find? (fun r => !r.handled) with
  | none => h
  | some r =>
    let h := if recomputeCode r.code then { h with exy := { h.exy with recompute := true } } else h
    { h with errq := { h.errq with recs := h.errq.recs.map (fun x => if x.id == r.id then { x with handled := true } else x) } }

def execErrorHandle (h : HalfId) (s : State) : Host.Outcome State Fault Refusal :=
  done (s.onMain h Half.errorHandle)

/-- The four words of ERR_HEAD for a record (Table ERR-6). -/
def errWords (r : ErrRec) : List Nat :=
  [r.code * 65536 + r.inst, r.frame % 2 ^ 32,
   (if r.handled then 2 ^ 31 else 0) + r.count * 65536 + r.frame / 2 ^ 32, r.info]

/-- A read of word 0 of ERR_HEAD latches the first record in handling order (R435). -/
def Half.headRead (h : Half) : Word × Half :=
  let r := (handlingOrder h.errq.recs).head?
  let ws := match r with | some r => errWords r | none => [0, 0, 0, 0]
  let lat (h : Half) (j : Nat) : Half :=
    { h with latch := SMap.insert h.latch (ERR_HEAD_0.base + 4 * j) (BitVec.ofNat 32 (ws.getD j 0)) }
  let h := { h with errq := { h.errq with latched := r.map (fun (x : ErrRec) => x.id) } }
  (BitVec.ofNat 32 (ws.getD 0 0), h.fold [1, 2, 3] lat)

/-- The read, its word returned. -/
def Half.errHeadRead (h : Half) : Half := h.headRead.2.emit (.value h.headRead.1)

def execErrHeadRead (h : HalfId) (s : State) : Host.Outcome State Fault Refusal :=
  done (s.onMain h Half.errHeadRead)

/-- ERR_CTL.POP removes the latched record if it is still queued (R435). -/
def Half.errPop (h : Half) : Half :=
  match h.errq.latched with
  | none => h
  | some j => { h with errq := { h.errq with recs := h.errq.recs.filter (fun r => r.id != j), latched := none } }

def execErrPop (h : HalfId) (s : State) : Host.Outcome State Fault Refusal :=
  done (s.onMain h Half.errPop)

/-- ERR_CTL.CLEAR removes every record (Table ERR-7). -/
def Half.errClear (h : Half) : Half := { h with errq := { h.errq with recs := [] } }

def execErrClear (h : HalfId) (s : State) : Host.Outcome State Fault Refusal :=
  done (s.onMain h Half.errClear)

end Sys2Proof.Machine
end

