-- ==== Sys2Proof/Machine/Geometry.lean ====
section
/-! DEFINITION. The sizes that registers select: frame, spectrum, channels, Plaza, inputs; and the histories and
shadows of TICK-class values (R31, R32, R62, R76). -/

namespace Sys2Proof.Machine

/-- F, spectra per frame (Table FRM-1). -/
def Half.fspec (h : Half) : Nat := 1024 * 2 ^ h.fget DEV_FRM_CFG_FCODE

/-- Device time in TCLK cycles as TMG_TIME shows it (R307). -/
def Half.deviceTime (h : Half) : Nat := h.getN TMG_TIME_HI * 2 ^ 32 + h.getN TMG_TIME_LO

/-- D_f, depth of the delay store in frames. -/
def Half.depth (h : Half) : Nat := h.fget DEV_FRM_CFG_DEPTH

/-- Δ (R17). -/
def Half.delta (h : Half) : Nat := h.depth + 1

/-- 8+8 format (R99). -/
def Half.fmt8 (h : Half) : Bool := h.flag DEV_FRM_CFG_FMT8

/-- b, bytes of a complex sample. -/
def Half.bps (h : Half) : Nat := if h.fmt8 then 2 else 1

/-- L (Table CHN-5). -/
def Half.fftLen (h : Half) : Nat := 1024 * 2 ^ h.fget CHN_CFG_LCODE

/-- C, fine channels. -/
def Half.chans (h : Half) : Nat := h.fftLen / 2

/-- T, taps. -/
def Half.taps (h : Half) : Nat := 4 * 2 ^ h.fget CHN_CFG_TAPS

/-- M_SK. -/
def Half.skm (h : Half) : Nat := 64 * 2 ^ h.fget CHN_CFG_SKM

def Half.guardSpec (h : Half) : Nat := h.fget CHN_PWR_CFG_GUARD

/-- Position mode (Table ING-1). -/
def Half.pmode (h : Half) : Nat := h.fget ING_CTL_PMODE

/-- Complex inputs. -/
def Half.isComplex (h : Half) : Bool := h.pmode == 2

/-- L_in, samples per spectrum of an input. -/
def Half.lin (h : Half) : Nat := if h.isComplex then h.fftLen / 2 else h.fftLen

/-- M, devices of the Plaza (Table XCH-7). -/
def Half.devices (h : Half) : Nat := 2 ^ h.fget XCH_CFG_MCODE

/-- The device's ordinal. -/
def Half.ord (h : Half) : Nat := h.fget XCH_CFG_ORD

/-- Code of a half in a block header. -/
def halfBit : HalfId → Nat
  | .north => 0
  | .south => 1

/-- Serial lane λ beside its registers. -/
def Half.lane (h : Half) (lam : Nat) : Lane := SMap.getD h.lanes lam Lane.reset

def Half.setLane (h : Half) (lam : Nat) (f : Lane → Lane) : Half := { h with lanes := SMap.modify h.lanes lam Lane.reset f }

/-- Serial lane λ is in service (R261). -/
def Half.laneUp (h : Half) (lam : Nat) : Bool := h.fget LAN_STAT_STATE lam == 3 || h.fget LAN_STAT_STATE lam == 4

/-- What its consumer sends leaves on lane λ: it is in service, and neither far-end loopback nor the pattern generator takes its place
(R269, Table LAN-5). -/
def Half.laneSends (h : Half) (lam : Nat) : Bool := h.laneUp lam && h.fget LAN_TEST_LOOP lam != 2 && h.fget LAN_TEST_GEN lam == 0

/-- Send `bs` on lane λ; in near-end loopback it is on its way to the lane's own receiver too (R269). -/
def Half.sendOn (h : Half) (lam : Nat) (bs : List Byte) (e : Emission) : Half :=
  if h.laneSends lam then
    (if h.fget LAN_TEST_LOOP lam = 1 then h.setLane lam (fun x => { x with sent := x.sent ++ [bs] }) else h).emit e
  else h

/-- Lane λ would hand `bs` to its consumer: no checker runs (R268), and in near-end loopback its own transmitter sent them (R269). -/
def Half.laneDelivers (h : Half) (lam : Nat) (bs : List Byte) : Bool :=
  h.fget LAN_TEST_CHK lam == 0 && (h.fget LAN_TEST_LOOP lam != 1 || (h.lane lam).sent.contains bs)

/-- The consumer of lane λ receives `bs` (R261, R268, R269). -/
def Half.laneHears (h : Half) (lam : Nat) (bs : List Byte) : Bool := h.laneUp lam && h.laneDelivers lam bs

/-- `bs` has come back on a lane in near-end loopback. -/
def Half.heard (h : Half) (lam : Nat) (bs : List Byte) : Half :=
  if h.fget LAN_TEST_LOOP lam = 1 then h.setLane lam (fun x => { x with sent := x.sent.erase bs }) else h

/-- C_h, fine channels of a half. -/
def Half.ownChans (h : Half) : Nat := h.chans / (2 * h.devices)

/-- First fine channel that a half of device `d` owns (R13). -/
def Half.firstChanOf (h : Half) (d : Nat) (id : HalfId) : Nat :=
  d * (h.chans / h.devices) + (match id with | .north => 0 | .south => h.ownChans)

/-- First fine channel of this half. -/
def Half.firstChan (h : Half) : Nat := h.firstChanOf h.ord h.id

/-- Inputs of the device (R12). -/
def Half.devInputs (h : Half) : Nat := if h.pmode = 1 then 512 else 256

/-- N, inputs of the Plaza. -/
def Half.plazaInputs (h : Half) : Nat := h.devInputs * h.devices

/-- N_h, local inputs of a half. -/
def Half.ownInputs (h : Half) : Nat := h.devInputs / 2

/-- Plaza index of the half's input with dense index `q'` (R12, R102). -/
def Half.plazaIndex (h : Half) (dense : Nat) : Nat :=
  h.ord * h.devInputs + (match h.id with | .north => 0 | .south => h.ownInputs) + dense

/-- Dense index of input q, where it exists (R102). -/
def Half.dense (h : Half) (q : Nat) : Option Nat :=
  if 256 ≤ q then none else if h.pmode = 1 then some q else if q % 2 = 0 then some (q / 2) else none

/-- Input q of a dense index. -/
def Half.qOf (h : Half) (dense : Nat) : Nat := if h.pmode = 1 then dense else 2 * dense

/-- Input q of this half with a Plaza index, if it is one of its own. -/
def Half.qOfPlaza (h : Half) (i : Nat) : Option Nat :=
  let base := h.plazaIndex 0
  if base ≤ i && i < base + h.ownInputs then some (h.qOf (i - base)) else none

/-- First 64-input block that a subarray's inputs (ascending) take, and how many (R36): the blocks from the first to the last. -/
def firstBlk64 (xs : List Nat) : Nat := xs.headD 0 / 64
def blocks64 (xs : List Nat) : Nat := if xs.isEmpty then 0 else xs.getLast?.getD 0 / 64 + 1 - firstBlk64 xs

/-- K32: 32-input blocks from the start of the first 64-block to the last input's (R139). -/
def blocks32 (xs : List Nat) : Nat := if xs.isEmpty then 0 else xs.getLast?.getD 0 / 32 + 1 - 2 * firstBlk64 xs

/-- The invalid code (R100). -/
def Half.invalidCode (h : Half) : Nat := if h.fmt8 then 0x8080 else 0x88

/-- A code that the Arcade decodes as invalid (R100). -/
def codeInvalid (fmt8 : Bool) (c : Nat) : Bool :=
  if fmt8 then bits c 7 0 == 0x80 || bits c 15 8 == 0x80 else bits c 3 0 == 8 || bits c 7 4 == 8

/-- The components of a valid code (R99). -/
def decodeCode (fmt8 : Bool) (c : Nat) : Int × Int :=
  if fmt8 then (sext 8 (bits c 7 0), sext 8 (bits c 15 8)) else (sext 4 (bits c 3 0), sext 4 (bits c 7 4))

/-! ### TICK-class values -/

/-- What a read returns of a TICK-class word: its shadow, the newest write first (R8). -/
def Half.getShadow (h : Half) (r : RegDef) (i : Nat := 0) : Word :=
  match SMap.find? h.shadowLate (r.at i) with
  | some w => w
  | none => match SMap.find? h.shadow (r.at i) with
    | some w => w
    | none => h.get r i

/-- A TICK-class write landed inside the hand-over window (R31). -/
def Half.noteShadowLate (h : Half) : Half :=
  ((h.fset DEV_SHDW_CTL_SHADOW_LATE 1).raise 452).log errSHADOW_LATE

/-- A TICK-class write: to the shadow, or past it when it completes inside the window, which sets SHADOW_LATE
(R31). (DEDUCED, log 15) -/
def Half.putShadow (h : Half) (addr : Nat) (w : Word) (late : Bool) : Half :=
  if late then ({ h with shadowLate := SMap.insert h.shadowLate addr w } : Half).noteShadowLate
  else { h with shadow := SMap.insert h.shadow addr w }

/-- The oldest tag that a history still holds: that of the 17th last hand-over, or of the first (R62, R76). -/
def Half.histFloor (h : Half) : Nat := h.hoTicks.getLast?.getD 0

/-- The value a stream at frame `k` uses: the newest not tagged above k, or the oldest kept (R62, R76, R95). -/
def Half.histGet (h : Half) (r : RegDef) (i k : Nat) : Word :=
  let k := max k h.histFloor
  match (SMap.getD h.hist (r.at i) []).find? (fun e => e.1 ≤ k) with
  | some e => e.2
  | none => BitVec.ofNat 32 (regReset h.id r i)

/-- Keep a handed-over value in its history, dropping what no stream can use any more. -/
def histPush (floor k : Nat) (w : Word) (xs : List (Nat × Word)) : List (Nat × Word) :=
  let xs := (k, w) :: xs.filter (fun e => e.1 != k)
  xs.filter (fun e => floor ≤ e.1) ++ (xs.find? (fun e => e.1 < floor)).toList

/-- A word of the model entry that a stream at frame `k` uses: entries hand over only when armed, and each input keeps
its own last 17; below the oldest of 17 it is that one, and while fewer have been handed over the reset entry (R62, R94, R95). -/
def Half.modelGet (h : Half) (r : RegDef) (q k : Nat) : Nat :=
  let xs := SMap.getD h.hist (r.at q) []
  match xs.find? (fun e => e.1 ≤ k) with
  | some e => e.2.toNat
  | none => if xs.length < 17 then regReset h.id r q else (xs.getLast?.map (fun e => e.2.toNat)).getD (regReset h.id r q)

/-- A field of a history value. -/
def Half.histField (h : Half) (f : Fld) (i k : Nat) : Nat := bits (h.histGet f.reg i k).toNat f.hi f.lo

/-- A 64-bit two's-complement value held in two words of the model entry. -/
def Half.model64 (h : Half) (lo hi : RegDef) (q k : Nat) : Int :=
  sext 64 (h.modelGet lo q k + h.modelGet hi q k * 2 ^ 32)

end Sys2Proof.Machine
end

