-- ==== Sys2Proof/Machine/Ingest.lean ====
section
/-! DEFINITION. Sample ingest (03_ingest.md): the checks of Table ING-3, Ethernet framing, gaps, and the samples that
reach the front delay. -/

namespace Sys2Proof.Machine

def Half.inp (h : Half) (q : Nat) : Inp := SMap.getD h.front.inputs q Inp.reset

def Half.setInp (h : Half) (q : Nat) (f : Inp → Inp) : Half :=
  { h with front := { h.front with inputs := SMap.modify h.front.inputs q Inp.reset f } }

/-- An ingest condition: its lane counter, its event once per tick interval, its error code (R65). -/
def Half.ingNote (h : Half) (lane : Nat) (cnt : RegDef) (src code : Nat) (n : Nat := 1) : Half :=
  ((h.bumpWord cnt n lane).raiseOnce src).log code

/-- The logical lane that a physical lane feeds (R51): the lowest that names it. -/
def Half.logicalLane (h : Half) (phys : Nat) : Option Nat :=
  (List.range 32).find? (fun n => h.fget ING_LANE_CFG_SRC n == phys)

/-- The logical lane is in block lock and aligned (R61): its physical lane is in service. -/
def Half.laneLocked (h : Half) (n : Nat) : Bool := h.laneUp (h.fget ING_LANE_CFG_SRC n)

/-- The mode of the physical lane agrees with FRAMING (R255). -/
def Half.laneModeOk (h : Half) (n : Nat) : Bool :=
  h.fget LAN_CFG_MODE (h.fget ING_LANE_CFG_SRC n) == h.fget ING_LANE_CFG_FRAMING n

/-- ING_LOCK as it reads (Table ING-7). -/
def Half.ingLock (h : Half) : Nat := bitmap ((List.range 32).filter h.laneLocked)

/-- Frames of the logical lane are received (R64, R255). -/
def Half.laneReceives (h : Half) (n : Nat) : Bool :=
  h.flag ING_CTL_RUN && h.flag ING_LANE_CFG_EN n && h.laneModeOk n

/-- Ethernet framing on the logical lane (R49). -/
def Half.laneEth (h : Half) (n : Nat) : Bool := h.flag ING_LANE_CFG_FRAMING n

/-- Input q of a lane's slot and stream bit. -/
def ssfInput (lane slot sbit : Nat) : Nat := 2 * (4 * lane + slot) + sbit

/-- Plaza index of input q (R12). -/
def Half.inputIndex (h : Half) (q : Nat) : Nat := h.plazaIndex (if h.pmode = 1 then q else q / 2)

/-- The format check of Table ING-3 passes (R52, R54). -/
def Half.ssfFormatOk (h : Half) (lane : Nat) (bs : List Byte) : Bool :=
  let fmt := bits (byteAt bs 3) 3 2
  let code := bits (byteAt bs 7) 1 0
  let len := 512 * 2 ^ code
  let cplx := fmt == 1
  fieldAt bs 0 2 == 0x5346 && byteAt bs 2 == 1 && bits (byteAt bs 3) 7 4 == 0 && bits (fieldAt bs 4 2) 15 13 == 0
    && bits (byteAt bs 6) 7 3 == 0 && bits (byteAt bs 7) 7 2 == 0 && fieldAt bs 20 4 == 0
    && fmt == b2n h.isComplex && code == h.fget ING_LANE_CFG_SFCODE lane && !(cplx && 2048 < len)
    && bs.length == 28 + (if cplx then 3 * len else 3 * len / 2) && fieldAt bs 8 8 % len == 0

/-- The routing check of Table ING-3 passes. -/
def Half.ssfRouteOk (h : Half) (lane : Nat) (bs : List Byte) : Bool :=
  let slot := bits (byteAt bs 6) 1 0
  let sbit := bits (byteAt bs 6) 2 2
  !(h.laneEth lane && 2 ≤ slot) && !(sbit == 1 && h.pmode != 1)
    && bits (fieldAt bs 4 2) 12 0 == h.inputIndex (ssfInput lane slot sbit)

/-- The counters of `[c, c + len)` that are neither accepted nor closed start here; none if there are none
(check 6 of Table ING-3). What lies below the counter at which the stream opened is neither, and counts as already taken. (DEDUCED,
log 11) -/
def Inp.firstNew (x : Inp) (c len : Nat) : Option Nat :=
  if x.opened.isNone || x.top ≤ c then some c
  else match x.gaps.find? (fun g => c < g.hi && g.lo < c + len) with
    | some g => some (max c g.lo)
    | none => if x.top < c + len then some x.top else none

/-- An open gap after the frame `[c, e)` was accepted: what is left of it, with the frames beyond it counted. -/
def gapAfter (c e : Nat) (g : Gap) : List Gap :=
  if g.hi ≤ c then [{ g with beyond := g.beyond + 1 }]
  else if e ≤ g.lo then [g]
  else (if g.lo < c then [⟨g.lo, c, g.beyond + 1⟩] else []) ++ (if e < g.hi then [⟨e, g.hi, g.beyond⟩] else [])

/-- Gaps of an Ethernet-mode input close once 16 frames beyond them are accepted (R60). -/
def Gap.due (g : Gap) : Bool := 16 ≤ g.beyond

/-- Close the gaps that `p` picks: the stream moves up to the first that stays open, and the samples closed. -/
def Inp.closeGaps (x : Inp) (p : Gap → Bool) : Inp × Nat :=
  let keep := x.gaps.filter (fun g => !p g)
  let lost := ((x.gaps.filter p).map (fun g => g.hi - g.lo)).sum
  ({ x with gaps := keep, frontier := match keep with | g :: _ => g.lo | [] => x.top }, lost)

/-- Place an accepted frame in an input's stream (R60): the stream, and the samples closed as missing. (DEDUCED, log 11) -/
def Inp.accept (x : Inp) (eth : Bool) (c len lo : Nat) (valid : Bool) (payload : List Byte) : Inp × Nat :=
  let e := c + len
  let x := if x.opened.isNone then { x with opened := some c, frontier := c, top := c, gaps := [] } else x
  let x := { x with ssfs := SMap.insert x.ssfs lo ⟨c, len, lo, valid, payload⟩,
                    nmax := some (max (x.nmax.getD 0) e), got := true }
  let gaps := x.gaps.flatMap (gapAfter c e) ++ (if x.top < c then [⟨x.top, c, 1⟩] else [])
  let x := { x with gaps := gaps, top := max x.top e }
  x.closeGaps (fun g => !eth || g.due)

/-- The front delays that the output stream takes up as it passes spectrum boundaries (R62): `b` is the last block that began, with delay `d`;
a boundary is passed once its counter is below the stream's end. -/
def Half.passBoundaries (h : Half) (q frontier : Nat) : Nat → Nat → Nat → SMap Nat → SMap Nat
  | 0, _, _, m => m
  | fuel + 1, b, d, m =>
    if (b + 1) * h.lin ≤ frontier + d then
      let d' := h.histField ING_FDLY_DELAY q ((b + 1) / h.fspec)
      Half.passBoundaries h q frontier fuel (b + 1) d' (SMap.insert m (b + 1) d')
    else m

/-- The stream of an input has moved: it fixes the front delay of every output block whose boundary it has reached (R62); the first is the block
in which it opened. (DEDUCED, log 12) -/
def Half.setStream (h : Half) (q : Nat) (x : Inp) : Half :=
  match x.opened with
  | none => h.setInp q (fun _ => x)
  | some o =>
    let d0 := h.histField ING_FDLY_DELAY q (o / h.lin / h.fspec)
    let (b, d) := x.fdly.getLast?.getD ((o + d0) / h.lin, d0)
    h.setInp q (fun _ => { x with fdly := h.passBoundaries q x.frontier (x.frontier / h.lin + 2 - b) b d (SMap.insert x.fdly b d) })

/-- Record closed samples (R60). -/
def Half.noteGap (h : Half) (lane lost : Nat) : Half :=
  if lost = 0 then h else h.ingNote lane ING_LANE_CNT_5 805 errSAMPLE_GAP lost

/-- Check an SSF received on a logical lane in the order of Table ING-3 and accept it (R56). (DEDUCED, log 11) -/
def Half.ssf (h : Half) (lane : Nat) (integrityOk : Bool) (bs : List Byte) : Half :=
  let q := ssfInput lane (bits (byteAt bs 6) 1 0) (bits (byteAt bs 6) 2 2)
  let c := fieldAt bs 8 8
  let len := 512 * 2 ^ bits (byteAt bs 7) 1 0
  if !integrityOk || !crcGood bs then h.ingNote lane ING_LANE_CNT_1 800 errSSF_CRC
  else if !h.ssfFormatOk lane bs then h.ingNote lane ING_LANE_CNT_2 801 errSSF_FORMAT
  else if !h.ssfRouteOk lane bs then h.ingNote lane ING_LANE_CNT_3 802 errSSF_MISROUTE
  else if (h.frame + 2) * h.fspec * h.lin < c + len then h.ingNote lane ING_LANE_CNT_6 803 errSAMPLE_EARLY
  else match (h.inp q).firstNew c len with
    | none => h.ingNote lane ING_LANE_CNT_4 804 errSAMPLE_DUP
    | some lo =>
      let (x, lost) := (h.inp q).accept (h.laneEth lane) c len lo (!bit (byteAt bs 3) 0) ((bs.drop 24).take (bs.length - 28))
      let h := (h.setStream q x).bumpWord ING_LANE_CNT_0 1 lane
      let h := h.putN ING_POS_SRC_0 (fieldAt bs 16 4) q
      let h := if bit (byteAt bs 3) 1 then h.bumpWord ING_POS_SRC_1 1 q else h
      h.noteGap lane lost

/-- R56, R61, R64: a frame on a physical lane in Olnaip mode; nothing is received from the loss of block lock until the
lane is aligned again, but a frame part of which came before the loss fails check 1. -/
def execSsfReceived (i : HalfId) (phys : Nat) (integrity : Integrity) (bs : List Byte) (s : State) :
    Host.Outcome State Fault Refusal :=
  done (s.onMain i (fun h =>
    match h.logicalLane phys with
    | none => h
    | some n =>
      if h.laneReceives n && !h.laneEth n && (if h.laneLocked n then h.laneDelivers phys bs else integrity == .bad)
      then (h.heard phys bs).ssf n (integrity == .good) bs else h))

/-! ### Ethernet framing (R57) -/

/-- The UDP payload of an Ethernet frame without its FCS, with destination MAC, tag and UDP port; none unless the frame is
what R57 lets through: at most one tag, plain IPv4 or IPv6, UDP with a good checksum. -/
structure UdpFrame where
  dst : Nat
  src : List Byte
  tag : Option Nat
  srcIp : List Byte
  dstIp : List Byte
  srcPort : Nat
  dstPort : Nat
  payload : List Byte
  deriving DecidableEq, Repr

/-- The UDP datagram of an IP packet: addresses, and the segment; `v4` allows a zero checksum. (PRESUMED, log 41) -/
def udpSegment (srcIp dstIp seg : List Byte) (v4 : Bool) : Option (Nat × Nat × List Byte) :=
  let len := fieldBe seg 4 2
  let body := seg.take len
  let pseudo := srcIp ++ dstIp ++ (if v4 then [0, 17] ++ beBytes 2 len else beBytes 4 len ++ [0, 0, 0, 17])
  let sum := fieldBe seg 6 2
  if len < 8 || seg.length < len then none
  else if (sum == 0 && v4) || (sum != 0 && inetGood (pseudo ++ body)) then
    some (fieldBe seg 0 2, fieldBe seg 2 2, body.drop 8)
  else none

/-- Parse an IP packet of the EtherType into source, destination and UDP segment. (PRESUMED, log 41) -/
def ipUdp (etype : Nat) (ip : List Byte) : Option (List Byte × List Byte × Nat × Nat × List Byte) :=
  if etype = 0x0800 then
    let total := fieldBe ip 2 2
    if byteAt ip 0 == 0x45 && 20 ≤ total && total ≤ ip.length && inetGood (ip.take 20)
        && fieldBe ip 6 2 % 0x4000 == 0 && byteAt ip 9 == 17 then
      (udpSegment (slice ip 12 4) (slice ip 16 4) ((ip.take total).drop 20) true).map
        (fun (a, b, p) => (slice ip 12 4, slice ip 16 4, a, b, p))
    else none
  else if etype = 0x86DD then
    let len := fieldBe ip 4 2
    if byteAt ip 0 / 16 == 6 && 40 + len ≤ ip.length && byteAt ip 6 == 17 then
      (udpSegment (slice ip 8 16) (slice ip 24 16) ((ip.drop 40).take len) false).map
        (fun (a, b, p) => (slice ip 8 16, slice ip 24 16, a, b, p))
    else none
  else none

/-- An EtherType that announces a tag. -/
def tagType (t : Nat) : Bool := t == 0x8100 || t == 0x88A8

def parseUdpFrame (bs : List Byte) : Option UdpFrame :=
  let t0 := fieldBe bs 12 2
  let tagged := t0 == 0x8100
  let ofs := if tagged then 18 else 14
  let etype := fieldBe bs (ofs - 2) 2
  if bs.length < ofs || t0 == 0x88A8 || tagType etype then none
  else (ipUdp etype (bs.drop ofs)).map (fun (sip, dip, sp, dp, p) =>
    ⟨fieldBe bs 0 6, slice bs 6 6, if tagged then some (fieldBe bs 14 2 % 4096) else none, sip, dip, sp, dp, p⟩)

/-- The MAC address of ingest (Table ING-5). -/
def Half.ingMac (h : Half) : Nat := h.fget ING_MAC_HI_MAC_HI * 2 ^ 32 + h.getN ING_MAC_LO

/-- A multicast address: the group bit of the first octet. -/
def macMulticast (m : Nat) : Bool := bit m 40

/-- R57: the frame is accepted, and its payload. -/
def Half.ethPayload (h : Half) (fcsOk : Bool) (bs : List Byte) : Option (List Byte) :=
  match (if fcsOk then parseUdpFrame bs else none) with
  | none => none
  | some f =>
    if ((f.dst == h.ingMac && h.ingMac != 0) || (macMulticast f.dst && h.flag ING_ETH_CFG_MCAST_EN))
        && (!h.flag ING_ETH_CFG_VLAN_EN || f.tag == some (h.fget ING_ETH_CFG_VLAN_ID))
        && f.dstPort == h.fget ING_ETH_CFG_UDP_PORT then some f.payload
    else none

/-- R57, R61, R260: an Ethernet frame (without its FCS) on a physical lane. While the lane is not locked a frame is not received, but one that
the loss of lock cut short fails check 1; a frame with a block marked bad fails it where the frame is accepted. (DEDUCED, log 11) -/
def execEthFrameReceived (i : HalfId) (phys : Nat) (marks : FrameMarks) (bs : List Byte) (s : State) :
    Host.Outcome State Fault Refusal :=
  done (s.onMain i (fun h =>
    match h.logicalLane phys with
    | none => h
    | some n =>
      if !(h.laneReceives n && h.laneEth n) then h
      else if !h.laneLocked n then (if marks.integrity = .bad then h.ssf n false bs else h)
      else if !h.laneDelivers phys bs then h
      else match h.ethPayload marks.fcsOk bs with
        | none => (h.heard phys bs).ingNote n ING_LANE_CNT_7 807 errETH_DROP
        | some p => (h.heard phys bs).ssf n (marks.integrity == .good) p))

/-- R60: 100 µs have passed since the first frame beyond the oldest open gap of an Ethernet-mode input; also while the lane is stopped,
since R64 stops what is received and names no gap. (DEDUCED, log 11) -/
def execEthGapTimeout (i : HalfId) (q : Nat) (s : State) : Host.Outcome State Fault Refusal :=
  done (s.onMain i (fun h =>
    match (h.inp q).gaps with
    | [] => h
    | g :: _ =>
      let (x, lost) := (h.inp q).closeGaps (· == g)
      (h.setStream q x).noteGap (q / 8) lost))

/-- R64: ING_CTL.RUN, or the EN of a lane, is cleared. -/
def execIngRunClear (i : HalfId) (lane : Option Nat) (s : State) : Host.Outcome State Fault Refusal :=
  done (s.onMain i (fun h =>
    match lane with
    | none => h.fset ING_CTL_RUN 0
    | some n => if n < 32 then h.fset ING_LANE_CFG_EN 0 n else h))

/-- ING_CTL.RUN is set: the stream of every input opens anew at its next frame (R60). (DEDUCED, log 12) -/
def Half.ingRunSet (h : Half) : Half :=
  { h with front := { h.front with inputs := h.front.inputs.map (fun (q, x) =>
      (q, { x with opened := none, frontier := 0, top := 0, gaps := [], ssfs := [], fdly := [] })) } }

/-! ### Samples -/

/-- Sample `n` of a payload (R53). -/
def payloadSample (cplx : Bool) (p : List Byte) (n : Nat) : Int × Int :=
  let g := fieldAt p (if cplx then 3 * n else 3 * (n / 2)) 3
  if cplx then (sext 12 (bits g 11 0), sext 12 (bits g 23 12))
  else (sext 12 (if n % 2 = 0 then bits g 11 0 else bits g 23 12), 0)

/-- Input sample `n` of the stream: none if it is missing (R59). -/
def Inp.sampleAt (x : Inp) (cplx : Bool) (n : Int) : Option (Int × Int) :=
  match List.find? (fun (e : Nat × Ssf) => (e.2.lo : Int) ≤ n && n < ((e.2.counter + e.2.len : Nat) : Int)) x.ssfs with
  | none => none
  | some (_, f) => if f.valid then some (payloadSample cplx f.payload (n.toNat - f.counter)) else none

end Sys2Proof.Machine
end

