-- ==== Sys2Proof/Machine/Numeric.lean ====
section
/-! DEFINITION. Exact arithmetic of the signal path: sines and cosines to 2^-120 for the tables that the spec
rounds to integers (R67, R72, R98), binary32 with rounding to nearest even (R80, R84), and the fixed-point
transform of R66. -/

namespace Sys2Proof.Machine

/-! ### Sine and cosine -/

/-- Fraction bits of the fixed-point constants. -/
def fixBits : Nat := 120

/-- Alternating series of atan(1/k) at 2^-fixBits, `term` being the running power. -/
def atanInvAux : Nat → Int → Nat → Nat → Int
  | 0, _, _, _ => 0
  | n + 1, term, k, j => term / (2 * j + 1) - atanInvAux n (term / ((k * k : Nat) : Int)) k (j + 1)

/-- π at 2^-fixBits (Machin's formula). -/
def piFix : Int :=
  16 * atanInvAux 60 (2 ^ fixBits / 5) 5 0 - 4 * atanInvAux 20 (2 ^ fixBits / 239) 239 0

/-- The series 1 - x²/((a+1)(a+2)) + ..., scaled by `term`. -/
def trigSeries : Nat → Int → Int → Nat → Int
  | 0, _, _, _ => 0
  | n + 1, term, x2, a =>
    term - trigSeries n (term * x2 / 2 ^ fixBits / ((a + 1) * (a + 2) : Nat)) x2 (a + 2)

/-- (cos, sin) of `num/den` turns at 2^-fixBits. (PRESUMED, log 14) -/
def cosSin (num den : Nat) : Int × Int :=
  let t := num % den
  let quad := 4 * t / den
  let r := 4 * t % den
  let x := piFix * r / (2 * den)
  let x2 := x * x / 2 ^ fixBits
  let c := trigSeries 30 (2 ^ fixBits) x2 0
  let s := trigSeries 30 x x2 1
  match quad with
  | 0 => (c, s)
  | 1 => (-s, c)
  | 2 => (-c, -s)
  | _ => (s, -c)

/-- (cos, sin) of `num/den` turns times `amp`, each rounded to the nearest integer. -/
def cosSinInt (amp num den : Nat) : Int × Int :=
  let (c, s) := cosSin num den
  (rneShr (amp * c) fixBits, rneShr (amp * s) fixBits)

/-- The built-in prototype coefficient h[n] for `t` taps of `l` (R72): Hann-windowed sinc. (PRESUMED, log 14) -/
def builtinCoef (t l n : Nat) : Int :=
  let m : Int := 2 * n - t * l + 1
  let a := m.natAbs
  let (_, sx) := cosSin a (4 * l)
  let (_, sw) := cosSin (2 * n + 1) (4 * t * l)
  let w2 := sw * sw / 2 ^ fixBits
  -- 131071 · (sin πx / πx) · sin²; πx = π·a/(2l)
  let px := piFix * a / (2 * l)
  rneDiv (131071 * sx * w2) (px.toNat * 2 ^ fixBits)

/-! ### binary32: a value is an integer count of 2^-149 -/

/-- `num/den` units of 2^-149 rounded to a binary32 value, ties to even. (PRESUMED, log 14) -/
def f32Round (num : Int) (den : Nat) : Int :=
  let b := Nat.log2 (num.natAbs / den) + 1
  if b ≤ 24 then rneDiv num den else rneDiv num (den * 2 ^ (b - 24)) * 2 ^ (b - 24)

/-- A natural converted to binary32. -/
def f32OfNat (n : Nat) : Int := f32Round ((n : Int) * 2 ^ 149) 1

/-- The quotient of two naturals rounded once to binary32. (PRESUMED, log 14) -/
def f32OfRatio (n d : Nat) : Int := f32Round ((n : Int) * 2 ^ 149) d

def f32Add (a b : Int) : Int := f32Round (a + b) 1
def f32Mul (a b : Int) : Int := f32Round (a * b) (2 ^ 149)

/-- Quotient by a positive value. -/
def f32Div (a b : Int) : Int := f32Round (a * 2 ^ 149) b.toNat

/-- The IEEE 754 encoding of a value. -/
def f32Bits (v : Int) : Nat :=
  let n := v.natAbs
  let sign := if v < 0 then 2 ^ 31 else 0
  if n < 2 ^ 23 then sign + n
  else
    let e := Nat.log2 n - 23
    if 253 < e then sign + 0x7F800000 else sign + (e + 1) * 2 ^ 23 + (n / 2 ^ e - 2 ^ 23)

/-! ### The transform of R66 -/

/-- A complex integer. -/
abbrev Cplx := Int × Int

def cAdd (a b : Cplx) : Cplx := (a.1 + b.1, a.2 + b.2)
def cSub (a b : Cplx) : Cplx := (a.1 - b.1, a.2 - b.2)
def cMulExact (a b : Cplx) : Cplx := (a.1 * b.1 - a.2 * b.2, a.1 * b.2 + a.2 * b.1)
def cRne (a : Cplx) (k : Nat) : Cplx := (rneShr a.1 k, rneShr a.2 k)

/-- Saturation bound of the channelizer. -/
def satMax : Int := 131071

def satC (a : Cplx) : Cplx := (clamp (-satMax) satMax a.1, clamp (-satMax) satMax a.2)

/-- cmul of R66, bypassed for twiddle index 0. -/
def cmulTw (a : Cplx) (w : Array Cplx) (k : Nat) : Cplx :=
  if k = 0 then a else cRne (cMulExact a (w.getD k (0, 0))) 17

/-- The twiddles 131071·(cos 2πk/n, −sin 2πk/n) for k below `cnt` (R67). (PRESUMED, log 14) -/
def twiddles (n cnt : Nat) : Array Cplx :=
  Array.ofFn (n := cnt) (fun k => let (c, s) := cosSinInt 131071 k.val n; (c, -s))

/-- An array with, for each step that saturated, its number (most recent first). -/
structure Xform where
  z : Array Cplx
  sats : List Nat

/-- Saturate every value of an array, noting the step where any changes. -/
def satStep (step : Nat) (z : Array Cplx) (sats : List Nat) : Xform :=
  let z' := z.map satC
  ⟨z', if z' == z then sats else step :: sats⟩

/-- Stage `st` of the decimation-in-frequency transform of `len` points. -/
def fftStage (len : Nat) (w : Array Cplx) (scale : Nat) (x : Xform) (st : Nat) : Xform :=
  let half := len / 2 ^ (st + 1)
  let sh := b2n (bit scale st)
  let z := Array.ofFn (n := len) (fun i =>
    let i := i.val
    if i % (2 * half) < half then
      cRne (cAdd (x.z.getD i (0, 0)) (x.z.getD (i + half) (0, 0))) sh
    else
      let a := i - half
      cRne (cmulTw (cSub (x.z.getD a (0, 0)) (x.z.getD i (0, 0))) w ((a % (2 * half)) * 2 ^ st)) sh)
  satStep st z x.sats

/-- Reverse the low `n` bits. -/
def bitRev : Nat → Nat → Nat
  | 0, _ => 0
  | n + 1, x => (x % 2) * 2 ^ n + bitRev n (x / 2)

/-- The spectrum of a real block of polyphase sums `p` of length `l` (R66). -/
def realTransform (l scale : Nat) (p : Xform) : Xform :=
  let len := l / 2
  let n := Nat.log2 len
  let z := Array.ofFn (n := len) (fun m => ((p.z.getD (2 * m.val) (0, 0)).1, (p.z.getD (2 * m.val + 1) (0, 0)).1))
  let w := twiddles len (len / 2)
  let x := (List.range n).foldl (fftStage len w scale) ⟨z, p.sats⟩
  let zz := Array.ofFn (n := len) (fun i => x.z.getD (bitRev n i.val) (0, 0))
  let wl := twiddles l len
  let sh := b2n (bit scale n)
  let y := Array.ofFn (n := len) (fun c =>
    let a := zz.getD c.val (0, 0)
    let b := zz.getD ((len - c.val) % len) (0, 0)
    let bc : Cplx := (b.1, -b.2)
    let e := cRne (cAdd a bc) 1
    let o := cmulTw (cRne (cSub a bc) 1) wl c.val
    -- e - j·o
    cRne (e.1 + o.2, e.2 - o.1) sh)
  satStep n y x.sats

/-- The spectrum of a complex block (R67), as transform terms. -/
def complexTransform (len scale : Nat) (p : Xform) : Xform :=
  let n := Nat.log2 len
  let w := twiddles len (len / 2)
  let x := (List.range n).foldl (fftStage len w scale) p
  satStep n (Array.ofFn (n := len) (fun i => x.z.getD (bitRev n i.val) (0, 0))) x.sats

end Sys2Proof.Machine
end

