-- ==== Sys2Proof/Machine/Channelizer.lean ====
section
/-! DEFINITION. Channelizer and flagger (04_channelizer.md): the spectrum of an input from its samples, the power
flag and its mean, spectral kurtosis, the coefficient table. -/

namespace Sys2Proof.Machine

/-- Coefficient h[n] of the prototype in use (R72): the symmetric half that the table or the built-in prototype gives. (DEDUCED, log 13) -/
def Half.coef (h : Half) (n : Nat) : Int :=
  let tl := h.taps * h.fftLen
  let e := if n < tl / 2 then n else tl - 1 - n
  if h.flag CHN_CFG_PROTO then SMap.getD h.front.coef e 0 else builtinCoef h.taps h.fftLen e

/-- The coefficient that multiplies sample `j` of the span of a spectrum (R66): every second one for a complex input. -/
def Half.spanCoef (h : Half) (j : Nat) : Int := h.coef (if h.isComplex then 2 * j else j)

/-- Front delay in use for output block `b` of an input (R62): what the stream took at the block's boundary (Half.setStream). (DEDUCED, log 12) -/
def Half.blockDelay (h : Half) (x : Inp) (q b : Nat) : Nat :=
  match SMap.find? x.fdly b with
  | some d => d
  | none => h.histField ING_FDLY_DELAY q (b / h.fspec)

/-- The span of spectrum `n` in order, none where a sample is missing (R59, R63). -/
def Half.spanSamples (h : Half) (x : Inp) (q n : Nat) : List (Option (Int × Int)) :=
  (List.range h.taps).flatMap (fun (t : Nat) =>
    let first : Int := ((n : Int) - (h.taps : Int) + 1 + (t : Int)) * (h.lin : Int)
    let d : Nat := h.blockDelay x q (n + t - (h.taps - 1))
    (List.range h.lin).map (fun (m : Nat) => x.sampleAt h.isComplex (first + (m : Int) - (d : Int))))

/-- Polyphase sums of a span (R66), saturated (R75). -/
def Half.polyphase (h : Half) (span : Array (Option (Int × Int))) : Xform :=
  let sums := Array.ofFn (n := h.lin) (fun m =>
    let acc : Int × Int := (List.range h.taps).foldl (fun a t =>
      let j := t * h.lin + m.val
      let c := h.spanCoef j
      let v := (span.getD j none).getD (0, 0)
      (a.1 + c * v.1, a.2 + c * v.2)) (0, 0)
    cRne acc 17)
  satStep 0x1F sums []

/-- Y of spectrum from its polyphase sums, channels in ascending order (R66, R67, R70). -/
def Half.transform (h : Half) (scale : Nat) (p : Xform) : Xform :=
  if h.isComplex then
    let x := complexTransform h.lin scale p
    { x with z := Array.ofFn (n := h.chans) (fun c => x.z.getD ((c.val + h.chans / 2) % h.chans) (0, 0)) }
  else realTransform h.fftLen scale p

/-- Bits of the flag record (Table CHN-2). -/
def flagMissing : Nat := 1
def flagOvf : Nat := 2
def flagPwrHi : Nat := 4
def flagPwrLo : Nat := 8
def flagFault : Nat := 16
def flagSkShort : Nat := 32

/-- Channel `c` is masked for a spectrum of frame `k` (R86). -/
def Half.masked (h : Half) (k c : Nat) : Bool := bit (h.histGet CHN_MASK (c / 32) k).toNat (c % 32)

/-- Squared magnitude. -/
def power (y : Int × Int) : Nat := (y.1 * y.1 + y.2 * y.2).toNat

/-- The exact power of R80. -/
def Half.bandPower (h : Half) (k : Nat) (y : Array (Int × Int)) : Nat :=
  let hi := min (h.fget CHN_PWR_BAND_HI) (h.chans - 1)
  let lo := h.fget CHN_PWR_BAND_LO
  ((List.range (hi + 1 - lo)).map (fun j =>
    if h.masked k (lo + j) then 0 else power (y.getD (lo + j) (0, 0)))).sum

/-- The raw power flag (R80): 1 high, 2 low, 3 both, 0 none. -/
def rawFlag (thr : Nat) (mu p : Int) : Nat :=
  let ratio (t : Nat) : Int := f32Mul mu (t * 2 ^ 141)
  let hi := bits thr 31 16
  let lo := bits thr 15 0
  b2n (hi != 0 && ratio hi < p) + 2 * b2n (lo != 0 && p < ratio lo)

/-- The running mean after a spectrum of power `p` (R80). -/
def meanStep (tau : Nat) (mu p : Int) : Int := f32Add mu (f32Round (f32Add p (-mu)) (2 ^ tau))

def Half.tau (h : Half) : Nat := h.fget CHN_PWR_CFG_TAU

/-- Take a spectrum's power into the mean, the warm-up and the raw flags (R80, R81). Every spectrum of a warm-up has raw flag 0, an ineligible
one too: there is no mean to hold it against. (DEDUCED, log 13) -/
def Half.takePower (h : Half) (q n : Nat) (eligible : Bool) (y : Array (Int × Int)) : Half :=
  let k := n / h.fspec
  let x := h.inp q
  let p := h.bandPower k y
  let full := 2 ^ h.tau
  if x.warm then
    h.setInp q (fun x =>
      let x := { x with raw := SMap.insert x.raw n 0 }
      if eligible && x.warmCnt < full then { x with warmCnt := x.warmCnt + 1, warmSum := x.warmSum + p } else x)
  else
    let pf := f32OfNat p
    let r := rawFlag (h.histGet CHN_PWR_THR 0 k).toNat x.mu pf
    let mu := if eligible && r == 0 then meanStep h.tau x.mu pf else x.mu
    let run := if !eligible then x.rawRun else if r == 0 then 0 else x.rawRun + 1
    (h.setInp q (fun x => { x with raw := SMap.insert x.raw n r, mu := mu, rawRun := run })).putN CHN_PWR_MEAN (f32Bits mu) q

/-- R81: the warm-up has its 2^TAU eligible spectra. -/
def execPwrWarmupEnd (i : HalfId) (q : Nat) (s : State) : Host.Outcome State Fault Refusal :=
  done (s.onMain i (fun h =>
    let x := h.inp q
    if x.warm && x.warmCnt == 2 ^ h.tau then
      let mu := f32OfRatio x.warmSum (2 ^ h.tau)
      (h.setInp q (fun x => { x with warm := false, warmCnt := 0, warmSum := 0, rawRun := 0, mu := mu })).putN CHN_PWR_MEAN (f32Bits mu) q
    else h))

/-- R81: 2^TAU consecutive eligible spectra carried a raw flag. -/
def execPwrReseed (i : HalfId) (q : Nat) (s : State) : Host.Outcome State Fault Refusal :=
  done (s.onMain i (fun h =>
    let x := h.inp q
    if !x.warm && 2 ^ h.tau ≤ x.rawRun then
      (h.setInp q (fun x => { x with warm := true, warmCnt := 0, warmSum := 0, rawRun := 0 })).log errPWR_RESEED
    else h))

/-- R73: the reload of a bad entry ends; the master copy may prove uncorrectable. -/
def execCoefReloadDone (i : HalfId) (pipe entry : Nat) (masterOk : Bool) (s : State) : Host.Outcome State Fault Refusal :=
  done (s.onMain i (fun h =>
    if masterOk then { h with front := { h.front with badCoef := h.front.badCoef.filter (· != (pipe, entry)) } }
    else ({ h with front := { h.front with masterBad := true } } : Half).log errCOEF_FAIL))

/-! ### Spectral kurtosis and the deferred flags -/

/-- Power flags apply to input q with this CHN_INPUT_CFG (R83). -/
def Half.powerFlagging (h : Half) (cfg : Nat) : Bool := h.flag CHN_CFG_PWR_EN && !bit cfg 1

/-- PWR_HI and PWR_LO of a spectrum from the raw flags around it (R82). -/
def Half.pwrFlags (h : Half) (x : Inp) (n cfg : Nat) : Nat :=
  if !h.powerFlagging cfg then 0
  else
    let g := h.guardSpec
    let near := (x.raw.filter (fun e => e.1 ≤ n + g && n ≤ e.1 + g)).map (·.2)
    (if near.any (fun r => bit r 0) then flagPwrHi else 0) + (if near.any (fun r => bit r 1) then flagPwrLo else 0)

/-- The spectral kurtosis estimate of R84 from M′, S1 and S2. -/
def skEstimate (m s1 s2 : Nat) : Int :=
  let a := f32OfNat s1
  let q := f32Div (f32OfNat s2) (f32Mul a a)
  f32Mul (f32Div (f32OfNat (m + 1)) (f32OfNat (m - 1))) (f32Add (f32Mul (f32OfNat m) q) (-(2 ^ 149)))

/-- The SK bit of a channel (R84, R85). -/
def skBit (thr m : Nat) (ps : List Nat) : Bool :=
  let s1 := ps.sum
  let s2 := (ps.map (fun p => p * p)).sum
  if s1 = 0 then true
  else
    let e := skEstimate m s1 s2
    e < (bits thr 15 0 : Int) * 2 ^ 137 || (bits thr 31 16 : Int) * 2 ^ 137 < e

/-- CHN_SK_THR that judges block `b`: the one in effect for its first spectrum (R76); its CHN_INPUT_CFG is taken from there too. (DEDUCED,
log 13) -/
def Half.skSettings (h : Half) (x : Inp) (q b : Nat) : Nat × Nat :=
  match SMap.find? x.specs (b * h.skm) with
  | some s => (s.skThr, s.cfg)
  | none =>
    let k := b * h.skm / h.fspec
    ((h.histGet CHN_SK_THR 0 k).toNat, (h.histGet CHN_INPUT_CFG q k).toNat)

/-- Decide SK block `b` of an input (R79, R82 to R85). (DEDUCED, log 13) -/
def Half.skDecide (h : Half) (q b : Nat) : Half :=
  let x := h.inp q
  let m := h.skm
  let block := x.specs.filter (fun e => e.1 / m == b)
  let recs := block.map (fun e => (e.1, e.2, h.pwrFlags x e.1 e.2.cfg))
  let clean := recs.filter (fun r => (r.2.1.flags + r.2.2) % 32 == 0)
  let short := clean.length < m / 2
  let (thr, cfg) := h.skSettings x q b
  let on := h.flag CHN_CFG_SK_EN && !bit cfg 0
  let sk := if short || !on then [] else
    (List.range h.chans).filter (fun c => skBit thr clean.length (clean.map (fun r => power (r.2.1.y.getD c (0, 0)))))
  let deferred := recs.foldl (fun d r => SMap.insert d r.1 (r.2.2 + (if short then flagSkShort else 0))) x.deferred
  let h := h.setInp q (fun x => { x with
    deferred := deferred, sk := SMap.insert x.sk b sk, raw := x.raw.filter (fun e => (b + 1) * m ≤ e.1 + 16) })
  let h := h.bumpWord CHN_STAT_1 (recs.filter (fun r => r.2.2 != 0)).length q
  let h := h.bumpWord CHN_STAT_2 sk.length q
  if short then (h.bumpWord CHN_STAT_3 1 q).log errSK_SHORT else h

/-- R84: the block and, with power flagging on, its guard spectra have left the FFT. -/
def execSkDecision (i : HalfId) (q b : Nat) (s : State) : Host.Outcome State Fault Refusal :=
  done (s.onMain i (fun h =>
    let x := h.inp q
    let (_, cfg) := h.skSettings x q b
    let need := (b + 1) * h.skm + (if h.powerFlagging cfg then h.guardSpec else 0)
    match x.last with
    | none => h
    | some n => if need ≤ n + 1 && (SMap.find? x.sk b).isNone then h.skDecide q b else h))

/-! ### Running and the coefficient table -/

/-- R69, R87: RUN is set; a half whose LCODE or TAPS differs from the running other half does not start. (DEDUCED, log 12) -/
def Half.chnRunSet (h o : Half) : Half :=
    if h.flag CHN_CTL_RUN then h
    else if o.flag CHN_CTL_RUN && (o.fget CHN_CFG_LCODE != h.fget CHN_CFG_LCODE || o.fget CHN_CFG_TAPS != h.fget CHN_CFG_TAPS)
    then h.log errCHN_CFG_MISMATCH
    else
      { h.fset CHN_CTL_RUN 1 with front := { h.front with
          stopAt := none
          inputs := h.front.inputs.map (fun (q, x) => (q, { x with
            last := none, warm := true, warmCnt := 0, warmSum := 0, rawRun := 0, specs := [], raw := [], deferred := [], sk := [] })) } }

/-- R87. -/
def execChnRunSet (i : HalfId) (s : State) : Host.Outcome State Fault Refusal :=
  done (s.onMain i (fun h => h.chnRunSet (s.half i.other)))

/-- R87: RUN is cleared; `boundary` is the first spectrum boundary of the tick timeline after the clear. -/
def Half.chnRunClear (h : Half) (boundary : Nat) : Half :=
    if !h.flag CHN_CTL_RUN then h
    else
      { h.fset CHN_CTL_RUN 0 with front := { h.front with
          stopAt := some boundary
          inputs := h.front.inputs.map (fun (q, x) => (q, { x with stopFrontier := x.frontier })) } }

/-- R87. -/
def execChnRunClear (i : HalfId) (boundary : Nat) (s : State) : Host.Outcome State Fault Refusal :=
  done (s.onMain i (fun h => h.chnRunClear boundary))

/-- R72: a coefficient written at CHN_COEF_ADDR, which advances; refused while the block runs. -/
def Half.coefWrite (h : Half) (d : Word) : Half :=
    let a := h.fget CHN_COEF_ADDR_ADDR
    if h.flag CHN_CTL_RUN then h.logErr (errLockedWrite 9)
    else
      let v := max (-131071) (sext 18 d.toNat)
      ({ h with front := { h.front with coef := SMap.insert h.front.coef a v } } : Half).fset CHN_COEF_ADDR_ADDR ((a + 1) % 131072)

/-- R72. -/
def execChnCoefDataWrite (i : HalfId) (d : Word) (s : State) : Host.Outcome State Fault Refusal :=
  done (s.onMain i (fun h => h.coefWrite d))

end Sys2Proof.Machine
end

