-- ==== Sys2Proof/Machine/Memory.lean ====
section
/-! DEFINITION. HBM by HBM address (R273 to R276, R284, R285): the region table's placement on pseudo-channels, reads with
their poison mark, writes. -/

namespace Sys2Proof.Machine

/-- Bytes of a half's HBM (Table HBM-1). -/
def hbmSize : Nat := 96 * 2 ^ 30

/-- What a byte that nothing has written reads as (DESIGN CHOICE, log 4). -/
def unwrittenByte : Byte := 0

/-- Memory in canonical form: addresses strictly rising, no entry equal to what an unlisted address reads as. -/
def Memory.wf (m : List Host.Cell) : Bool := SMap.canon unwrittenByte m

/-- The pseudo-channel is live (R287, R290). -/
def Half.pcLive (h : Half) (p : Nat) : Bool := h.fget HBM_PC_1_STATE p == 0

/-- Live pseudo-channels in the groups of a region's SET, ascending (R274). -/
def Half.livePcs (h : Half) (set : Nat) : List Nat :=
  (List.range 128).filter (fun p => bit set (p / 8) && h.pcLive p)

/-- The enabled region that holds an address (R274). -/
def Half.regionOf (h : Half) (a : Nat) : Option Nat :=
  (List.range 16).find? (fun r =>
    h.flag HBM_REGION_0_EN r && h.getN HBM_REGION_1 r * 4096 ≤ a
      && a < (h.getN HBM_REGION_1 r + h.getN HBM_REGION_2 r) * 4096)

/-- The pseudo-channels that hold granule `g` of a region, first copy first; none where it is unmapped (R274 to R276). -/
def Half.granulePcs (h : Half) (r g : Nat) : List Nat :=
  let l := SMap.getD h.hbm.lays r []
  let n := l.length
  if n = 0 then []
  else
    let ofs := g / n * 256
    let ext := h.fget HBM_REGION_4_EXT r
    if h.flag HBM_REGION_0_MIRROR r then
      if ofs < ext * 2048 then [l.getD (g % n) 0, l.getD ((g + cdiv n 2) % n) 0] else []
    else if ofs < ext * 4096 then [l.getD (g % n) 0] else []

/-- The pseudo-channels behind an HBM address. -/
def Half.addrPcs (h : Half) (a : Nat) : List Nat :=
  match h.regionOf a with
  | none => []
  | some r => h.granulePcs r ((a - h.getN HBM_REGION_1 r * 4096) / 256)

/-- An access to an unmapped address (R276). -/
def Half.noRegion (h : Half) : Half := h.log errHBM_NO_REGION

/-- Split `[a, a + n)` at 256-byte granules; `fuel` bounds the pieces. -/
def granulesOf : Nat → Nat → Nat → List (Nat × Nat)
  | 0, _, _ => []
  | fuel + 1, a, n =>
    if n = 0 then []
    else
      let m := min n (256 - a % 256)
      (a, m) :: granulesOf fuel (a + m) (n - m)

def granules (a n : Nat) : List (Nat × Nat) := granulesOf (n / 256 + 2) a n

/-- Access units that `[a, a + n)` touches. -/
def unitsOf (a n : Nat) : List Nat := (List.range (cdiv (a % 64 + n) 64)).map (a / 64 + ·)

/-- Copy `c` of the bytes `[a, a + n)` holds an uncorrectable word. -/
def Hbm.bad (m : Hbm) (c a n : Nat) : Bool := (unitsOf a n).any (fun u => m.poison.contains (2 * u + c))

/-- The bytes listed in memory. -/
def memBytes (mem : List Host.Cell) (a n : Nat) : List Byte := (SMap.readRun unwrittenByte mem a n).toList

/-- Bytes that no enabled region or live pseudo-channel can give: zeros, poisoned. -/
def lostBytes (n : Nat) : List Byte × Bool := (List.replicate n 0, true)

/-- Change the memory's state. -/
def Half.modHbm (h : Half) (f : Hbm → Hbm) : Half := { h with hbm := f h.hbm }

/-! ### Fencing (R287, R288) -/

/-- One pseudo-channel is fenced: FENCING with its cause, source 256 + p and HBM_FENCE (R288). -/
def Half.fenceOne (h : Half) (p cause : Nat) (inWindow : Bool) : Half :=
  if 128 ≤ p || !h.pcLive p then h
  else
    let h := (h.fset HBM_PC_1_STATE 1 p).fset HBM_PC_1_CAUSE cause p
    let h := h.putN HBM_FENCED (setBits (h.getN HBM_FENCED (p / 32)) (p % 32) (p % 32) 1) (p / 32)
    let h := (h.raise (256 + p)).log errHBM_FENCE p
    if inWindow then h.modHbm (fun m => { m with lateFence := p :: m.lateFence }) else h

/-- A fence with its escalations: a second in a group takes the group, a second group of a stack takes the stack (R288). -/
def Half.fence (h : Half) (p cause : Nat) (inWindow : Bool) : Half :=
  if 128 ≤ p || !h.pcLive p then h
  else
    let g := p / 8
    let second := (List.range 8).any (fun c => h.fget HBM_PC_1_STATE (8 * g + c) == 1)
    let h := h.fenceOne p cause inWindow
    if !second then h
    else
      let h := h.fold (List.range 8) (fun h c => h.fenceOne (8 * g + c) 6 inWindow)
      let other := h.hbm.grpFenced.any (fun x => x != g && x / 4 == g / 4)
      let h := (h.log errHBM_CONTAIN p).modHbm (fun m => { m with grpFenced := g :: m.grpFenced })
      if !other then h
      else (h.fold (List.range 32) (fun h c => h.fenceOne (32 * (g / 4) + c) 6 inWindow)).log errHBM_CONTAIN p

/-- A fault that fences where AUTO_FENCE is 1 (R287). -/
def Half.autoFence (h : Half) (p cause : Nat) (inWindow : Bool) : Half :=
  if h.flag HBM_CTL_AUTO_FENCE then h.fence p cause inWindow else h

/-- A read of pseudo-channel `p` at address `a` found an uncorrectable word at `now` ns: counted, latched and raised (Table HBM-3,
R293), and the cause of a fence where it is FENCE_UNC of them within 1 s (R287). (DEDUCED, log 30) -/
def Half.uncRead (h : Half) (p a now : Nat) (inWindow : Bool) : Half :=
  let h := (h.bumpWord HBM_PC_3 1 p).putN HBM_ERR_ADDR_LO (a % 2 ^ 32)
  let h := h.putN HBM_ERR_ADDR_HI (p * 2 ^ 25 + a / 2 ^ 32 % 256)
  let h := (h.raiseOnce (256 + p)).log errHBM_UNC p
  let ts := now :: (SMap.getD h.hbm.uncs p []).filter (fun t => now < t + 10 ^ 9)
  let h := h.modHbm (fun m => { m with uncs := SMap.insert m.uncs p ts })
  let limit := h.fget HBM_ECC_CFG_FENCE_UNC
  if limit != 0 && limit ≤ ts.length then h.autoFence p 1 inWindow else h

/-! ### Reads and writes by address -/

/-- The pieces of `[a, a + n)` in its access units. -/
def unitPieces (a n : Nat) : List (Nat × Nat) :=
  (unitsOf a n).map (fun u => (max a (64 * u), min (a + n) (64 * u + 64) - max a (64 * u)))

/-- The second copy of a mirrored unit serves a read in place of `p` (R275). (DEDUCED, log 30) -/
def Half.mirrorFix (h : Half) (p : Nat) : Half := (h.bumpWord HBM_PC_2 1 p).log errHBM_MIRROR_FIX p

/-- Read a piece inside one access unit that lies on `ps`: its bytes, whether they are poisoned, and the half after it (R275, R285). -/
def Half.readUnit (h : Half) (ps : List Nat) (a n : Nat) : (List Byte × Bool) × Half :=
  let data := memBytes h.hbm.mem a n
  match ps with
  | [] => (lostBytes n, h)
  | [p] =>
    if !h.pcLive p then (lostBytes n, h)
    else if (unitsOf a n).any h.hbm.lost.contains then ((data, true), h)
    else if h.hbm.bad 0 a n then ((data, true), h.uncRead p a h.rdb.clock false)
    else ((data, false), h)
  | p :: q :: _ =>
    if h.pcLive p && !h.hbm.bad 0 a n then ((data, false), h)
    else
      let first := if h.pcLive p then ((data, true), h.uncRead p a h.rdb.clock false) else (lostBytes n, h)
      if !h.pcLive q then first
      else
        let h := first.2.mirrorFix p
        if h.hbm.bad 1 a n then ((data, true), h.uncRead q a h.rdb.clock false) else ((data, false), h)

/-- Read a piece inside one granule, unit by unit: its bytes, whether any is poisoned, and the half after it (R275, R276, R285). -/
def Half.readPiece (h : Half) (a n : Nat) : (List Byte × Bool) × Half :=
  match h.addrPcs a with
  | [] => (lostBytes n, h.noRegion)
  | ps => (unitPieces a n).foldl (fun acc x =>
      let r := acc.2.readUnit ps x.1 x.2
      ((acc.1.1 ++ r.1.1, acc.1.2 || r.1.2), r.2)) (([], false), h)

/-- Read `n` bytes from an HBM address. -/
def Half.memRead (h : Half) (a n : Nat) : (List Byte × Bool) × Half :=
  (granules a n).foldl (fun acc p =>
    let r := acc.2.readPiece p.1 p.2
    ((acc.1.1 ++ r.1.1, acc.1.2 || r.1.2), r.2)) (([], false), h)

/-- Write bytes inside one granule: discarded where unmapped or where no copy's pseudo-channel is live (R276, R288). A unit
written whole holds a good word again. -/
def Half.writePiece (h : Half) (a : Nat) (bs : List Byte) : Half :=
  match h.addrPcs a with
  | [] => h.noRegion
  | ps =>
    if ps.any h.pcLive then
      let whole := (unitsOf a bs.length).filter (fun u => a ≤ 64 * u && 64 * u + 64 ≤ a + bs.length)
      { h with hbm := { h.hbm with
          mem := SMap.putRun unwrittenByte h.hbm.mem a bs
          lost := h.hbm.lost.filter (fun u => !whole.contains u)
          poison := h.hbm.poison.filter (fun u => !whole.contains (u / 2)) } }
    else h

/-- Write bytes at an HBM address. -/
def Half.memWrite (h : Half) (a : Nat) (bs : List Byte) : Half :=
  (granules a bs.length).foldl (fun h p => h.writePiece p.1 (slice bs (p.1 - a) p.2)) h

/-- The range lies in the half's HBM. -/
def inHbm (a n : Nat) : Bool := a + n ≤ hbmSize

/-- Regions as Exylo lays them out (Table HBM-2). -/
def regionDelay : Nat := 0
def regionFlags : Nat := 1
def regionCorner : Nat := 2
def regionL48 : Nat := 3
def regionSpill : Nat := 4
def regionOut : Nat := 5
def regionCap : Nat := 6
def regionMirror : Nat := 7

/-- HBM address of byte `ofs` of region `r`. -/
def Half.regionByte (h : Half) (r ofs : Nat) : Nat := h.getN HBM_REGION_1 r * 4096 + ofs

/-- Read byte range `[ofs, ofs + n)` of region `r`: nothing where the region is not enabled or does not reach so far. -/
def Half.regionRead (h : Half) (r ofs n : Nat) : (List Byte × Bool) × Half :=
  if h.flag HBM_REGION_0_EN r && ofs + n ≤ h.getN HBM_REGION_2 r * 4096 then h.memRead (h.regionByte r ofs) n
  else (lostBytes n, h.noRegion)

/-- Write bytes at byte `ofs` of region `r`; discarded where the region is not enabled or does not reach so far (R276). -/
def Half.regionWrite (h : Half) (r ofs : Nat) (bs : List Byte) : Half :=
  if h.flag HBM_REGION_0_EN r && ofs + bs.length ≤ h.getN HBM_REGION_2 r * 4096 then h.memWrite (h.regionByte r ofs) bs else h.noRegion

end Sys2Proof.Machine
end

