-- ==== Sys2Proof/Machine/Delay.lean ====
section
/-! DEFINITION. Delay, phase and requantisation (05_delay_phase_requant.md): the delay model, the phaser and requantiser,
writes of the delay store, the gain table. -/

namespace Sys2Proof.Machine

/-! ### The delay model (R89 to R95) -/

/-- The model entry of an input for a y-frame: VALID, span in frames, REF, and the coefficients. -/
structure Model where
  valid : Bool
  span : Nat
  ref : Nat
  a0 : Int
  a1 : Int
  a2 : Int
  a3 : Int
  nu : Int
  deriving DecidableEq, Repr

/-- The model in effect for y-frame `k` (R95). -/
def Half.model (h : Half) (q k : Nat) : Model :=
  let w12 := h.modelGet DLY_MODEL_12 q k
  { valid := bit w12 31, span := bits w12 15 0
    ref := h.modelGet DLY_MODEL_10 q k + bits (h.modelGet DLY_MODEL_11 q k) 15 0 * 2 ^ 32
    a0 := h.model64 DLY_MODEL_0 DLY_MODEL_1 q k, a1 := h.model64 DLY_MODEL_2 DLY_MODEL_3 q k
    a2 := h.model64 DLY_MODEL_4 DLY_MODEL_5 q k, a3 := h.model64 DLY_MODEL_6 DLY_MODEL_7 q k
    nu := h.model64 DLY_MODEL_8 DLY_MODEL_9 q k }

/-- D(s) in units of 2^-32 samples, rounded toward −∞ (R92); 0 while the model is not valid (R93). -/
def Model.comp (m : Model) (s : Nat) : Int :=
  let u : Int := (s : Int) - (m.ref : Int)
  if m.valid then (m.a0 * 2 ^ 48 + m.a1 * 2 ^ 32 * u + m.a2 * 2 ^ 16 * u * u + m.a3 * u * u * u) / 2 ^ 48 else 0

/-- The compensation is inside the range of R92. -/
def compInRange (d : Int) : Bool := -(2 ^ 63) ≤ d && d < 2 ^ 63

/-- The y-spectrum lies in the model span (R93). -/
def Model.covers (m : Model) (f s : Nat) : Bool :=
  let top := if m.span = 0 then 2 ^ 24 else min (m.span * f) (2 ^ 24)
  m.ref ≤ s && s - m.ref < top

/-- D_int of y-frame `k` (R90). -/
def Half.dInt (h : Half) (q k : Nat) : Int :=
  ((h.model q k).comp (k * h.fspec + h.fspec / 2) + 2 ^ 31) / 2 ^ 32

/-- n_s of y-frame `k` (R90): D_int divided by L_in, rounded up. -/
def Half.advance (h : Half) (q k : Nat) : Int := -(-(h.dInt q k) / (h.lin : Int))

/-- d_f of y-frame `k` that the model asks for (R90). -/
def Half.modelDelay (h : Half) (q k : Nat) : Int := h.advance q k * (h.lin : Int) - h.dInt q k

/-- The store margin E (R105). -/
def Half.storeMargin (h : Half) : Nat := 3 + cdiv (2 * h.fget TMG_FS_FS) h.lin

/-- Λ of an input with this CHN_INPUT_CFG (R79). -/
def Half.lambda (h : Half) (cfg : Nat) : Nat := h.skm + 4 + (if h.powerFlagging cfg then h.guardSpec else 0)

/-- y-frame `k` of the input is flagged whole (R106). -/
def Half.frameFlagged (h : Half) (q k cfg : Nat) : Bool :=
  h.dInt q k < 0 ||
    ((h.depth * h.fspec : Nat) : Int) - (h.storeMargin : Int) - (h.lambda cfg : Int) < h.advance q k

/-! ### Phaser and requantiser (R96 to R101) -/

/-- The gain word of input q, entry e, in effect (R96). -/
def Half.gain (h : Half) (q e : Nat) : Nat := (SMap.getD h.front.gain (q * 1024 + e) 0x1000).toNat

/-- The gain entry of a channel (R96). -/
def Half.gainEntry (h : Half) (c : Nat) : Nat := if 1024 ≤ h.chans then c * 1024 / h.chans else c

/-- The phase index t of channel `c` (R98), from D and ε in units of 2^-32 samples. -/
def Half.phaseIndex (h : Half) (frOn fdOn : Bool) (nu d eps : Int) (c : Nat) : Nat :=
  let lc : Int := if h.isComplex then (h.lin : Int) else (h.fftLen : Int)
  let kc : Int := if h.isComplex then (c : Int) - (h.chans / 2 : Nat) else (c : Int)
  let fr := if frOn then nu * d * lc else 0
  let fd := if fdOn then kc * eps * 2 ^ 48 else 0
  let th := wrapBits 32 ((fr + fd) / (2 ^ 48 * lc))
  (th + 2 ^ 15) / 2 ^ 16 % 2 ^ 16

/-- A requantised value as a code (R99). -/
def encodeCode (fmt8 : Bool) (v : Int × Int) : Nat :=
  if fmt8 then wrapBits 8 v.1 + wrapBits 8 v.2 * 256 else wrapBits 4 v.1 + wrapBits 4 v.2 * 16

/-- Rotate, scale and requantise one value (R98): the clamped components and whether either was clamped. -/
def requantise (fmt8 : Bool) (y : Int × Int) (g t shift : Nat) : (Int × Int) × Bool :=
  let z := cMulExact y (sext 16 (bits g 15 0), sext 16 (bits g 31 16))
  let v := cRne (cMulExact z (cosSinInt 32767 t 65536)) (27 + shift)
  let top : Int := if fmt8 then 127 else 7
  let v' := (clamp (-top) top v.1, clamp (-top) top v.2)
  (v', v' != v)

/-- What the requantiser writes for a spectrum: the codes, the valid samples' power, their number, and the clamped. -/
structure RqOut where
  codes : List Nat
  pow : Nat
  valid : Nat
  sat : Nat
  deriving DecidableEq, Repr

/-- The requantiser's result for the channels of a y-spectrum (R98); `flagAll` covers every flag that holds in all
channels. -/
def Half.requantSpectrum (h : Half) (q n : Nat) (flagAll : Bool) (df : Nat) (y : List (Int × Int)) : RqOut :=
  let k := n / h.fspec
  let m := h.model q k
  let cfg := (h.histGet DLY_INPUT_CFG q k).toNat
  let d := m.comp n
  let eps := d - (h.advance q k * (h.lin : Int) - (df : Int)) * 2 ^ 32
  let frOn := h.flag DLY_CTL_FR_EN && !bit cfg 0 && m.valid
  let fdOn := h.flag DLY_CTL_FD_EN && !bit cfg 1 && m.valid
  let shift := h.fget DLY_RQ_CFG_SHIFT
  let outs := y.zipIdx.map (fun (v, c) =>
    let g := h.gain q (h.gainEntry c)
    if flagAll || g = 0 || bit cfg 2 || h.masked k c then none
    else some (requantise h.fmt8 v g (h.phaseIndex frOn fdOn m.nu d eps c) shift))
  { codes := outs.map (fun o => match o with | none => h.invalidCode | some (v, _) => encodeCode h.fmt8 v)
    pow := (outs.map (fun o => match o with | none => 0 | some (v, _) => power v)).sum
    valid := (outs.filter (·.isSome)).length
    sat := (outs.filter (fun o => match o with | some (_, b) => b | none => false)).length }

/-- Publish the sums of a y-frame (R101). -/
def Half.publishRq (h : Half) (q : Nat) : Half :=
  let x := h.inp q
  if x.rqFrame = 0 then h
  else
    let h := ((h.putN DLY_RQ_STAT_1 (x.rqPow % 2 ^ 32) q).fset DLY_RQ_STAT_2_PWR_HI (x.rqPow / 2 ^ 32) q).putN DLY_RQ_STAT_3 x.rqValid q
    h.setInp q (fun x => { x with rqFrame := 0, rqPow := 0, rqValid := 0 })

/-- Sum a spectrum into its y-frame, which is published with its last spectrum (R101); a y-frame whose last spectrum never comes is
published when a later one begins (DEDUCED, log 17). -/
def Half.sumRq (h : Half) (q n : Nat) (o : RqOut) : Half :=
  let k := n / h.fspec
  let h := h.bumpWord DLY_RQ_STAT_0 o.sat q
  let h := if (h.inp q).rqFrame = k + 1 then h else h.publishRq q
  let h := h.setInp q (fun x => { x with rqFrame := k + 1, rqPow := x.rqPow + o.pow, rqValid := x.rqValid + o.valid })
  if n % h.fspec + 1 = h.fspec then h.publishRq q else h

/-! ### The delay store (R102 to R107) -/

/-- R, rows of the store. -/
def Half.storeRows (h : Half) : Nat := h.depth * h.fspec

/-- Key of a row-valid bit. -/
def storeKey (row dense : Nat) : Nat := row * 256 + dense

/-- CB, channels of a 64-byte run (R102, R112). -/
def Half.chanGroup (h : Half) : Nat := 64 / h.bps

/-- The bytes of a code (R99). -/
def Half.codeBytes (h : Half) (c : Nat) : List Byte := leBytes h.bps c

/-- Byte of the delay store at which the run of channel group `g` lies (R102). -/
def Half.storeOfs (h : Half) (row dense g : Nat) : Nat :=
  row * (h.ownInputs * h.chans * h.bps) + (g * h.ownInputs + dense) * 64

/-- Byte of the flag plane at which the SK block of y-spectrum `n` lies: its SK bits, one per channel, then one deferred flag record per
spectrum (R102). (DESIGN CHOICE, log 24) -/
def Half.planeOfs (h : Half) (dense n : Nat) : Nat :=
  let blocks := h.storeRows / h.skm
  (dense * blocks + n / h.skm % max 1 blocks) * (h.chans / 8 + h.skm)

/-- Byte of the flag plane that holds the deferred flag record of y-spectrum `n`. -/
def Half.recordOfs (h : Half) (dense n : Nat) : Nat := h.planeOfs dense n + h.chans / 8 + n % h.skm

/-- SK bits of a block as bytes, eight channels each. -/
def skBytes (chans : Nat) (sk : List Nat) : List Byte :=
  (List.range (chans / 8)).map (fun b => BitVec.ofNat 8 ((List.range 8).map (fun i => if sk.contains (8 * b + i) then 2 ^ i else 0)).sum)

/-- Write the codes of a row, run by run (R102). -/
def Half.putRow (h : Half) (row dense : Nat) (codes : List Nat) : Half :=
  h.fold (List.range (cdiv h.chans h.chanGroup)) (fun h g =>
    h.regionWrite regionDelay (h.storeOfs row dense g) (((codes.drop (g * h.chanGroup)).take h.chanGroup).flatMap h.codeBytes))

/-- Write the deferred flags of y-spectrum `n`: the SK bits of its block and its own record (R102). -/
def Half.putFlags (h : Half) (dense n deferred : Nat) (sk : List Nat) : Half :=
  (h.regionWrite regionFlags (h.planeOfs dense n) (skBytes h.chans sk)).regionWrite regionFlags (h.recordOfs dense n) (leBytes 1 deferred)

/-- Account for a written y-frame: DLY_STATE, and a join with the y-frame before it (R107). -/
def Half.noteWritten (h : Half) (q k : Nat) (x : Spec) : Half :=
  let h := match (h.inp q).written with
    | some (k0, ns0) =>
      if k0 + 1 = k && ns0 != x.ns then (h.bump DLY_STATE_2_JOIN (x.ns - ns0).natAbs q).log errDLY_JOIN else h
    | none => h
  let h := h.setInp q (fun i => { i with written := some (k, x.ns) })
  ((h.fset DLY_STATE_0_NS (wrapBits 16 x.ns) q).fset DLY_STATE_0_FDLY x.fdly q).putN DLY_STATE_1 (wrapBits 32 x.dint) q

/-- Write a y-spectrum with its deferred flags to the store, or discard it as late or early (R30, R104). A frame that a re-lay took stays
missing (Table HBM-4). (DEDUCED, log 17) -/
def Half.storeWrite (h : Half) (q dense n : Nat) (x : Spec) (deferred : Nat) (sk : List Nat) : Half :=
  let sigma : Int := (n : Int) - x.ns
  let rp := h.front.rp
  if sigma < (rp : Int) then ((h.bumpWord DEV_LATE_CNT).raiseOnce 454).log errLATE_SPECTRUM
  else if ((rp + h.storeRows : Nat) : Int) ≤ sigma then (h.bumpWord DLY_EARLY_CNT).log errDLY_EARLY
  else
    let row := sigma.toNat % h.storeRows
    let h := (h.putRow row dense x.codes).putFlags dense n deferred sk
    let h := if sigma.toNat / h.fspec < h.front.voidBelow then h
      else { h with front := { h.front with store := SMap.insert h.front.store (storeKey row dense) n } }
    h.noteWritten q (n / h.fspec) x

/-- R104: the deferred flags of y-spectrum `n` are final and the store takes it; it stops in the HOLD of R369. -/
def execDelayStoreWrite (i : HalfId) (q n : Nat) (s : State) : Host.Outcome State Fault Refusal :=
  done (s.onMain i (fun h =>
    let x := h.inp q
    match SMap.find? x.specs n, SMap.find? x.sk (n / h.skm), h.dense q with
    | some sp, some sk, some dense =>
      if h.inHold then h else
      let deferred := SMap.getD x.deferred n 0
      let h := h.setInp q (fun x => { x with specs := SMap.erase x.specs n, deferred := SMap.erase x.deferred n })
      if h.flag DLY_CTL_RUN && sp.storable then h.storeWrite q dense n sp deferred sk else h
    | _, _, _ => h))

/-- R109: RUN is cleared: writes stop, and every row reads as invalid. -/
def Half.dlyStop (h : Half) : Half := { h.fset DLY_CTL_RUN 0 with front := { h.front with store := [] } }

/-- R109. -/
def execDlyRunClear (i : HalfId) (s : State) : Host.Outcome State Fault Refusal := done (s.onMain i (fun h => h.dlyStop))

/-- A gain word as stored: a component of −32,768 becomes −32,767 (R96). -/
def storedGain (w : Word) : Word :=
  let fix (n : Nat) : Nat := if n = 0x8000 then 0x8001 else n
  BitVec.ofNat 32 (fix (bits w.toNat 31 16) * 2 ^ 16 + fix (bits w.toNat 15 0))

/-- Write a gain-table shadow entry (R97). -/
def Half.putGain (h : Half) (key : Nat) (w : Word) (late : Bool) : Half :=
  if late then
    ({ h with front := { h.front with gainLate := SMap.insert h.front.gainLate key (storedGain w) } } : Half).noteShadowLate
  else { h with front := { h.front with gainShadow := SMap.insert h.front.gainShadow key (storedGain w) } }

/-- R97: a word through the window onto the shadow table; the address advances over both fields. -/
def Half.gainWrite (h : Half) (d : Word) (late : Bool) : Half :=
  let a := h.getN DLY_GAIN_ADDR % 2 ^ 18
  (h.putGain a d late).putN DLY_GAIN_ADDR ((a + 1) % 2 ^ 18)

/-- R97. -/
def execDlyGainDataWrite (i : HalfId) (d : Word) (inWindow : Bool) (s : State) : Host.Outcome State Fault Refusal :=
  done (s.onMain i (fun h => h.gainWrite d inWindow))

/-- The words of a model entry. -/
def modelRegs : List RegDef :=
  [DLY_MODEL_0, DLY_MODEL_1, DLY_MODEL_2, DLY_MODEL_3, DLY_MODEL_4, DLY_MODEL_5, DLY_MODEL_6, DLY_MODEL_7, DLY_MODEL_8, DLY_MODEL_9,
   DLY_MODEL_10, DLY_MODEL_11, DLY_MODEL_12]

/-- Write word 12 of a model entry, which arms it with the words that stand in its shadow then (R94). (DEDUCED, log 15) -/
def Half.armModel (h : Half) (q : Nat) (d : Word) (late : Bool) : Half :=
  let h := h.putShadow (DLY_MODEL_12.at q) (d &&& 0x8000FFFF) late
  let f := h.front
  if late then
    { h with front := { f with armedLate := SMap.insert f.armedLate q (modelRegs.map (fun r =>
        (SMap.find? h.shadowLate (r.at q)).or (SMap.find? h.shadow (r.at q)))) } }
  else { h with front := { f with armed := SMap.insert f.armed q (modelRegs.map (fun r => SMap.find? h.shadow (r.at q))) } }

/-- R94: the control word of a model entry is written. -/
def execDlyModelArm (i : HalfId) (q : Nat) (d : Word) (inWindow : Bool) (s : State) : Host.Outcome State Fault Refusal :=
  done (s.onMain i (fun h => if q < 256 then h.armModel q d inWindow else h))

end Sys2Proof.Machine
end

