-- ==== Sys2Proof/Machine/Links.lean ====
section
/-! DEFINITION. Link groups of the Plaza exchange (R111, R114 to R117): which lanes join which peer, the group states, holds. -/

namespace Sys2Proof.Machine

/-- Link group states (Table XCH-3). -/
def xlDown : Nat := 0
def xlTraining : Nat := 1
def xlHello : Nat := 2
def xlMeasure : Nat := 3
def xlReady : Nat := 4
def xlInService : Nat := 5
def xlHeld : Nat := 6

/-- The peer that exchange lane `n` of the half serves (R111); none where it is idle. -/
def Half.lanePeer (h : Half) (n : Nat) : Option Nat :=
  let m := h.devices
  if m ≤ 1 then none
  else
    let l := 16 / (m - 1)
    let p :=
      if h.flag XCH_LANE_CFG_AUTO n then (if n / l + 1 ≤ m - 1 then some ((h.ord + n / l + 1) % m) else none)
      else some (h.fget XCH_LANE_CFG_PEER n)
    p.filter (fun p => p < m && p != h.ord)

/-- Exchange lanes that join the half to peer `p`. -/
def Half.groupLanes (h : Half) (p : Nat) : List Nat := (List.range 16).filter (fun n => h.lanePeer n == some p)

/-- Exchange lane `n` runs (its EN, and XCH RUN). -/
def Half.xLaneOn (h : Half) (n : Nat) : Bool := h.flag XCH_CTL_RUN && h.flag XCH_LANE_CFG_EN n

/-- Exchange lane `n` is live. -/
def Half.xLaneUp (h : Half) (n : Nat) : Bool := h.xLaneOn n && h.laneUp (32 + n)

/-- Live lanes of the group to `p`, ascending. -/
def Half.liveLanes (h : Half) (p : Nat) : List Nat := (h.groupLanes p).filter h.xLaneUp

def Half.xlane (h : Half) (n : Nat) : XLane := SMap.getD h.xch.lanes n XLane.reset

def Half.setXlane (h : Half) (n : Nat) (f : XLane → XLane) : Half :=
  { h with xch := { h.xch with lanes := SMap.modify h.xch.lanes n XLane.reset f } }

def Half.link (h : Half) (p : Nat) : Link := SMap.getD h.xch.links p Link.reset

def Half.setLink (h : Half) (p : Nat) (f : Link → Link) : Half :=
  { h with xch := { h.xch with links := SMap.modify h.xch.links p Link.reset f } }

def Half.linkState (h : Half) (p : Nat) : Nat := h.fget XCH_LINK_STAT_0_STATE p

def Half.linkInService (h : Half) (p : Nat) : Bool := h.linkState p == xlInService

/-- Enter a group state; REASON reads 0 outside HELD. -/
def Half.linkEnter (h : Half) (p st : Nat) : Half := (h.fset XCH_LINK_STAT_0_STATE st p).fset XCH_LINK_STAT_0_REASON 0 p

/-- Begin MEASURE: each live lane counts 16 exchanges afresh (R115). -/
def Half.linkMeasure (h : Half) (p : Nat) : Half :=
  (h.liveLanes p).foldl (fun h n => h.setXlane n (fun x => { x with cnt := 0, sum := 0 })) (h.linkEnter p xlMeasure)

/-- Group latency ℓ in 2^-16 ps: the largest over its live lanes (R115). -/
def Half.groupLat (h : Half) (p : Nat) : Int := (h.liveLanes p).foldl (fun m n => max m (h.xlane n).lat) 0

/-- What a lane has brought and that waits to land goes with its group (R117). -/
def Half.dropWaiting (h : Half) (p : Nat) : Half :=
  let mine (w : Waiting) : Bool := w.lane.isSome && w.entry == p
  let gone := h.xch.waiting.filter mine
  ({ h with xch := { h.xch with waiting := h.xch.waiting.filter (fun w => !mine w) } } : Half).fold (gone.filterMap (·.lane))
    (fun h n => h.setXlane n (fun x => { x with waits := x.waits - 1 }))

/-- Hold the group for a reason (R114 to R116), stopping what it carries at once (R117). (DEDUCED, log 18) -/
def Half.linkHold (h : Half) (p reason code : Nat) : Half :=
  let h := (h.fset XCH_LINK_STAT_0_STATE xlHeld p).fset XCH_LINK_STAT_0_REASON reason p
  ((h.dropWaiting p).setLink p (fun x => { x with peerReady := false, queue := [] })).log code

/-- MEASURE ends once every live lane has its 16 exchanges: READY, or held where ℓ is above 4 µs (R115, Table XCH-3). -/
def Half.measured (h : Half) (p : Nat) : Half :=
  if (h.liveLanes p).all (fun n => (h.xlane n).cnt == 16) then
    let h := h.putN XCH_LINK_STAT_1 (h.groupLat p / 2 ^ 16).toNat p
    if 4 * 10 ^ 6 * 2 ^ 16 < h.groupLat p then h.linkHold p 3 errXCH_LATENCY else h.linkEnter p xlReady
  else h

/-- A lane that is not live keeps its SEQ, by which the blocks lost in flight are counted when it returns (R126), and nothing else. -/
def XLane.lost (x : XLane) : XLane := { XLane.reset with seqTx := x.seqTx, seqRx := x.seqRx }

/-- The group to `p` gives up its peer: what it measured and queued goes, and it is DOWN or TRAINING again. -/
def Half.linkDrop (h : Half) (p st : Nat) : Half :=
  let h := ((h.dropWaiting p).linkEnter p st).setLink p (fun _ => Link.reset)
  (h.putN XCH_LINK_STAT_1 0 p).putN XCH_LINK_STAT_2 0 p

/-- Bring the group to `p` in line with its lanes (Table XCH-3, R126). Once its last lane is lost the group is TRAINING while one of its
lanes is enabled and not OFF, else DOWN. (DEDUCED, log 18) -/
def Half.linkSync (h : Half) (p : Nat) : Half :=
  let lanes := h.groupLanes p
  let live := h.liveLanes p
  let h := h.fset XCH_LINK_STAT_0_LANES (bitmap live) p
  let h := h.fold (lanes.filter (fun n => !live.contains n)) (fun h n => h.setXlane n XLane.lost)
  let st := h.linkState p
  if live.isEmpty then
    let trains := lanes.any (fun n => h.xLaneOn n && h.fget LAN_STAT_STATE (32 + n) != 0)
    if !trains then (if st = xlDown then h else h.linkDrop p xlDown)
    else if st = xlTraining then h else h.linkDrop p xlTraining
  else if st ≤ xlTraining then h.linkEnter p xlHello
  else if st = xlMeasure then h.measured p else h

/-- Bring every group in line. -/
def Half.linksSync (h : Half) : Half := h.fold ((List.range 16).filter (· != h.ord)) Half.linkSync

/-- Exchange lane `n` changed. -/
def Half.laneSync (h : Half) (n : Nat) : Half :=
  match h.lanePeer n with
  | some p => h.linkSync p
  | none => h

/-- Clearing XCH_CTL.RUN (R117 and the text above Table XCH-6): every group DOWN, every block not yet landed gone. -/
def Half.xchStop (h : Half) : Half :=
  let h := (h.fset XCH_CTL_RUN 0).linksSync
  { h with xch := { h.xch with waiting := [], lanes := [], bridgeQ := [] } }

/-- Log the loss of a peer in the halves whose last group to it left service, and its return (R128). -/
def State.peerWatch (old new : State) : State :=
  let svc (s : State) (p : Nat) := s.north.linkInService p || s.south.linkInService p
  (List.range 16).foldl (fun s p =>
    let was := svc old p
    let now := svc new p
    if was == now then s
    else
      let tell (o h : Half) : Half :=
        if o.linkInService p && !now then Half.finish h (h.log errPEER_DOWN)
        else if h.linkInService p && now then Half.finish h (h.log errPEER_UP) else h
      { s with north := tell old.north s.north, south := tell old.south s.south }) new

/-- XCH_RUN_CLEAR. -/
def execXchRunClear (i : HalfId) (s : State) : Host.Outcome State Fault Refusal :=
  done (s.peerWatch (s.onMain i Half.xchStop))

end Sys2Proof.Machine
end

