-- ==== Sys2Proof/Machine/Tramway.lean ====
section
/-! DEFINITION. Tramway and output flows (12_tramway_output.md): ring contexts, descriptors, completion records, doorbells
and stops, scheduling and shaping, frames, hardware producers, output lanes. -/

namespace Sys2Proof.Machine

/-! ### Ring contexts (R230, R231, Table TRW-3) -/

/-- The half that serves a ring (R230). -/
def ringHalf (r : Nat) : HalfId := if r < 524288 then .north else .south

/-- Bytes of a context that hold its fields. -/
def ctxBytes : Nat := 96

/-- HBM address of a ring's context. -/
def Half.ctxAddr (h : Half) (r : Nat) : Nat := h.getN TRW_CTX_BASE * 4096 + 128 * (r % 524288)

/-- The context of a ring as it stands, cached or in HBM. -/
def Half.ctx (h : Half) (r : Nat) : List Byte :=
  match SMap.find? h.trw.ctx r with
  | some c => c
  | none => memBytes h.hbm.mem (h.ctxAddr r) ctxBytes

/-- `c` with `len` bytes at `ofs` replaced by `v`, little-endian. -/
def putField (c : List Byte) (ofs len v : Nat) : List Byte := c.take ofs ++ leBytes len v ++ c.drop (ofs + len)

/-- `c` with bits `hi:lo` of byte `ofs` replaced. -/
def putBits (c : List Byte) (ofs hi lo v : Nat) : List Byte := putField c ofs 1 (setBits (byteAt c ofs) hi lo v)

def ctxState (c : List Byte) : Nat := bits (byteAt c 8) 7 6
def ctxPosmode (c : List Byte) : Nat := bits (byteAt c 8) 5 5
def ctxDbpend (c : List Byte) : Bool := bit (byteAt c 8) 4
def ctxOwner (c : List Byte) : Bool := bit (byteAt c 8) 3
def ctxPrio (c : List Byte) : Nat := bits (byteAt c 8) 2 0
def ctxLanes (c : List Byte) : Nat := bits (byteAt c 9) 3 0
def ctxSub (c : List Byte) : Nat := bits (byteAt c 9) 7 4
def ctxEn (c : List Byte) : Bool := bit (byteAt c 10) 7
def ctxRate (c : List Byte) : Nat := bits (fieldAt c 12 4) 18 0
def ctxBurst (c : List Byte) : Nat := max 9 (fieldAt c 16 2)
def ctxPidx (c : List Byte) : Nat := fieldAt c 72 4
def ctxDidx (c : List Byte) : Nat := fieldAt c 76 4
def ctxRcode (c : List Byte) : Nat := bits (byteAt c 56) 4 0
def ctxCcode (c : List Byte) : Nat := bits (byteAt c 57) 4 0

/-- Ring states (Table TRW-3). -/
def ringIdle : Nat := 0
def ringRunning : Nat := 1
def ringParked : Nat := 2
def ringStopped : Nat := 3

def setState (c : List Byte) (v : Nat) : List Byte := putBits c 8 7 6 v
def setPos (c : List Byte) (pos mode : Nat) : List Byte := putBits (putField c 0 8 pos) 8 5 5 mode
def setDbpend (c : List Byte) (b : Bool) : List Byte := putBits c 8 4 4 (b2n b)

/-- Add 1 to a 32-bit field of a context. -/
def incField (c : List Byte) (ofs n : Nat) : List Byte := putField c ofs 4 ((fieldAt c ofs 4 + n) % 2 ^ 32)

def Half.eng (h : Half) (r : Nat) : RingEng := SMap.getD h.trw.eng r RingEng.reset

def Half.setEng (h : Half) (r : Nat) (f : RingEng → RingEng) : Half :=
  { h with trw := { h.trw with eng := SMap.modify h.trw.eng r RingEng.reset f } }

/-- Bytes 96 to 127 of a context as they read. -/
def RingEng.bytes (e : RingEng) : List Byte :=
  (List.range 8).flatMap (fun k => leBytes 4 (Config.engineWord e.tokens e.crc e.deficit e.cap k).toNat)

/-- Write a cached context back to HBM and drop it from the cache. -/
def Half.ctxEvict (h : Half) (r : Nat) : Half :=
  let h := h.memWrite (h.ctxAddr r) (h.ctx r ++ (h.eng r).bytes)
  { h with trw := { h.trw with lru := h.trw.lru.filter (· != r), ctx := SMap.erase h.trw.ctx r } }

/-- Make room in the cache: the least recently used context that no engine holds goes (R231). (DEDUCED, log 28) -/
def Half.ctxRoom (h : Half) : Half :=
  if h.trw.lru.length < 8192 then h
  else match h.trw.lru.reverse.find? (fun r => (h.eng r).held.isNone) with
    | some r => h.ctxEvict r
    | none => h

/-- Bring a ring's context into the cache, most recently used; a load counts in MISS. -/
def Half.ctxLoad (h : Half) (r : Nat) : Half :=
  if (SMap.find? h.trw.ctx r).isSome then
    { h with trw := { h.trw with lru := r :: h.trw.lru.filter (· != r) } }
  else
    let h := h.ctxRoom
    let c := h.ctx r
    let h := { h with trw := { h.trw with lru := r :: h.trw.lru, ctx := SMap.insert h.trw.ctx r c } }
    (h.setEng r (fun e => { e with en := ctxEn c, prio := ctxPrio c, lanes := ctxLanes c })).bumpWord TRW_STAT_3

/-- Change a cached context, with the scheduler's copies of EN, PRIO and LANES. -/
def Half.setCtx (h : Half) (r : Nat) (c : List Byte) : Half :=
  ({ h with trw := { h.trw with ctx := SMap.insert h.trw.ctx r c } } : Half).setEng r (fun e =>
    { e with en := ctxEn c, prio := ctxPrio c, lanes := ctxLanes c })

/-- Change a ring's context where it stands, in the cache or in HBM: what hardware producers write without loading it (R231, R239).
(DEDUCED, log 28) -/
def Half.putCtx (h : Half) (r : Nat) (c : List Byte) : Half :=
  if (SMap.find? h.trw.ctx r).isSome then h.setCtx r c else h.memWrite (h.ctxAddr r) c

/-- A condition of a ring that carries a TRW code: the ring number is the record's INFO (Table ERR-3). -/
def Half.logRing (h : Half) (code r : Nat) : Half := h.logErr code 0xFFFF r

/-! ### Descriptors and completion records (R233 to R236) -/

/-- Start of the area from which capture readout headers are fetched (R234), outside the HBM address space. (DESIGN CHOICE, log 24) -/
def headerStage : Nat := 2 ^ 40

/-- Read what a descriptor's SRC names: HBM, or a capture feed's header staging for a hardware producer. -/
def Half.srcRead (h : Half) (staged : List Byte) (a n : Nat) : (List Byte × Bool) × Half :=
  if headerStage ≤ a then ((slice staged 0 n, false), h) else h.memRead a n

/-- The capture header that lies at a staging address: the address's own packet (Capture.lean fills `h.stage`). -/
def Half.staged (h : Half) (a : Nat) : List Byte := SMap.getD h.stage a []

/-- Table TRW-1: the control word asks for something reserved, or its fields are out of range (R235). -/
def descBad (hw : Bool) (d : List Byte) : Bool :=
  let ctl := fieldAt d 0 8
  let next := fieldAt d 8 8
  let src := fieldAt d 16 8
  let len := fieldAt d 24 4
  bits ctl 57 32 != 0 || fieldAt d 28 4 != 0 || len == 0 || 8952 < len
    || (!bit ctl 63 && (next % 32 != 0 || !inHbm next 32)) || !(inHbm src len || (hw && headerStage ≤ src))

/-- What reading on from a descriptor came to: a datagram, or a chain that ends inside one. -/
inductive ReadChain where
  | gram (d : Datagram)
  | short
  deriving DecidableEq, Repr

/-- A faulty descriptor with control word `ctl`, and the running CRC with it: that after its data where they were taken, else as it stood.
(DEDUCED, log 28) -/
def faultOf (ctl crc : Nat) : DescFault := ⟨bits ctl 31 0, crc, bit ctl 63, false, bit ctl 58⟩

/-- Walk the chain from `a` to the end of one datagram (R232, R233): running CRC, payload and descriptors so far. -/
def Half.walk : Nat → Half → Bool → Nat → Datagram → ReadChain × Half
  | 0, h, _, _, d => (.gram { d with status := 2 }, h)
  | fuel + 1, h, hw, a, d =>
    let crcNow := d.crc ^^^ 0xFFFFFFFF
    if !(a % 32 == 0 && inHbm a 32) then (.gram { d with status := 2, fault := { DescFault.none with crc := crcNow } }, h)
    else
      let ((bs, ecc), h) := h.memRead a 32
      let ctl := fieldAt bs 0 8
      let tag := bits ctl 31 0
      let src := fieldAt bs 16 8
      let len := fieldAt bs 24 4
      if ecc then (.gram { d with status := 3, fault := faultOf (Config.eccControl a ctl) crcNow }, h)
      else if descBad hw bs then (.gram { d with status := 2, fault := faultOf ctl crcNow }, h)
      else
        let ((data, bad), h) := h.srcRead (h.staged src) src len
        let crc0 := if bit ctl 60 then 0xFFFFFFFF else d.crc
        let crc := if bit ctl 61 then data.foldl crcByte crc0 else crc0
        let out := crc ^^^ 0xFFFFFFFF
        let payload := d.payload ++ data ++ (if bit ctl 59 then leBytes 4 out else [])
        let e : Executed := ⟨a, bit ctl 63, bit ctl 58, tag, fieldAt bs 8 8, src, len, out⟩
        -- a capture readout goes on over an uncorrectable word (R225)
        let bad := bad && d.status = 0 && !(d.descs.any (fun e => headerStage ≤ e.src))
        let d := { d with descs := d.descs ++ [e], payload := payload, crc := crc, status := if bad then 4 else d.status
                          fault := if bad then { faultOf ctl out with dgend := !bit ctl 62 } else d.fault }
        if 8952 < payload.length then (.gram { d with status := 2, fault := faultOf ctl out }, h)
        else if !bit ctl 62 then (.gram d, h)
        else if bit ctl 63 then (.short, h)
        else if d.descs.length = 16 then (.gram { d with status := 2, fault := faultOf ctl out }, h)
        else walk fuel h hw (fieldAt bs 8 8) d

/-- Write a completion record (R236, Table TRW-2); with CCODE 0 none is written. -/
def Half.complete (h : Half) (r : Nat) (tag crc status : Nat) (ended dgend : Bool) : Half :=
  let c := h.ctx r
  let cc := ctxCcode c
  if cc = 0 then h
  else
    let cidx := fieldAt c 80 4
    let phase := b2n (cidx / 2 ^ cc % 2 == 0)
    let rec_ := leBytes 4 tag ++ leBytes 4 crc ++ leBytes 4 (fieldAt c 88 4)
      ++ [BitVec.ofNat 8 status, BitVec.ofNat 8 (phase * 128 + b2n ended * 2 + b2n dgend), 0, 0]
    (h.memWrite (fieldAt c 64 8 + cidx % 2 ^ cc * 16) rec_).setCtx r (incField c 80 1)

/-- The notify event of a group (Table TRW-13). -/
def Half.notify (h : Half) (g : Nat) : Half := if g < 192 then h.raise (512 + g) else h

/-- What a fault of R235 leaves: its completion record, TRW_FAULT, its code, and the notify event of a descriptor with NOTIFY (R254). -/
def Half.faultRecord (h : Half) (r status evg : Nat) (f : DescFault) : Half :=
  let code := if status = 2 then errTRW_BAD_DESC else if status = 3 then errTRW_DESC_ECC else errTRW_SRC_ECC
  let h := ((h.complete r f.tag f.crc status f.ended f.dgend).raise 713).logRing code r
  if f.notify then h.notify evg else h

/-- A faulty descriptor stops its ring, with POS at the last descriptor of the last datagram sent (R235). -/
def Half.faultStop (h : Half) (r status evg : Nat) (f : DescFault) : Half :=
  let h := h.faultRecord r status evg f
  let c := setState (h.ctx r) ringStopped
  let h := h.setCtx r (match (h.eng r).sentAt with | some a => setPos c a 1 | none => c)
  h.setEng r (fun e => { e with stopAsked := false, deficit := 0 })

/-! ### Doorbells, stop and start (R238, R240) -/

/-- The descriptor that a ring has executed last is read again: with END at 0 the ring goes on at NEXT, with END at 1 it is PARKED there, and
a fault stops it (R235, R238). The flag says that END was 1. -/
def Half.rereadDesc (h : Half) (r a : Nat) : Bool × Half :=
  let c := h.ctx r
  let crc := (h.eng r).crc ^^^ 0xFFFFFFFF
  let evg := byteAt c 11
  let ((bs, ecc), h) := h.memRead a 32
  let ctl := fieldAt bs 0 8
  if ecc then (false, h.faultStop r 3 evg (faultOf (Config.eccControl a ctl) crc))
  else if descBad (ctxOwner c) bs then (false, h.faultStop r 2 evg (faultOf ctl crc))
  else if bit ctl 63 then (true, h.setCtx r (setPos (setState c ringParked) a 1))
  else (false, h.setCtx r (setPos (setState c ringRunning) (fieldAt bs 8 8) 0))

/-- Read a PARKED ring's descriptor again; a doorbell that finds END at 1 counts in DBNULL (R238). -/
def Half.rereadParked (h : Half) (r : Nat) : Half :=
  let x := h.rereadDesc r (fieldAt (h.ctx r) 0 8)
  if x.1 then x.2.bumpWord TRW_STAT_2 else x.2

/-- A doorbell on a ring whose context is cached (R238). -/
def Half.bellCached (h : Half) (r : Nat) : Half :=
  let c := h.ctx r
  let st := ctxState c
  if st = ringIdle then h.setCtx r (setState c ringRunning)
  else if st = ringRunning then h.setCtx r (setDbpend c true)
  else if st = ringParked then h.rereadParked r
  else h.bumpWord TRW_STAT_2

/-- A doorbell (R231, R238): acted on at once where the context is cached, else recorded in the on-die table. -/
def Half.bell (h : Half) (r : Nat) : Half :=
  if (SMap.find? h.trw.ctx r).isSome then h.bellCached r
  else if ctxState (h.ctx r) = ringStopped then h.bumpWord TRW_STAT_2
  else
    let c := h.ctx r
    h.setEng r (fun e => { e with bell := true, en := ctxEn c, prio := ctxPrio c, lanes := ctxLanes c })

/-- R238, R230, R239: a doorbell that software writes. -/
def Half.doorbell (h : Half) (r : Nat) : Half :=
  let r := r % 2 ^ 20
  if ringHalf r != h.id then h.logRing errTRW_CFG_RANGE r
  else if ctxOwner (h.ctx r) then h.logRing errTRW_DB_OWNER r
  else h.bell r

/-- R238. -/
def execTrwDoorbell (i : HalfId) (r : Nat) (s : State) : Host.Outcome State Fault Refusal := done (s.onMain i (fun h => h.doorbell r))

/-- A stop takes effect on a ring that no engine holds (R240). -/
def Half.stopNow (h : Half) (r : Nat) : Half :=
  let c := setState (h.ctx r) ringStopped
  let c := match (h.eng r).last with
    | some a => if ctxState (h.ctx r) = ringRunning then setPos c a 1 else c
    | none => c
  ((h.setCtx r (setDbpend c false)).setEng r (fun e => { e with stopAsked := false, bell := false, deficit := 0 })).raise 704

/-- STOP of a ring (R240). (DEDUCED, log 28) -/
def Half.stopRing (h : Half) (r : Nat) : Half :=
  let h := h.ctxLoad r
  if ctxState (h.ctx r) = ringStopped then h
  else if (h.eng r).held.isSome then h.setEng r (fun e => { e with stopAsked := true })
  else h.stopNow r

/-- START of a ring (R240). -/
def Half.startRing (h : Half) (r : Nat) : Half :=
  let h := h.ctxLoad r
  let c := h.ctx r
  if ctxState c != ringStopped then h
  else if ctxPosmode c = 0 then h.setCtx r (setState c ringIdle)
  else (h.setCtx r (setState c ringParked)).bellCached r

/-- R240: TRW_RING_CMD with OP 1. -/
def Half.stopRingCmd (h : Half) (r : Nat) : Half :=
  let r := r % 2 ^ 20
  if ringHalf r != h.id then h.logRing errTRW_CFG_RANGE r else h.stopRing r

/-- R240. -/
def execTrwStop (i : HalfId) (r : Nat) (s : State) : Host.Outcome State Fault Refusal := done (s.onMain i (fun h => h.stopRingCmd r))

/-- R240: TRW_RING_CMD with OP 2. -/
def Half.startRingCmd (h : Half) (r : Nat) : Half :=
  let r := r % 2 ^ 20
  if ringHalf r != h.id then h.logRing errTRW_CFG_RANGE r else h.startRing r

/-- R240. -/
def execTrwStart (i : HalfId) (r : Nat) (s : State) : Host.Outcome State Fault Refusal := done (s.onMain i (fun h => h.startRingCmd r))

/-- STOP of a ring that the scheduler has never had, in its context in HBM (R240). (DEDUCED, log 28) -/
def Half.stopUnseen (h : Half) (r : Nat) : Half :=
  if (h.addrPcs (h.ctxAddr r)).isEmpty || ctxState (h.ctx r) = ringStopped then h
  else (h.memWrite (h.ctxAddr r) (setDbpend (setState (h.ctx r) ringStopped) false)).raise 704

/-- The rings that a half serves (R230). -/
def Half.ringsServed (h : Half) : List Nat := (List.range 524288).map (· + (match h.id with | .north => 0 | .south => 524288))

/-- R240: clearing RUN stops every ring of the half. -/
def Half.trwStop (h : Half) : Half :=
  let seen := h.trw.eng.map (·.1)
  ((h.fset TRW_CTL_RUN 0).fold seen (fun h r => h.stopRing r)).fold (h.ringsServed.filter (fun r => !seen.contains r)) Half.stopUnseen

/-- R240. -/
def execTrwRunClear (i : HalfId) (s : State) : Host.Outcome State Fault Refusal := done (s.onMain i (fun h => h.trwStop))

/-! ### The context window (R242) -/

/-- Bits of a context word that exist (Table TRW-3). -/
def ctxMask (w : Nat) : Nat :=
  if 23 ≤ w then 0
  else if w = 2 then 0xFFF0FFFF
  else if w = 3 then 0x7FFFF
  else if w = 5 then 0xFFFFFFFC
  else if w = 14 then 0x1F1F
  else if w = 15 then 0
  else 0xFFFFFFFF

/-- Bits that may change while the ring is RUNNING or PARKED: PRIO, LANES, EN, RATE, BURST, EVG, TCI, DSCP. -/
def ctxLiveMask (w : Nat) : Nat :=
  if w = 2 then 0xFF800F07 else if w = 3 then 0x7FFFF else if w = 4 then 0xFFFFFFFF else if w = 5 then 0xFC else 0

/-- Device time of a write: the latest that a tick or a grant has shown. (DEDUCED, log 28) -/
def Half.trwNow (h : Half) : Nat := max h.deviceTime h.trw.clock

/-- Tokens of a ring at device time `t` in TCLK cycles (R244). -/
def Half.tokensAt (h : Half) (r t : Nat) : Int :=
  let e := h.eng r
  let c := h.ctx r
  min ((ctxBurst c * 1024 * 800 : Nat) : Int) (e.tokens + ((ctxRate c * (t - e.tokTime) : Nat) : Int))

/-- The bucket is brought up to the present under RATE and BURST as they stand. -/
def Half.bringTokens (h : Half) (r : Nat) : Half :=
  h.setEng r (fun e => { e with tokens := h.tokensAt r h.trwNow, tokTime := max e.tokTime h.trwNow })

/-- The bucket of a ring is full (R244). -/
def Half.fillTokens (h : Half) (r : Nat) : Half :=
  h.setEng r (fun e => { e with tokens := ((ctxBurst (h.ctx r) * 1024 * 800 : Nat) : Int), tokTime := h.trwNow })

/-- POS has been given a new value: what was executed before says nothing of it. -/
def Half.forgetLast (h : Half) (r : Nat) : Half := h.setEng r (fun e => { e with last := none, sentAt := none })

/-- Write a word of a ring's context through the window (R242). -/
def Half.ctxWrite (h : Half) (r w : Nat) (d : Word) : Half :=
  let h := h.ctxLoad r
  let c := h.ctx r
  let active := ctxState c = ringRunning || ctxState c = ringParked
  let mask := if active then ctxLiveMask w else ctxMask w
  let old := fieldAt c (4 * w) 4
  let new := (old &&& (0xFFFFFFFF ^^^ mask)) ||| (d.toNat &&& mask)
  let fields := if w = 23 then 0xFFFFFFFF else ctxMask w
  let h := if active && (d.toNat ^^^ old) &&& fields &&& (0xFFFFFFFF ^^^ mask) != 0 then h.logErr (errLockedWrite 18) else h
  if mask = 0 then h
  else
    let refill := ctxRate c = 0 && w = 3 && new != 0
    let h := if w = 3 || w = 4 then h.bringTokens r else h
    let h := h.setCtx r (putField c (4 * w) 4 new)
    let h := if new != old && (w < 2 || (w = 2 && bit (new ^^^ old) 5)) then h.forgetLast r else h
    if refill then h.fillTokens r else h

/-- R242: a context word of the ring that TRW_CTX_SEL names; a ring of the other half is not served here (R230). -/
def Half.ctxDataWrite (h : Half) (w : Nat) (d : Word) : Half :=
  let r := h.fget TRW_CTX_SEL_RING
  if ringHalf r != h.id then h.logRing errTRW_CFG_RANGE r
  else if 32 ≤ w then h else h.ctxWrite r w d

/-- R242. -/
def execTrwCtxDataWrite (i : HalfId) (w : Nat) (d : Word) (s : State) : Host.Outcome State Fault Refusal :=
  done (s.onMain i (fun h => h.ctxDataWrite w d))

/-- What the window shows of a ring's context word: bytes 96 to 127 show the engine state. -/
def Half.ctxReadWord (h : Half) (r w : Nat) : Word :=
  if w < 24 then BitVec.ofNat 32 (fieldAt (h.ctx r) (4 * w) 4)
  else let e := h.eng r; Config.engineWord e.tokens e.crc e.deficit e.cap (w - 24)

/-! ### Frames (R246) -/

/-- IPv4 or IPv6 header for a UDP datagram of `len` bytes (header included). -/
def Half.ipHeader (h : Half) (c : List Byte) (r l len : Nat) : List Byte :=
  let dscp := bits (byteAt c 20) 7 2
  let ttl := byteAt c 21
  if bit (byteAt c 10) 6 then
    beBytes 4 (6 * 2 ^ 28 + dscp * 4 * 2 ^ 20 + r % 2 ^ 20) ++ beBytes 2 len ++ [17, BitVec.ofNat 8 ttl]
      ++ ([OUT_PORT_3, OUT_PORT_4, OUT_PORT_5, OUT_PORT_6].flatMap (fun w => beBytes 4 (h.getN w l))) ++ slice c 32 16
  else
    let front : List Byte := [0x45, BitVec.ofNat 8 (dscp * 4)] ++ beBytes 2 (20 + len)
      ++ beBytes 2 (fieldAt c 88 4 % 2 ^ 16) ++ beBytes 2 0x4000 ++ [BitVec.ofNat 8 ttl, 17]
    let addrs := beBytes 4 (h.getN OUT_PORT_2 l) ++ slice c 32 4
    front ++ beBytes 2 (inetChecksum (front ++ [0, 0] ++ addrs)) ++ addrs

/-- UDP datagram of a flow with its checksum. -/
def udpBytes (v6 off : Bool) (sip dip sport dport payload : List Byte) : List Byte :=
  let len := 8 + payload.length
  let head := sport ++ dport ++ beBytes 2 len
  let pseudo := sip ++ dip ++ (if v6 then beBytes 4 len ++ [0, 0, 0, 17] else [0, 17] ++ beBytes 2 len)
  let sum := inetChecksum (pseudo ++ head ++ [0, 0] ++ payload)
  head ++ (if off then [0, 0] else beBytes 2 (if sum = 0 then 0xFFFF else sum)) ++ payload

/-- The frame of a datagram on logical lane `l` under the flow definition `c` (Table TRW-4), without preamble, SFD and gap. -/
def Half.frameWith (h : Half) (c : List Byte) (r l : Nat) (payload : List Byte) : List Byte :=
  let v6 := bit (byteAt c 10) 6
  let ip := h.ipHeader c r l (8 + payload.length)
  let sip := if v6 then slice ip 8 16 else slice ip 12 4
  let dip := if v6 then slice ip 24 16 else slice ip 16 4
  let udp := udpBytes v6 (bit (byteAt c 10) 4 && !v6) sip dip (beBytes 2 (fieldAt c 24 2)) (beBytes 2 (fieldAt c 22 2)) payload
  let smac := beBytes 2 (h.fget OUT_PORT_1_SMAC_HI l) ++ beBytes 4 (h.getN OUT_PORT_0 l)
  let tag := if bit (byteAt c 10) 5 then [0x81, 0x00] ++ beBytes 2 (fieldAt c 18 2) else []
  let body := slice c 26 6 ++ smac ++ tag ++ (if v6 then [0x86, 0xDD] else [0x08, 0x00]) ++ ip ++ udp
  let body := body ++ List.replicate (60 - body.length) 0
  body ++ leBytes 4 (ethFcs body)

/-- The frame under the flow definition as it stands. -/
def Half.frameOf (h : Half) (r l : Nat) (payload : List Byte) : List Byte := h.frameWith (h.ctx r) r l payload

/-- A ring's flow definition with TCI and DSCP as they stood when the datagram was granted (R242). -/
def Datagram.flowDef (d : Datagram) (c : List Byte) : List Byte := putBits (putField c 18 2 d.tci) 20 7 2 d.dscp

/-- Wire bytes of a frame: preamble, SFD and inter-frame gap counted (R244). -/
def wireBytes (frame : List Byte) : Nat := frame.length + 20

/-! ### Scheduling (R243, R244) -/

/-- Physical lane of a logical lane, none where it is vacant (Table TRW-10). -/
def Half.outPhys (h : Half) (l : Nat) : Option Nat :=
  let p := bits (h.fget OUT_MAP_MAP) (4 * l + 3) (4 * l)
  if p = 0xF then none else some p

/-- The non-vacant logical lanes: those of OUT_MAP, or lane 0 in PMODE 1 (R251). -/
def Half.logicalLanes (h : Half) : List Nat :=
  if h.flag OUT_CTL_PMODE then [0] else (List.range 4).filter (fun l => (h.outPhys l).isSome)

/-- The lane can take frames: it carries traffic and has its link; in PMODE 1 every member lane must (R252, R253). -/
def Half.outLaneUp (h : Half) (l : Nat) : Bool :=
  h.flag OUT_CTL_RUN && h.logicalLanes.contains l &&
    (if h.flag OUT_CTL_PMODE then [0, 1, 2, 3].all (fun p => h.flag OUT_LANE_STAT_0_UP p)
     else match h.outPhys l with
      | some p => h.flag OUT_LANE_STAT_0_UP p && !h.trw.faulted.contains p
      | none => false)

/-- Frames waiting in a lane's transmit FIFO. -/
def Half.fifo (h : Half) (l : Nat) : List FifoFrame := SMap.getD h.trw.fifo l []

/-- The FIFO of 64 KiB has room for a frame of 9,042 bytes, those on their way to it counted in full. -/
def Half.fifoRoom (h : Half) (l : Nat) : Bool :=
  let coming := (h.trw.eng.filter (fun e => match e.2.held with | some d => d.lane == l | none => false)).length
  ((h.fifo l).map (·.wire)).sum + coming * 9042 + 9042 ≤ 65536

/-- The ring names lane `l`, or no lane that is not vacant (R243). -/
def Half.ringOnLane (h : Half) (lanes l : Nat) : Bool :=
  bit lanes l || !(h.logicalLanes.any (fun k => bit lanes k))

/-- The ring is eligible for a grant on lane `l` (R243). -/
def Half.ringEligible (h : Half) (l t r : Nat) : Bool :=
  let e := h.eng r
  let c := h.ctx r
  e.en && e.held.isNone && h.ringOnLane e.lanes l
    && (e.bell || ctxState c == ringRunning || (ctxState c == ringParked && ctxDbpend c)) && (ctxRate c == 0 || 0 < h.tokensAt r t)

/-- What the engine would read next for a ring that is RUNNING. -/
def Half.nextGram (h : Half) (r l : Nat) : ReadChain × Half :=
  let c := h.ctx r
  h.walk 17 (ctxOwner c) (fieldAt c 0 8) ⟨l, [], [], (h.eng r).crc, 0, DescFault.none, fieldAt c 18 2, bits (byteAt c 20) 7 2, byteAt c 11⟩

/-- Wire bytes of a ring's next datagram; 0 for one that is not sent. -/
def Half.nextWire (h : Half) (r l : Nat) : Nat :=
  match (h.nextGram r l).1 with
  | .gram d => if d.status = 0 then wireBytes (h.frameOf r l d.payload) else 0
  | .short => 0

/-- Deficit round robin among the eligible rings of one priority (R243): the ring last served goes on while its deficit
lasts; else the next in ring order takes its turn with a new quantum. The flag says that a turn begins. -/
def Half.drrPick (h : Half) (l prio : Nat) (rings : List Nat) : Option (Nat × Bool) :=
  let next := match SMap.find? h.trw.served (l * 8 + prio) with
    | some last =>
      if rings.contains last && h.nextWire last l ≤ (h.eng last).deficit then some (last, false)
      else ((rings.find? (last < ·)).map (·, true))
    | none => none
  match next with
  | some x => some x
  | none => rings.head?.map (·, true)

/-- The ring that lane `l` grants next: strict priority first (R243). -/
def Half.pickRing (h : Half) (l t : Nat) : Option (Nat × Nat × Bool) :=
  let rings := (h.trw.eng.map (·.1)).filter (h.ringEligible l t)
  (List.range 8).findSome? (fun p => (h.drrPick l p (rings.filter (fun r => (h.eng r).prio == p))).map (fun (r, turn) => (p, r, turn)))

/-- The doorbell recorded for a ring whose context was not cached is acted on once it is loaded (R231), and that of a PARKED ring with DBPEND
(R243). -/
def Half.takeBell (h : Half) (r : Nat) : Half :=
  let h := if (h.eng r).bell then (h.setEng r (fun e => { e with bell := false })).bellCached r else h
  let c := h.ctx r
  if ctxState c = ringParked && ctxDbpend c then (h.setCtx r (setDbpend c false)).rereadParked r else h

/-- A chain that ends inside a datagram: nothing is sent, and the ring waits for a doorbell where it stood. -/
def Half.waitShort (h : Half) (r : Nat) : Half :=
  let c := h.ctx r
  match (h.eng r).last with
  | some a => h.setCtx r (setPos (setState c ringParked) a 1)
  | none => h.setCtx r (setState c ringIdle)

/-- Hand a ring's next datagram to an engine for lane `l` (R232). -/
def Half.hold (h : Half) (l t r : Nat) (turn : Bool) : Half :=
  match h.nextGram r l with
  | (.short, h) => h.waitShort r
  | (.gram d, h) =>
    let wire := if d.status = 0 then wireBytes (h.frameOf r l d.payload) else 0
    let tok := h.tokensAt r t
    h.setEng r (fun e => { e with
      held := some d, tokens := tok - ((wire * 800 : Nat) : Int), tokTime := t
      deficit := (if turn then e.deficit + 9216 else e.deficit) - wire })

/-- BUSY: engines that hold a ring (Table TRW-9). -/
def Half.countBusy (h : Half) : Half :=
  h.fset TRW_STAT_0_BUSY ((h.trw.eng.filter (fun e => e.2.held.isSome)).length)

/-- R243: lane `l` of a half asks for a datagram at device time `t` (TCLK cycles). -/
def execLaneGrant (i : HalfId) (l t : Nat) (s : State) : Host.Outcome State Fault Refusal :=
  done (s.onMain i (fun h =>
    if !(h.flag TRW_CTL_RUN && !h.inHold && h.outLaneUp l && h.fifoRoom l && h.fget TRW_STAT_0_BUSY < 64) then h
    else match h.pickRing l t with
      | none => h
      | some (p, r, turn) =>
        let h := (h.ctxLoad r).takeBell r
        let h := { h with trw := { h.trw with served := SMap.insert h.trw.served (l * 8 + p) r, clock := max h.trw.clock t } }
        if ctxState (h.ctx r) = ringRunning then (h.hold l t r turn).countBusy else h))

/-- Outbound space of the data that descriptors sent is freed (R191). -/
def Half.freeOut (h : Half) (srcs : List Nat) : Half :=
  let drop {α : Type} (m : SMap α) : SMap α := srcs.foldl (fun m a => SMap.erase m a) m
  { h with trw := { h.trw with outHeld := drop h.trw.outHeld, outDue := drop h.trw.outDue, outTag := drop h.trw.outTag }, stage := h.stage.filter (fun e => !srcs.contains e.1) }

/-- LTA_OUT_USE: outbound buffer held, in MiB (Table VIS-5). (DEDUCED, log 23) -/
def Half.countOut (h : Half) : Half :=
  h.fset LTA_OUT_USE_USE (cdiv ((h.trw.outHeld.map (·.2)).sum) (2 ^ 20))

/-- Completion records and notify events of a datagram's descriptors; the one at which a stop takes effect always has one
(R236, R240). -/
def Half.completeAll (h : Half) (r evg : Nat) (ds : List Executed) (stop : Bool) : Half :=
  let n := ds.length
  h.fold ds.zipIdx (fun h (d, k) =>
    let final := k + 1 == n
    let h := if d.notify || d.ended || (stop && final) then
      h.complete r d.tag d.crc (if stop && final then 1 else 0) d.ended final else h
    if d.notify then h.notify evg else h)

/-- The state of a ring after the last descriptor of a datagram (R238). -/
def Half.afterGram (h : Half) (r : Nat) (d : Executed) : Half :=
  let c := h.ctx r
  if !d.ended then h.setCtx r (setPos c d.next 0)
  else
    let parked := setPos (setState c ringParked) d.addr 1
    if ctxDbpend c then
      ((h.setCtx r (setDbpend parked false)).rereadDesc r d.addr).2
    else (h.setCtx r parked).setEng r (fun e => { e with deficit := 0 })

/-- R232: the engine's datagram is in the lane FIFO: records are written and the ring is released. -/
def Half.gramDone (h : Half) (r : Nat) (d : Datagram) : Half :=
  let stop := (h.eng r).stopAsked
  let h := h.setEng r (fun e => { e with held := none, crc := d.crc })
  let last := d.descs.getLast?
  if d.status = 2 || d.status = 3 then
    h.faultStop r d.status d.evg d.fault
  else
    let h := h.freeOut (d.descs.map (·.src))
    let h := h.setCtx r (incField (h.ctx r) 76 d.descs.length)
    let h := if d.status = 4 then
        let h := h.faultRecord r 4 d.evg d.fault
        match last with
        | some e => if stop then h.complete r e.tag e.crc 1 e.ended true else h
        | none => h
      else
        let f := h.frameWith (d.flowDef (h.ctx r)) r d.lane d.payload
        let h := { h with trw := { h.trw with
          fifo := SMap.insert h.trw.fifo d.lane (h.fifo d.lane ++ [FifoFrame.mk r (wireBytes f) f]) } }
        (h.setCtx r (incField (h.ctx r) 88 1)).completeAll r d.evg d.descs stop
    let h := match last with
      | some e => (h.setEng r (fun x => { x with last := some e.addr, sentAt := if d.status = 4 then x.sentAt else some e.addr })).afterGram r e
      | none => h
    if stop then
      let h := match last with
        | some e => h.setCtx r (setPos (h.ctx r) e.addr 1)
        | none => h
      ((h.setCtx r (setDbpend (setState (h.ctx r) ringStopped) false)).setEng r (fun e => { e with stopAsked := false })).raise 704
    else h

/-- The physical lane on which frames of a logical lane are sent and counted: its own, or in PMODE 1 the port's first member (R251). -/
def Half.sendLane (h : Half) (l : Nat) : Option Nat := if h.flag OUT_CTL_PMODE then some 0 else h.outPhys l

/-- A lane sends the oldest frame of its FIFO. -/
def Half.sendFrame (h : Half) (l : Nat) : Half :=
  match h.outLaneUp l, h.fifo l, h.sendLane l with
  | true, f :: rest, p? =>
    let p := p?.getD 0
    let h := { h with trw := { h.trw with fifo := SMap.insert h.trw.fifo l rest } }
    (h.bumpWord OUT_LANE_STAT_1 1 p).sendOn (48 + p) f.frame (.outFrame p f.frame)
  | _, _, _ => h

/-- Every lane sends one frame that waits; in the HOLD of R369 the lanes send idles. (DESIGN CHOICE, log 3) -/
def Half.drainLanes (h : Half) : Half := if h.mainUp && !h.inHold then h.fold [0, 1, 2, 3] (fun h l => h.sendFrame l) else h

/-! ### Hardware producers (R239) -/

/-- The outbound buffer in bytes (R191). -/
def Half.outBase (h : Half) : Nat := h.getN LTA_OUT_BASE * 4096
def Half.outSize (h : Half) : Nat := h.fget LTA_OUT_SIZE_SIZE * 2 ^ 20

/-- Space for `n` bytes in the outbound buffer, at the lowest free address aligned to 64 B. (DEDUCED, log 23) -/
def Half.outAlloc (h : Half) (n : Nat) : Option Nat :=
  let need := cdiv n 64 * 64
  let a := h.trw.outHeld.foldl (fun a e => if a + need ≤ e.1 then a else max a (e.1 + e.2)) h.outBase
  let fits (a : Nat) : Bool := a + need ≤ h.outBase + h.outSize
    && h.trw.outHeld.all (fun e => a + need ≤ e.1 || e.1 + e.2 ≤ a)
  let starts := h.outBase :: h.trw.outHeld.map (fun e => e.1 + e.2)
  match starts.find? fits with
  | some s => some s
  | none => if fits a then some a else none

/-- The descriptors that may stand on a ring (R239, R250). -/
def Half.ringRoom (h : Half) (r : Nat) : Nat :=
  let c := h.ctx r
  let cap := match (h.eng r).cap with | some n => if ctxOwner c then min n (2 ^ ctxRcode c) else 2 ^ ctxRcode c | none => 2 ^ ctxRcode c
  cap - (ctxPidx c + 2 ^ 32 - ctxDidx c) % 2 ^ 32

/-- Address of descriptor `n` in the ring region. -/
def descSlot (c : List Byte) (n : Nat) : Nat := fieldAt c 48 8 + n % 2 ^ ctxRcode c * 32

/-- Append a descriptor by the steps of R237: written whole with END, then END of the one before it cleared. -/
def Half.appendDesc (h : Half) (r flags src len : Nat) : Half :=
  let c := h.ctx r
  let n := ctxPidx c
  let ctl := 2 ^ 63 + flags + b2n (Config.producerNotify r n) * 2 ^ 58 + (Config.producerTag r n).toNat
  let h := h.memWrite (descSlot c n)
    (leBytes 8 ctl ++ leBytes 8 (descSlot c (n + 1)) ++ leBytes 8 src ++ leBytes 4 len ++ leBytes 4 0)
  let prev := descSlot c (n + 2 ^ 32 - 1)
  let h := if n = ctxDidx c && ctxPosmode c = 0 && (ctxState c = ringIdle || ctxState c = ringStopped) then h
    else
      let old := leNat (memBytes h.hbm.mem prev 8)
      h.memWrite prev (leBytes 8 (old % 2 ^ 63))
  h.putCtx r (incField (h.ctx r) 72 1)

/-- A packet is offered to a ring: PSEQ advances (R239). -/
def Half.offerSeq (h : Half) (r : Nat) : Half := h.putCtx r (incField (h.ctx r) 84 1)

/-- The PSEQ that the next packet offered takes. -/
def Half.nextSeq (h : Half) (r : Nat) : Nat := fieldAt (h.ctx r) 84 4

/-- A packet is dropped for want of room on its ring (R239), or over the cap of R250, which QUOTA_SHED reports (R42). -/
def Half.dropOffered (h : Half) (r : Nat) : Half :=
  let c := h.ctx r
  let capped := ctxOwner c && (h.eng r).cap.any (fun n => n < 2 ^ ctxRcode c)
  let h := h.putCtx r (incField c 92 1)
  ((if capped then ((h.raise 706).raise 455).log errQUOTA_SHED (ctxSub c) else h).raise 705).logRing errTRW_RING_FULL r

/-- What became of an offered packet. -/
inductive Offered where
  | queued | ringFull | outFull
  deriving DecidableEq, Repr

/-- A producer writes a packet to the outbound buffer and appends its descriptor (R190, R191, R239): the buffer is asked
first, and its space is freed again where the ring has no room. `tag` says what the packet belongs to, `due` is the tick before which it
must leave (R18), 0 for none. (DEDUCED, log 23) -/
def Half.offerPacket (h : Half) (r : Nat) (pkt : Nat → List Byte) (tag : List Nat) (due : Nat) : Offered × Half :=
  let bs := pkt (h.nextSeq r)
  let h := h.offerSeq r
  match h.outAlloc bs.length with
  | none => (.outFull, h.log errLTA_OUT_FULL)
  | some a =>
    if h.ringRoom r = 0 then (.ringFull, h.dropOffered r)
    else
      let h := { h with trw := { h.trw with outHeld := SMap.insert h.trw.outHeld a (cdiv bs.length 64 * 64)
                                            outTag := SMap.insert h.trw.outTag a tag
                                            outDue := if due = 0 then h.trw.outDue else SMap.insert h.trw.outDue a due } }
      let h := h.memWrite a bs
      let h := h.appendDesc r 0 a bs.length
      (.queued, (h.bell r).countOut)

/-- A product header (R248, Table TRW-5). -/
structure PHeader where
  type : Nat
  sub : Nat
  prod : Nat
  flags : Nat
  start : Nat
  intlen : Nat
  index : Nat
  ochan : Nat
  deriving DecidableEq, Repr

/-- TAI second at spectrum 0 (Table TMG-6). -/
def Half.epochSec (h : Half) : Nat := h.getN TMG_EPOCH_LO + h.fget TMG_EPOCH_HI_EPOCH_HI * 2 ^ 32

/-- The bytes of a product header. -/
def Half.headerBytes (h : Half) (p : PHeader) (plen rseq ring : Nat) : List Byte :=
  leBytes 2 0x4F42 ++ leBytes 1 1 ++ leBytes 1 p.type ++ leBytes 1 (p.sub * 16 + h.ord) ++ leBytes 1 (match h.id with | .north => 0 | .south => 1)
    ++ leBytes 1 p.prod ++ leBytes 1 p.flags ++ leBytes 5 h.epochSec ++ leBytes 3 0 ++ leBytes 6 p.start ++ leBytes 2 0
    ++ leBytes 4 p.intlen ++ leBytes 4 p.index ++ leBytes 2 p.ochan ++ leBytes 2 plen ++ leBytes 4 rseq ++ leBytes 4 ring
    ++ leBytes 20 0

/-- A product packet: header, payload and the CRC over both (R248). -/
def Half.productPacket (h : Half) (p : PHeader) (ring : Nat) (payload : List Byte) (rseq : Nat) : List Byte :=
  withCrc (h.headerBytes p payload.length rseq ring ++ payload)

/-! ### Output lanes (R247, R251 to R253) -/

/-- The frames in a logical lane's FIFO are lost (R252). -/
def Half.loseFifo (h : Half) (l p : Nat) : Half :=
  let n := (h.fifo l).length
  if n = 0 then h
  else
    let h := { h with trw := { h.trw with fifo := SMap.erase h.trw.fifo l } }
    (h.bumpWord OUT_LANE_STAT_2 n p).log errOUT_FIFO_LOST

/-- The logical lane that a physical lane carries. -/
def Half.outLogical (h : Half) (p : Nat) : Option Nat :=
  if h.flag OUT_CTL_PMODE then (if p < 4 then some 0 else none)
  else (List.range 4).find? (fun l => h.outPhys l == some p)

/-- A physical output lane reports a link fault (R252, R253). -/
def Half.outFault (h : Half) (p : Nat) : Half :=
  let h := h.fset OUT_LANE_STAT_0_UP 0 p
  let h := { h with trw := { h.trw with faulted := p :: h.trw.faulted.filter (· != p) } }
  let h := match h.outLogical p with
    | some l => h.loseFifo l p
    | none => h
  (h.raise (707 + p)).log errOUT_LANE_DOWN

/-- The link of a physical output lane comes up; one that carries no logical lane becomes the spare, unless a spare with link stands
(R252). (DEDUCED, log 28) -/
def Half.outLinkUp (h : Half) (p : Nat) : Half :=
  let h := h.fset OUT_LANE_STAT_0_UP 1 p
  let sp := h.fget OUT_MAP_SPARE
  if !h.flag OUT_CTL_PMODE && (h.outLogical p).isNone && (sp = 0xF || !h.flag OUT_LANE_STAT_0_UP sp) then
    let h := if sp < 5 then h.fset OUT_LANE_STAT_0_ROLE 0 sp else h
    (h.fset OUT_MAP_SPARE p).fset OUT_LANE_STAT_0_ROLE 2 p
  else h

/-- Roles and logical lanes as OUT_MAP gives them (Table TRW-12). -/
def Half.outRoles (h : Half) : Half :=
  h.fold (List.range 5) (fun h p =>
    match h.outLogical p with
    | some l => (h.fset OUT_LANE_STAT_0_ROLE 1 p).fset OUT_LANE_STAT_0_LOGICAL l p
    | none => (h.fset OUT_LANE_STAT_0_ROLE (if h.fget OUT_MAP_SPARE = p && !h.flag OUT_CTL_PMODE then 2 else 0) p).fset OUT_LANE_STAT_0_LOGICAL 0xF p)

/-- Set the physical lane of a logical lane in OUT_MAP. -/
def Half.setMap (h : Half) (l p : Nat) : Half :=
  h.fset OUT_MAP_MAP (setBits (h.fget OUT_MAP_MAP) (4 * l + 3) (4 * l) p)

/-- The tick after a link fault (R252): the spare takes the logical lane, or it becomes vacant and admission is recomputed. -/
def Half.spareAtTick (h : Half) (p : Nat) : Half :=
  match (if h.flag OUT_CTL_PMODE then none else h.outLogical p) with
  | none => h
  | some l =>
    let sp := h.fget OUT_MAP_SPARE
    if h.flag OUT_CTL_SPARE_EN && sp != 0xF && h.flag OUT_LANE_STAT_0_UP sp then
      ((((h.setMap l sp).fset OUT_MAP_SPARE 0xF).outRoles).raise 712).log errOUT_LANE_SPARED
    else
      let h := ((h.setMap l 0xF).outRoles).log errOUT_NO_SPARE
      { h with exy := { h.exy with recompute := true } }

/-- Output lanes at a tick: sparing, and a recovered lane that carries nothing becomes the spare. -/
def Half.outTick (h : Half) : Half :=
  let fs := h.trw.faulted.mergeSort
  let h := h.fold fs (fun h p => h.spareAtTick p)
  let h := if h.flag OUT_CTL_PMODE && fs.any (· < 4) then { h with exy := { h.exy with recompute := true } } else h
  let up := ([0, 1, 2, 3] : List Nat).all (fun p => h.flag OUT_LANE_STAT_0_UP p)
  let h := { h with trw := { h.trw with faulted := [], portDown := h.flag OUT_CTL_PMODE && !up && (h.trw.portDown || fs.any (· < 4)) } }
  h.fold fs (fun h p => if h.flag OUT_LANE_STAT_0_UP p then h.outLinkUp p else h)

/-- R247: an output lane receives a frame, in near-end loopback the oldest of its own (R261, R264, R268, R269). -/
def execOutFrameReceived (i : HalfId) (p : Nat) (s : State) : Host.Outcome State Fault Refusal :=
  done (s.onMain i (fun h =>
    let own := (h.lane (48 + p)).sent.headD []
    let port := !h.flag OUT_CTL_PMODE || [0, 1, 2, 3].all (fun m => h.laneUp (48 + m))
    if p < 5 && h.flag OUT_CTL_RUN && port && h.laneHears (48 + p) own then (h.heard (48 + p) own).bumpWord OUT_LANE_STAT_3 1 p else h))

/-- OUT_CTL.RUN is cleared: idles on every lane, and the FIFO frames are lost as in R252. -/
def Half.outStop (h : Half) : Half :=
  (h.fold [0, 1, 2, 3] (fun h l => h.loseFifo l ((h.sendLane l).getD 0))).fset OUT_CTL_RUN 0

/-- R252. -/
def execOutRunClear (i : HalfId) (s : State) : Host.Outcome State Fault Refusal := done (s.onMain i (fun h => h.outStop))

end Sys2Proof.Machine
end

