-- ==== Sys2Proof/Machine/Lanes.lean ====
section
/-! DEFINITION. Serial lanes (13_lanes.md): lane states, training, lane management blocks, FEC windows, test features. -/

namespace Sys2Proof.Machine

/-- Lane states (Table LAN-5). -/
def lanOff : Nat := 0
def lanTraining : Nat := 1
def lanAligning : Nat := 2
def lanUp : Nat := 3
def lanDegraded : Nat := 4
def lanFault : Nat := 5
def lanTest : Nat := 6

def Half.lanState (h : Half) (lam : Nat) : Nat := h.fget LAN_STAT_STATE lam

def Half.lanMode (h : Half) (lam : Nat) : Nat := h.fget LAN_CFG_MODE lam

/-- Bit λ of LAN_UP (Table LAN-9). -/
def Half.setLanUp (h : Half) (lam : Nat) (b : Bool) : Half :=
  if lam < 32 then h.putN LAN_UP (setBits (h.getN LAN_UP) lam lam (b2n b))
  else h.putN LAN_UP_HI (setBits (h.getN LAN_UP_HI) (lam - 32) (lam - 32) (b2n b))

/-- The logical ingest lanes that a physical lane feeds lose it (R65). -/
def Half.inputLost (h : Half) (lam : Nat) : Half :=
  h.fold ((List.range 32).filter (fun n => h.fget ING_LANE_CFG_SRC n == lam)) (fun h n => (h.raiseOnce (768 + n)).log errINPUT_LOST n)

/-- What leaving service means to the lane's consumer (R61, R252, R261). -/
def Half.leaveService (h : Half) (lam : Nat) : Half :=
  if lam < 32 then h.inputLost lam else if 48 ≤ lam && lam < 53 then h.outFault (lam - 48) else h

/-- What returning to service means to the lane's consumer (R252). -/
def Half.enterService (h : Half) (lam : Nat) : Half := if 48 ≤ lam && lam < 53 then h.outLinkUp (lam - 48) else h

/-- Enter a lane state, with its event (R272) and what its consumer sees. -/
def Half.lanEnter (h : Half) (lam st : Nat) : Half :=
  let was := h.laneUp lam
  let moved := h.lanState lam != st
  let h := h.fset LAN_STAT_STATE st lam
  let h := if moved then h.raise (128 + lam) else h
  let now := h.laneUp lam
  let h := h.setLanUp lam now
  let h := if now then h else h.setLane lam (fun x => { x with sent := [] })
  let h := if was && !now then h.leaveService lam else if !was && now then h.enterService lam else h
  let h := if st = lanUp then h.log errLANE_UP lam else h
  let h := if 32 ≤ lam && lam < 48 then h.laneSync (lam - 32) else h
  h.emit (.laneState lam st)

/-- Lock and alignment are given up. -/
def Half.lanUnlock (h : Half) (lam : Nat) : Half :=
  ((h.fset LAN_STAT_FEC_ALIGN 0 lam).fset LAN_STAT_BLOCK_LOCK 0 lam).setLane lam (fun x => { x with lmRf := 0 })

/-- Begin training (Table LAN-6); with neither training nor Clause 73 the lane aligns at once (R266). -/
def Half.lanTrain (h : Half) (lam : Nat) : Half :=
  let h := (h.lanUnlock lam).setLane lam (fun x => { x with relock := false })
  if h.flag LAN_CFG_TRAIN_EN lam || h.flag LAN_CFG_AN_EN lam then
    (h.bump LAN_STAT_TRAINS 1 lam).lanEnter lam lanTraining
  else h.lanEnter lam lanAligning

/-- Enter FAULT with a cause of Table LAN-7; 0 keeps the last. -/
def Half.lanToFault (h : Half) (lam cause : Nat) : Half :=
  let inLock := h.lanState lam == lanAligning || h.laneUp lam
  let h := if inLock && (cause == 2 || cause == 3) then h.bumpWord LAN_CNT_12 1 lam else h
  let h := if cause = 0 then h else h.fset LAN_STAT_CAUSE cause lam
  let h := (h.bumpWord LAN_CNT_13 1 lam).setLane lam (fun x => { x with relock := false, lmRf := 0 })
  (h.lanEnter lam lanFault).log errLANE_FAULT lam

/-- Apply a change to one serial lane. (DESIGN CHOICE, log 29) -/
def State.onLane (s : State) (i : HalfId) (lam : Nat) (f : Half → Half) : State :=
  s.peerWatch (s.onMain i (fun h => if lam < 54 then f h else h))

/-- An exchange lane that joins the half to no peer, held in electrical idle (R15). -/
def Half.laneIdle (h : Half) (lam : Nat) : Bool := 32 ≤ lam && lam < 48 && (h.lanePeer (lam - 32)).isNone

/-- EN of a lane is written 1 (Table LAN-6); a lane that is left over stays in electrical idle (R15). -/
def Half.laneEnable (h : Half) (lam : Nat) : Half :=
  let h := h.fset LAN_CFG_EN 1 lam
  if h.lanState lam = lanOff && !h.laneIdle lam then h.lanTrain lam else h

/-- A lane goes OFF. -/
def Half.lanToOff (h : Half) (lam : Nat) : Half :=
  if h.lanState lam = lanOff then h
  else (((h.lanUnlock lam).fset LAN_STAT_RF 0 lam).setLane lam (fun x => { x with relock := false })).lanEnter lam lanOff

/-- EN of a lane is written 0 (Table LAN-6). -/
def Half.laneDisable (h : Half) (lam : Nat) : Half := (h.fset LAN_CFG_EN 0 lam).lanToOff lam

/-- The lanes that join the half to its peers have changed: those left over go to electrical idle, and the enabled ones that no longer are
start as if EN were written (R15). (DESIGN CHOICE, log 29) -/
def Half.lanesIdle (h : Half) : Half :=
  h.fold ((List.range 16).map (32 + ·)) (fun h lam =>
    if h.laneIdle lam then h.lanToOff lam else if h.flag LAN_CFG_EN lam && h.lanState lam = lanOff then h.lanTrain lam else h)

/-- R262: EN written 1. -/
def execLaneEnable (i : HalfId) (lam : Nat) (s : State) : Host.Outcome State Fault Refusal :=
  done (s.onLane i lam (fun h => h.laneEnable lam))

/-- R262: EN written 0. -/
def execLaneDisable (i : HalfId) (lam : Nat) (s : State) : Host.Outcome State Fault Refusal :=
  done (s.onLane i lam (fun h => h.laneDisable lam))

/-- R257, R262: Clause 73 ends, with a common technology or without. -/
def execAutoNegotiationDone (i : HalfId) (lam : Nat) (common : Bool) (s : State) : Host.Outcome State Fault Refusal :=
  done (s.onLane i lam (fun h =>
    if h.lanState lam != lanTraining || !h.flag LAN_CFG_AN_EN lam then h
    else if !common then h.lanToFault lam 8
    else if h.flag LAN_CFG_TRAIN_EN lam then h else h.lanEnter lam lanAligning))

/-- R262: cause LOS. -/
def execLosDetect (i : HalfId) (lam : Nat) (s : State) : Host.Outcome State Fault Refusal :=
  done (s.onLane i lam (fun h =>
    let h := h.fset LAN_STAT_LOS 1 lam
    if h.laneUp lam || h.lanState lam == lanAligning then (h.lanToFault lam 1).lanUnlock lam else h))

/-- R262: signal present for 10 µs. -/
def execSignalPresent (i : HalfId) (lam : Nat) (s : State) : Host.Outcome State Fault Refusal :=
  done (s.onLane i lam (fun h =>
    let h := h.fset LAN_STAT_LOS 0 lam
    let c := h.fget LAN_STAT_CAUSE lam
    if h.lanState lam = lanFault && c != 7 && c != 8 then
      ((h.lanUnlock lam).setLane lam (fun x => { x with relock := true })).lanEnter lam lanAligning
    else h))

/-- R262: cause FEC_ALIGN, in the modes that have FEC. -/
def execFecAlignLoss (i : HalfId) (lam : Nat) (s : State) : Host.Outcome State Fault Refusal :=
  done (s.onLane i lam (fun h =>
    if h.lanMode lam = 2 then h
    else
      let h := h.fset LAN_STAT_FEC_ALIGN 0 lam
      if h.laneUp lam then h.lanToFault lam 2 else h))

/-- R262: cause BLOCK_LOCK: 16 invalid sync headers, which BAD_HDR counts (Table LAN-14). -/
def execBlockLockLoss (i : HalfId) (lam : Nat) (s : State) : Host.Outcome State Fault Refusal :=
  done (s.onLane i lam (fun h =>
    let h := (h.fset LAN_STAT_BLOCK_LOCK 0 lam).bumpWord LAN_CNT_11 16 lam
    if h.laneUp lam then h.lanToFault lam 3 else h))

/-- R262: FEC alignment, block lock and clear LM blocks or fault sequences: an ALIGNING lane comes UP. -/
def execLaneAligned (i : HalfId) (lam : Nat) (s : State) : Host.Outcome State Fault Refusal :=
  done (s.onLane i lam (fun h =>
    if h.lanState lam = lanAligning then
      let h := h.fset LAN_STAT_FEC_ALIGN (b2n (h.lanMode lam != 2)) lam
      let h := (h.fset LAN_STAT_BLOCK_LOCK 1 lam).fset LAN_STAT_RF 0 lam
      (h.setLane lam (fun x => { x with relock := false, lmRf := 0 })).lanEnter lam lanUp
    else h))

/-- CRC-8 with polynomial 0x07 and initial value 0 (Table LAN-4). (PRESUMED, log 41) -/
def crc8 (bs : List Byte) : Nat :=
  bs.foldl (fun c b => (List.range 8).foldl (fun c _ => if 128 ≤ c then (2 * c) % 256 ^^^ 7 else 2 * c) (c ^^^ b.toNat)) 0

/-- The LM block that lane λ sends next (R258, Table LAN-4); SEQ counts those sent before it. (DESIGN CHOICE, log 29) -/
def Half.lmBlock (h : Half) (lam : Nat) : List Byte :=
  let x := h.lane lam
  let st := h.lanState lam
  let body := [0xAA] ++ leBytes 1 (halfBit h.id * 128 + lam)
    ++ leBytes 1 (b2n (!h.laneUp lam) + 2 * b2n (st == lanDegraded) + 4 * b2n (st == lanTest)) ++ leBytes 2 (min x.corr 0xFFFF) ++ leBytes 2 x.lmSeq
  body ++ leBytes 1 (crc8 body)

/-- Lane λ sends a MODE 0 data stream (Table LAN-5), and so LM blocks: also in TEST while only its checker runs. (DESIGN CHOICE, log 29) -/
def Half.lanStreams (h : Half) (lam : Nat) : Bool :=
  h.lanMode lam == 0 && lanAligning ≤ h.lanState lam && h.fget LAN_TEST_LOOP lam != 2 && h.fget LAN_TEST_GEN lam == 0

/-- Lane λ sends its next LM block, where it sends a data stream (R258). -/
def Half.sendLm (h : Half) (lam : Nat) : Half :=
  if h.lanStreams lam then
    let bs := h.lmBlock lam
    (h.setLane lam (fun x => { x with
      lmSeq := (x.lmSeq + 1) % 2 ^ 16, sent := if h.fget LAN_TEST_LOOP lam = 1 then x.sent ++ [bs] else x.sent })).emit (.lmBlock lam bs)
  else h

/-- Every lane sends an LM block where it is due. (DESIGN CHOICE, log 3) -/
def Half.sendLms (h : Half) : Half := if h.mainUp then h.fold (List.range 48) (fun h lam => h.sendLm lam) else h

/-- R259, R262: an LM block on a MODE 0 lane; two in a row with RF at 1 are the far end's fault. In near-end loopback it is one of the
lane's own (R269). -/
def execLmBlockReceived (i : HalfId) (lam : Nat) (bs : List Byte) (s : State) : Host.Outcome State Fault Refusal :=
  done (s.onLane i lam (fun h =>
    if h.lanMode lam != 0 || bs.length != 8 || byteAt bs 0 != 0xAA || crc8 (bs.take 7) != byteAt bs 7 then h
    else if h.lanState lam = lanOff || h.lanState lam = lanTraining then h
    else if h.fget LAN_TEST_LOOP lam = 1 && !(h.lane lam).sent.contains bs then h
    else
      let h := h.heard lam bs
      let rf := bit (byteAt bs 2) 0
      let run := if rf then (h.lane lam).lmRf + 1 else 0
      let h := ((h.fset LAN_STAT_FAR_LANE (byteAt bs 1) lam).fset LAN_STAT_RF (b2n rf) lam).setLane lam (fun x => { x with lmRf := run })
      if 2 ≤ run && h.laneUp lam then h.lanToFault lam 4 else h))

/-- R262: a remote fault sequence for 128 blocks on a MODE 1 lane. -/
def execRemoteFaultSequence (i : HalfId) (lam : Nat) (s : State) : Host.Outcome State Fault Refusal :=
  done (s.onLane i lam (fun h =>
    if h.lanMode lam != 1 then h
    else
      let h := h.fset LAN_STAT_RF 1 lam
      if h.laneUp lam then h.lanToFault lam 4 else h))

/-- R262, R263: a window of 65,536 codewords ends with its corrected symbols, corrected codewords and uncorrectable codewords, and with the
invalid sync headers met since the last that ended in no loss of block lock (Table LAN-14). (DESIGN CHOICE, log 29) -/
def execFecWindowEnd (i : HalfId) (lam corrSym corrCw : Nat) (faults : WindowFaults) (s : State) : Host.Outcome State Fault Refusal :=
  done (s.onLane i lam (fun h =>
    if !(h.laneUp lam || h.lanState lam == lanAligning) then h
    else if h.lanMode lam = 2 then h.bumpWord LAN_CNT_11 faults.badHdr lam
    else
      let h := ((h.bumpWord LAN_CNT_8 corrSym lam).bumpWord LAN_CNT_9 corrCw lam).bumpWord LAN_CNT_10 faults.uncCw lam
      let h := (h.bumpWord LAN_CNT_11 faults.badHdr lam).setLane lam (fun x => { x with corr := corrSym })
      let thr := h.fget LAN_UNC_UNC_THR lam
      if h.laneUp lam && thr != 0 && thr ≤ faults.uncCw then h.lanToFault lam 5
      else if h.lanState lam = lanUp && h.fget LAN_DEG_DEG_SET lam < corrSym then
        let h := (h.lanEnter lam lanDegraded).log errLANE_DEGRADED lam
        if h.flag LAN_CFG_DEG_FAULT lam then h.lanToFault lam 6 else h
      else if h.lanState lam = lanDegraded && corrSym ≤ h.fget LAN_DEG_DEG_CLR lam then h.lanEnter lam lanUp
      else h))

/-- Step 2 of training (R265): the far receiver asks for a preset, or for one step of one tap of c(−3) to c(1), and the transmitter answers.
Preset 1 is the reset value of LAN_COEF. (DESIGN CHOICE, log 29) -/
def Half.tapAsked (h : Half) (lam : Nat) (ask : TapAsk) : Half :=
  let c := h.getN LAN_COEF lam
  let updated (c : Nat) : Half := (h.putN LAN_COEF c lam).emit (.tapAnswer lam 0)
  match ask with
  | .preset n =>
    if n = 1 then updated 0
    else match Config.tapPreset (h.lanMode lam) n with
    | some w => updated w.toNat
    | none => h.emit (.tapAnswer lam 2)
  | .step tap up =>
    if 5 ≤ tap then h.emit (.tapAnswer lam 2)
    else
      let v := sext 6 (bits c (6 * tap + 5) (6 * tap)) + (if up then 1 else -1)
      let lim := Config.tapLimit (h.lanMode lam) tap
      if v < lim.1 || lim.2 < v then h.emit (.tapAnswer lam 1)
      else updated (setBits c (6 * tap + 5) (6 * tap) (wrapBits 6 v))

/-- R265: training is done: what the far receiver asked of the taps, whether the far transmitter precodes as the lane's receiver asked, and
whether the far receiver asks for precoding, which PRECODE grants. -/
def execTrainingReady (i : HalfId) (lam : Nat) (asks : List TapAsk) (pre : Precoding) (s : State) : Host.Outcome State Fault Refusal :=
  done (s.onLane i lam (fun h =>
    if h.lanState lam = lanTraining then
      let h := h.fold asks (fun h a => h.tapAsked lam a)
      let h := h.setLane lam (fun x => { x with txPre := pre.farAsks && h.flag LAN_CFG_PRECODE lam })
      (h.fset LAN_STAT_PRE_ACT (b2n pre.far) lam).lanEnter lam lanAligning
    else h))

/-- R265: training has not finished in TRAIN_TMO. -/
def execTrainTimeout (i : HalfId) (lam : Nat) (s : State) : Host.Outcome State Fault Refusal :=
  done (s.onLane i lam (fun h =>
    if h.lanState lam = lanTraining then (h.lanToFault lam 7).log errLAN_TRAIN_FAIL lam else h))

/-- R262: the relock window ends before the lane is UP. -/
def execRelockWindowEnd (i : HalfId) (lam : Nat) (s : State) : Host.Outcome State Fault Refusal :=
  done (s.onLane i lam (fun h =>
    if h.lanState lam = lanAligning && (h.lane lam).relock then
      if h.flag LAN_CFG_AUTO_RETRAIN lam then h.lanTrain lam else h.lanToFault lam 0
    else h))

/-- R262: RETRY ms after a training or auto-negotiation fault. -/
def execRetryTimeout (i : HalfId) (lam : Nat) (s : State) : Host.Outcome State Fault Refusal :=
  done (s.onLane i lam (fun h =>
    let c := h.fget LAN_STAT_CAUSE lam
    if h.lanState lam = lanFault && (c == 7 || c == 8) && h.flag LAN_CFG_AUTO_RETRAIN lam then h.lanTrain lam else h))

/-! ### Test features (R267 to R270) -/

/-- A pattern code that the lane's mode has (Table LAN-8). -/
def patternOk (mode code : Nat) : Bool := code ≤ 9 && !(mode == 2 && 7 ≤ code)

/-- A write of LAN_TEST (R262, R267, R269). (DESIGN CHOICE, log 29) -/
def Half.laneTestWrite (h : Half) (lam : Nat) (w : Word) : Half :=
  let gen := bits w.toNat 3 0
  let chk := bits w.toNat 11 8
  let loop := bits w.toNat 17 16
  let mode := h.lanMode lam
  if loop = 3 || !patternOk mode gen || !patternOk mode chk then h.log errLAN_CFG_RANGE lam
  else
    let gen0 := h.fget LAN_TEST_GEN lam
    let chk0 := h.fget LAN_TEST_CHK lam
    let loop0 := h.fget LAN_TEST_LOOP lam
    let st := h.lanState lam
    let h := ((h.fset LAN_TEST_GEN gen lam).fset LAN_TEST_CHK chk lam).fset LAN_TEST_LOOP loop lam
    let h := if chk = 0 then h.fset LAN_STAT_CHK_LOCK 0 lam else h
    if st != lanOff && ((loop0 == 0 && loop == 1) || (loop0 == 1 && loop == 0)) then h.lanTrain lam
    else if st = lanTest then (if gen = 0 && chk = 0 && loop != 2 then h.lanTrain lam else h)
    else if (h.laneUp lam || st == lanAligning || st == lanFault)
        && ((gen0 == 0 && gen != 0) || (chk0 == 0 && chk != 0) || (loop0 != 2 && loop == 2)) then h.lanEnter lam lanTest
    else h

/-- R267: a write of LAN_TEST. -/
def execLaneTestWrite (i : HalfId) (lam : Nat) (w : Word) (s : State) : Host.Outcome State Fault Refusal :=
  done (s.onLane i lam (fun h => h.laneTestWrite lam w))

/-- R268: the checker locks, or drops lock after the errors and bits (in units of 2^20) it counted while locked. -/
def execCheckerLock (i : HalfId) (lam : Nat) (lock : Bool) (errs units : Nat) (s : State) : Host.Outcome State Fault Refusal :=
  done (s.onLane i lam (fun h =>
    if h.fget LAN_TEST_CHK lam = 0 then h
    else
      let h := if h.flag LAN_STAT_CHK_LOCK lam then (h.bumpWord LAN_CNT_14 errs lam).bumpWord LAN_CNT_15 units lam else h
      h.fset LAN_STAT_CHK_LOCK (b2n lock) lam))

/-- A write of LAN_INJ with GO (R270): TYPE not 0 starts the injector, TYPE 0 stops it. (DESIGN CHOICE, log 29) -/
def Half.injGo (h : Half) (lam : Nat) (w : Word) : Half :=
  let ty := bits w.toNat 30 28
  if ty = 0 then
    (h.putN LAN_INJ (w.toNat % 2 ^ 31) lam).fset LAN_STAT_INJ_ACT 0 lam
  else if h.flag LAN_STAT_INJ_ACT lam then h.log errLAN_INJ_BUSY lam
  else if ty = 4 && h.lanMode lam = 2 then h.log errLAN_CFG_RANGE lam
  else
    let n := bits w.toNat 27 16
    let h := h.putN LAN_INJ (w.toNat % 2 ^ 31) lam
    if 4 < ty then h
    else (h.fset LAN_STAT_INJ_ACT 1 lam).setLane lam (fun x => { x with injLeft := if n = 0 then none else some n })

/-- R270: GO with TYPE not 0. -/
def execInjStart (i : HalfId) (lam : Nat) (w : Word) (s : State) : Host.Outcome State Fault Refusal :=
  done (s.onLane i lam (fun h => if bits w.toNat 30 28 = 0 then h else h.injGo lam w))

/-- R270: GO with TYPE 0. -/
def execInjStop (i : HalfId) (lam : Nat) (s : State) : Host.Outcome State Fault Refusal :=
  done (s.onLane i lam (fun h => (h.fset LAN_INJ_TYPE 0 lam).fset LAN_STAT_INJ_ACT 0 lam))

/-- R270: PERIOD + 1 codewords have passed; the injector pauses outside UP, DEGRADED and TEST. -/
def execInjection (i : HalfId) (lam : Nat) (s : State) : Host.Outcome State Fault Refusal :=
  done (s.onLane i lam (fun h =>
    if h.flag LAN_STAT_INJ_ACT lam && (h.laneUp lam || h.lanState lam == lanTest) then
      let h := h.emit (.injection lam (h.fget LAN_INJ_TYPE lam) (max 1 (h.fget LAN_INJ_LEN lam)))
      match (h.lane lam).injLeft with
      | none => h
      | some n =>
        let h := h.setLane lam (fun x => { x with injLeft := some (n - 1) })
        if n ≤ 1 then h.fset LAN_STAT_INJ_ACT 0 lam else h
    else h))

/-- At each tick: a logical ingest lane whose physical lane's mode disagrees with its framing (R255). -/
def Half.lanTick (h : Half) : Half :=
  h.fold ((List.range 32).filter (fun n => !h.laneModeOk n)) (fun h n => h.log errLAN_MODE_MISMATCH (h.fget ING_LANE_CFG_SRC n))

end Sys2Proof.Machine
end

