-- ==== Sys2Proof/Machine/Exchange.lean ====
section
/-! DEFINITION. The Plaza exchange and the corner-turn store (06_exchange_cornerturn.md): Kradel blocks, link groups,
reads of the delay store, sending, landing. -/

namespace Sys2Proof.Machine

/-! ### Control blocks (R113) -/

/-- A control block of the half: its type and bytes 4 to 27. -/
def Half.ctlBlock (h : Half) (type : Nat) (body : List Byte) : List Byte :=
  withCrc (leBytes 2 0x4B52 ++ leBytes 1 type ++ leBytes 1 (halfBit h.id * 128 + h.ord)
    ++ body.take 24 ++ List.replicate (24 - body.length) 0)

/-- A control block of the type, whole and with a good CRC. -/
def ctlOk (type : Nat) (bs : List Byte) : Bool :=
  bs.length == 32 && fieldAt bs 0 2 == 0x4B52 && byteAt bs 2 == type && crcGood bs

/-- What the two ends compare of their configurations (R114): bytes 4 to 11 and 16 to 17 of HELLO. (DEDUCED, log 18) -/
def Half.helloConfig (h : Half) : List Byte :=
  leBytes 4 (h.getN XCH_PLAZA_ID)
    ++ leBytes 1 (h.fget XCH_CFG_MCODE + b2n h.fmt8 * 8 + h.pmode * 16)
    ++ leBytes 1 (h.fget CHN_CFG_LCODE + h.fget DEV_FRM_CFG_FCODE * 16)
    ++ leBytes 2 (h.fget TMG_FS_FS)

/-- HELLO of lane `n` (Table XCH-2). (DEDUCED, log 18) -/
def State.helloBody (s : State) (i : HalfId) (n p : Nat) : List Byte :=
  let h := s.half i
  let ready := h.linkState p == xlReady || h.linkInService p
  h.helloConfig ++ leBytes 1 (b2n ready + b2n h.xch.solo * 2)
    ++ leBytes 1 ((h.groupLanes p).idxOf n) ++ leBytes 2 (h.fget DEV_REV_STEPPING) ++ leBytes 2 h.depth

/-- Apply a change to a live exchange lane and its group. -/
def State.onXch (s : State) (i : HalfId) (n : Nat) (f : Half → Nat → Half) : State :=
  s.peerWatch (s.onMain i (fun h =>
    match h.lanePeer n with
    | some p => if h.xLaneUp n then f h p else h
    | none => h))

/-- A block that arrives on a live exchange lane, where the lane hands it on (R261, R268, R269). -/
def State.onXchRx (s : State) (i : HalfId) (n : Nat) (bs : List Byte) (f : Half → Nat → Half) : State :=
  s.onXch i n (fun h p => if h.laneHears (32 + n) bs then f (h.heard (32 + n) bs) p else h)

/-- A block leaves on exchange lane `n`. -/
def Half.sendKradel (h : Half) (n : Nat) (bs : List Byte) : Half := h.sendOn (32 + n) bs (.kradel n bs)

/-- R113: a HELLO goes out on a live lane. -/
def execHelloSend (i : HalfId) (n : Nat) (s : State) : Host.Outcome State Fault Refusal :=
  done (s.onXch i n (fun h p => h.sendKradel n (h.ctlBlock 2 (s.helloBody i n p))))

/-- ℓ + max(θ, 0) of a group, in 2^-16 ps. -/
def Half.groupReach (h : Half) (p : Nat) : Int := h.groupLat p + max (h.link p).theta 0 * 2 ^ 16

/-- Spectrum period P in ps, rounded up to the unit of 2^-16 ps. -/
def Half.periodScaled (h : Half) : Nat := cdiv (h.lin * 10 ^ 6 * 2 ^ 16) (max 1 (h.fget TMG_FS_FS))

/-- W in TCLK cycles for a reach (R121). -/
def Half.winOf (h : Half) (reach : Int) : Nat := cdiv (reach.toNat + h.periodScaled + 2 * 10 ^ 6 * 2 ^ 16) (10 ^ 4 * 2 ^ 16)

/-- A reach that would raise W above t_f/64 (R121). -/
def Half.winTooLong (h : Half) (reach : Int) : Bool :=
  h.fspec * h.periodScaled < 64 * (reach.toNat + h.periodScaled + 2 * 10 ^ 6 * 2 ^ 16)

/-- The latency of the group passes R115, R116 and R121. -/
def Half.latencyOk (h : Half) (p : Nat) : Bool :=
  h.groupLat p ≤ 4 * 10 ^ 6 * 2 ^ 16 && h.groupReach p ≤ 6 * 10 ^ 6 * 2 ^ 16 && !h.winTooLong (h.groupReach p)

/-- R114: a HELLO is compared; wiring first. A held group leaves HELD for MEASURE when its cause is gone. -/
def Half.helloReceived (h : Half) (p : Nat) (bs : List Byte) : Half :=
  let st := h.linkState p
  if bits (byteAt bs 3) 3 0 != p || bits (byteAt bs 3) 7 7 != halfBit h.id then h.linkHold p 1 errXCH_WIRING
  else if slice bs 4 8 != h.helloConfig || fieldAt bs 16 2 != h.depth then h.linkHold p 2 errPEER_CONFIG
  else
    let h := h.setLink p (fun x => { x with peerReady := bit (byteAt bs 12) 0 })
    if st = xlHello then h.linkMeasure p
    else if st = xlHeld then
      let r := h.fget XCH_LINK_STAT_0_REASON p
      if (r == 3 && !h.latencyOk p) || (r == 4 && !(h.link p).tickOk) then h else h.linkMeasure p
    else h

def execHelloReceived (i : HalfId) (n : Nat) (bs : List Byte) (s : State) : Host.Outcome State Fault Refusal :=
  done (s.onXchRx i n bs (fun h p => if ctlOk 2 bs then h.helloReceived p bs else h))

/-- R116: a TICK block with its arrival time less the last local tick, in ps. -/
def Half.tickReceived (h : Half) (p k : Nat) (ofs : Int) : Half :=
  let st := h.linkState p
  if st < xlHello then h
  else if k != h.frame then (h.setLink p (fun x => { x with tickOk := false })).linkHold p 4 errPEER_CONFIG
  else
    let theta := ofs - h.groupLat p / 2 ^ 16
    let h := h.setLink p (fun x => { x with tickOk := true, theta := theta, tickAt := some k })
    let h := h.putN XCH_LINK_STAT_2 (wrapBits 32 theta) p
    let thr := h.fget XCH_CFG_OFS_THR
    let h := if thr != 0 && thr * 10000 < theta.natAbs then h.log errPLAZA_SKEW else h
    if xlReady ≤ st && st != xlHeld && 6 * 10 ^ 6 * 2 ^ 16 < h.groupReach p then h.linkHold p 3 errXCH_LATENCY else h

def execTickBlockReceived (i : HalfId) (n : Nat) (bs : List Byte) (ofs : Int) (s : State) : Host.Outcome State Fault Refusal :=
  done (s.onXchRx i n bs (fun h p => if ctlOk 3 bs then h.tickReceived p (fieldAt bs 4 6) ofs else h))

/-- R113: a PROBE carries its send time in ps. -/
def execProbeSend (i : HalfId) (n t1 : Nat) (s : State) : Host.Outcome State Fault Refusal :=
  done (s.onXch i n (fun h _ => h.sendKradel n (h.ctlBlock 4 (leBytes 8 t1))))

/-- R113: a PROBE is answered with its send time, its receive time and the send time of the answer. -/
def execProbeReceived (i : HalfId) (n : Nat) (bs : List Byte) (t2 t3 : Nat) (s : State) : Host.Outcome State Fault Refusal :=
  done (s.onXchRx i n bs (fun h _ =>
    if ctlOk 4 bs then h.sendKradel n (h.ctlBlock 5 (slice bs 4 8 ++ leBytes 8 t2 ++ leBytes 8 t3)) else h))

/-- One PROBE/ECHO exchange of a lane (R115), twice its latency in ps. A lane that joins the group after MEASURE takes its first exchange
as its latency. (DEDUCED, log 18) -/
def Half.measure (h : Half) (p n : Nat) (twice : Int) : Half :=
  let sample := twice * 2 ^ 15
  let st := h.linkState p
  if st = xlMeasure then
    let h := h.setXlane n (fun x =>
      if 16 ≤ x.cnt then x
      else if x.cnt + 1 = 16 then { x with cnt := 16, sum := x.sum + sample, lat := (x.sum + sample) / 16 }
      else { x with cnt := x.cnt + 1, sum := x.sum + sample })
    h.measured p
  else if xlMeasure < st then
    let h := h.setXlane n (fun x =>
      if x.cnt = 0 then { x with cnt := 16, lat := sample } else { x with lat := x.lat + (sample - x.lat) / 16 })
    let h := h.putN XCH_LINK_STAT_1 (h.groupLat p / 2 ^ 16).toNat p
    if st != xlHeld && (4 * 10 ^ 6 * 2 ^ 16 < h.groupLat p || 6 * 10 ^ 6 * 2 ^ 16 < h.groupReach p)
    then h.linkHold p 3 errXCH_LATENCY else h
  else h

/-- R115: an ECHO with its receive time t4. -/
def execEchoReceived (i : HalfId) (n : Nat) (bs : List Byte) (t4 : Nat) (s : State) : Host.Outcome State Fault Refusal :=
  done (s.onXchRx i n bs (fun h p =>
    if ctlOk 5 bs then
      h.measure p n (((t4 : Int) - (fieldAt bs 4 8 : Int)) - ((fieldAt bs 20 8 : Int) - (fieldAt bs 12 8 : Int)))
    else h))

/-! ### Sending (R118, R119, R126, R127, R129) -/

/-- Channel groups of a half. -/
def Half.groupsPerHalf (h : Half) : Nat := h.ownChans / h.chanGroup

/-- Input blocks of a half (R12). -/
def Half.blocksPerHalf (h : Half) : Nat := h.ownInputs / 64

/-- K, input blocks of the Plaza (R122). -/
def Half.plazaBlocks (h : Half) : Nat := h.plazaInputs / 64

/-- First input block of a device's half. -/
def Half.firstBlock (h : Half) (d half : Nat) : Nat := d * (h.devInputs / 64) + half * h.blocksPerHalf

/-- The run of channel group `g` of an input in the row of y-spectrum `n`, with its deferred flags applied: invalid where the memory
is poisoned, and where a poisoned unit of the flag plane sets its flags (R102, R103, R285). -/
def Half.readRow (h : Half) (row dense n g : Nat) : List Byte × Half :=
  let cb := h.chanGroup
  let codes := h.regionRead regionDelay (h.storeOfs row dense g) 64
  let rec_ := codes.2.regionRead regionFlags (h.recordOfs dense n) 1
  let sk := rec_.2.regionRead regionFlags (h.planeOfs dense n + g * cb / 8) (cb / 8)
  let flagged (c : Nat) : Bool := codes.1.2 || rec_.1.2 || sk.1.2 || byteAt rec_.1.1 0 != 0 || bit (byteAt sk.1.1 (c / 8)) (c % 8)
  ((List.range cb).flatMap (fun c => if flagged c then h.codeBytes h.invalidCode else slice codes.1.1 (c * h.bps) h.bps), sk.2)

/-- The run of channel group `g` of an input that the store delivers: the invalid code where the row is not valid (R103). -/
def Half.storeRun (h : Half) (row dense g : Nat) : List Byte × Half :=
  match SMap.find? h.front.store (storeKey row dense) with
  | none => ((List.range h.chanGroup).flatMap (fun _ => h.codeBytes h.invalidCode), h)
  | some n => h.readRow row dense n g

/-- A data block with SEQ 0, without its CRC (Table XCH-1). -/
def Half.dataBlock (h : Half) (sigma inblk dd dh grp : Nat) (payload : List Byte) : List Byte :=
  leBytes 2 0x4B52 ++ leBytes 1 1 ++ leBytes 1 (halfBit h.id * 128 + b2n h.fmt8 * 64 + h.ord)
    ++ leBytes 6 sigma ++ leBytes 1 inblk ++ leBytes 1 (grp % 256) ++ leBytes 1 (dh * 16 + dd)
    ++ leBytes 1 (grp / 256) ++ leBytes 2 0 ++ leBytes 8 0 ++ payload

/-- The half that a code names. -/
def halfOfBit (b : Nat) : HalfId := if b = 0 then .north else .south

/-- The payload of a block of this half's inputs. -/
def Half.blockPayload (h : Half) (row blk g : Nat) : List Byte × Half :=
  (List.range 64).foldl (fun acc j =>
    let r := acc.2.storeRun row (64 * blk + j) g
    (acc.1 ++ r.1, r.2)) ([], h)

/-- Fields of a data block. -/
def blkSigma (bs : List Byte) : Nat := fieldAt bs 4 6
def blkIn (bs : List Byte) : Nat := bits (byteAt bs 10) 6 0
def blkGrp (bs : List Byte) : Nat := byteAt bs 11 + bits (byteAt bs 13) 1 0 * 256
def blkDstDev (bs : List Byte) : Nat := bits (byteAt bs 12) 3 0
def blkDstHalf (bs : List Byte) : Nat := bits (byteAt bs 12) 4 4
def blkSrcDev (bs : List Byte) : Nat := bits (byteAt bs 3) 3 0
def blkSrcHalf (bs : List Byte) : Nat := bits (byteAt bs 3) 7 7

/-- The order of R118 within a link group. -/
def sendKey (bs : List Byte) : Nat := ((blkSigma bs * 2 + blkDstHalf bs) * 128 + blkIn bs) * 1024 + blkGrp bs

/-- The other half will still read spectrum `sigma` and send its blocks of it. (DEDUCED, log 19) -/
def Half.willRead (h : Half) (sigma : Nat) : Bool :=
  h.mainUp && h.flag XCH_CTL_RUN && !h.inHold && h.front.rp ≤ sigma && sigma < h.front.rpEnd

/-- Send one queued block on lane `n` (R112, R119). -/
def Half.sendBlock (h : Half) (p n : Nat) (bs : List Byte) : Half :=
  let x := h.xlane n
  let h := h.setXlane n (fun x => { x with seqTx := (x.seqTx + 1) % 2 ^ 16, credits := x.credits - 1 })
  (h.bumpWord XCH_LINK_STAT_3 1 p).sendKradel n (withCrc (bs.take 14 ++ leBytes 2 x.seqTx ++ bs.drop 16))

/-- Send the blocks at the head of the group's queue, in order, striped over its live lanes, while the lane of the next has a
credit and no half has still to read its spectrum (`ready`); a spectrum's blocks beyond the limit are not sent. -/
def Half.flushLink (ready : Nat → Bool) (p : Nat) : Nat → Half → Half
  | 0, h => h
  | fuel + 1, h =>
    let l := h.link p
    match l.queue with
    | [] => h
    | (_, b) :: rest =>
      let live := h.liveLanes p
      let idx := if l.sig = b.sigma then l.idx else 0
      let n := live.getD (idx % live.length) 0
      let next (h : Half) := h.setLink p (fun x => { x with queue := rest, sig := b.sigma, idx := idx + 1 })
      if live.isEmpty || !ready b.sigma then h
      else if (l.limit.getD (idx + 1)) ≤ idx then Half.flushLink ready p fuel (next h)
      else if (h.xlane n).credits = 0 then h
      else Half.flushLink ready p fuel ((next h).sendBlock p n b.bytes)

/-- Flush every group of a half. (DEDUCED, log 19) -/
def State.flushHalf (s : State) (i : HalfId) : State :=
  let o := s.half i.other
  let h := s.half i
  let ready (sigma : Nat) : Bool := !o.willRead sigma && !h.willRead sigma
  s.setHalf i (h.fold ((List.range 16).filter h.linkInService)
    (fun h p => Half.flushLink ready p (h.link p).queue.length h))

def State.flushAll (s : State) : State := (s.flushHalf .north).flushHalf .south

/-! ### Landing (R120 to R124) -/

/-- Key of a block in its buffer: spectrum of the frame, input block, channel group. -/
def Half.ctKey (h : Half) (bs : List Byte) : Nat :=
  (blkSigma bs % h.fspec * h.plazaBlocks + blkIn bs) * h.groupsPerHalf + blkGrp bs

/-- The landing map of a frame's buffer (R124). -/
def Half.ctBuf (h : Half) (j : Nat) : List Nat := if j % 2 = 0 then h.xch.ct0 else h.xch.ct1

def Half.setCtBuf (h : Half) (j : Nat) (m : List Nat) : Half :=
  if j % 2 = 0 then { h with xch := { h.xch with ct0 := m } } else { h with xch := { h.xch with ct1 := m } }

/-- Byte of the corner-turn region at which the run of channel `c`, spectrum `t` and input block `blk` of frame `j` lies (R122). -/
def Half.cornerOfs (h : Half) (j c t blk : Nat) : Nat :=
  j % 2 * (h.plazaInputs * h.ownChans * h.fspec * h.bps) + ((c * h.fspec + t) * h.plazaBlocks + blk) * 64 * h.bps

/-- The payload of a block turned into runs of one channel each: `b` bytes of every input (R122). -/
def turnRuns (b : Nat) : Nat → List (List Byte) → List (List Byte)
  | 0, _ => []
  | n + 1, us => us.flatMap (·.take b) :: turnRuns b n (us.map (·.drop b))

/-- Write a block's runs to the corner-turn store (R122). -/
def Half.putRuns (h : Half) (bs : List Byte) : Half :=
  let units := (List.range 64).map (fun i => slice bs (24 + 64 * i) 64)
  let c0 := blkGrp bs * h.chanGroup
  h.fold (turnRuns h.bps h.chanGroup units).zipIdx (fun h (run, x) =>
    h.regionWrite regionCorner (h.cornerOfs (blkSigma bs / h.fspec) (c0 + x) (blkSigma bs % h.fspec) (blkIn bs)) run)

/-- A block counted BAD in an entry. -/
def Half.xchBad (h : Half) (p n : Nat) : Half :=
  if n = 0 then h else (h.bumpWord XCH_LINK_STAT_6 n p).log errXCH_BAD

/-- Write a block to its buffer, or count it as a duplicate (check 6). -/
def Half.ctWrite (h : Half) (entry : Option Nat) (bs : List Byte) : Half :=
  let j := blkSigma bs / h.fspec
  let key := h.ctKey bs
  if (h.ctBuf j).contains key then (match entry with | some p => h.xchBad p 1 | none => h)
  else
    let h := (h.setCtBuf j (key :: h.ctBuf j)).putRuns bs
    match entry with
    | some p => h.bumpWord XCH_LINK_STAT_4 1 p
    | none => h

/-- Checks 4 to 6 of Table XCH-4 and the landing of a block; one whose frame's tick has not passed waits in the landing
buffer, on the credit of its lane. -/
def Half.land (h : Half) (entry : Option Nat) (lane : Option Nat) (bs : List Byte) : Half :=
  let j := blkSigma bs / h.fspec
  let late (h : Half) : Half := match entry with | some p => h.bumpWord XCH_LINK_STAT_5 1 p | none => h
  if !h.mainUp || !h.flag XCH_CTL_RUN || h.inHold then h
  else if j < h.xch.closed then (late h).log errXCH_LATE
  else if h.frame < j then (late h).log errXCH_EARLY
  else if h.frame < j + h.depth then
    let h := match lane with | some n => h.setXlane n (fun x => { x with waits := x.waits + 1 }) | none => h
    { h with xch := { h.xch with waiting := h.xch.waiting ++ [⟨entry.getD 16, lane, bs⟩] } }
  else h.ctWrite entry bs

/-- A block crosses the die bridge to a half, where it is checked again from check 4 (R120); entry p = ORD counts it. -/
def State.crossBlock (s : State) (i : HalfId) (bs : List Byte) : State :=
  let src := s.half i
  let s := s.setHalf i ((src.bumpWord XCH_LINK_STAT_3 1 src.ord).emit (.bridgeBlock bs))
  let o := s.half i.other
  s.setHalf i.other (o.land (some o.ord) none bs)

/-- Blocks over the die bridge that wait in the landing buffer of the half, each on a credit of the bridge's share (R119). -/
def Half.bridgeWaits (h : Half) : Nat := (h.xch.waiting.filter (fun w => w.entry == h.ord && w.lane.isNone)).length

/-- The die bridge has a credit for a block to the half: its share is not used up, or the block need not wait there (R119). -/
def Half.bridgeRoom (h : Half) (bs : List Byte) : Bool :=
  h.bridgeWaits < h.xch.allot || blkSigma bs / h.fspec + h.depth ≤ h.frame

/-- A block for the other half crosses the die bridge, or waits for a credit behind those that do (R118, R119). -/
def State.bridgeBlock (s : State) (i : HalfId) (bs : List Byte) : State :=
  let o := s.half i.other
  if !s.board.bridgeUp || !o.mainUp then s
  else if (s.half i).xch.bridgeQ.isEmpty && o.bridgeRoom bs then s.crossBlock i bs
  else s.setHalf i (let h := s.half i; { h with xch := { h.xch with bridgeQ := h.xch.bridgeQ ++ [bs] } })

/-- Blocks that wait for the die bridge cross while it has credits (R119). -/
def State.bridgeDrain (s : State) (i : HalfId) : State :=
  let h := s.half i
  h.xch.bridgeQ.foldl (fun s b => s.bridgeBlock i b) (s.setHalf i { h with xch := { h.xch with bridgeQ := [] } })

/-- Check 3 of Table XCH-4 for a block on the group to `p`. -/
def Half.blockFormatOk (h : Half) (p : Nat) (bs : List Byte) : Bool :=
  bs.length == 4124 && fieldAt bs 0 2 == 0x4B52 && byteAt bs 2 == 1
    && bits (byteAt bs 3) 5 4 == 0 && !bit (byteAt bs 10) 7 && bits (byteAt bs 12) 7 5 == 0 && bits (byteAt bs 13) 7 2 == 0
    && fieldAt bs 16 8 == 0 && bit (byteAt bs 3) 6 == h.fmt8 && blkSrcDev bs == p && blkDstDev bs == h.ord
    && (let b := h.firstBlock p (blkSrcHalf bs); b ≤ blkIn bs && blkIn bs < b + h.blocksPerHalf)
    && blkGrp bs < h.groupsPerHalf

/-- Account for the SEQ of a block on a lane: a gap counts its blocks BAD, and returns their credits (R126). (DEDUCED, log 18) -/
def Half.takeSeq (h : Half) (p n seq : Nat) : Half :=
  let x := h.xlane n
  let gap := match x.seqRx with | some e => (seq + 2 ^ 16 - e) % 2 ^ 16 | none => 0
  (h.setXlane n (fun x => { x with seqRx := some ((seq + 1) % 2 ^ 16), given := x.given - (gap + 1) })).xchBad p gap

/-- The group to `p` carries a block of frame `j` here: it is in service, or READY to be so at the tick for which the block waits (R117).
(DEDUCED, log 18) -/
def Half.carries (h : Half) (p j : Nat) : Bool :=
  h.linkInService p || (h.linkState p == xlReady && h.frame < j + h.depth)

/-- R120: a data block on a lane. (DEDUCED, log 18) -/
def State.dataBlock (s : State) (i : HalfId) (n : Nat) (integrity : Integrity) (bs : List Byte) : State :=
  let h := (s.half i).heard (32 + n) bs
  match h.lanePeer n with
  | none => s
  | some p =>
    if !(s.half i).xLaneUp n || !(s.half i).laneHears (32 + n) bs then s
    else if !h.carries p (blkSigma bs / h.fspec) then
      -- the group does not carry it: only the lane's SEQ and credit are kept (R11, R117)
      s.setHalf i (h.setXlane n (fun x => { x with
        seqRx := if integrity = .bad || !crcGood bs then x.seqRx.map (fun e => (e + 1) % 2 ^ 16) else some ((fieldAt bs 14 2 + 1) % 2 ^ 16)
        given := x.given - 1 }))
    else if integrity = .bad || !crcGood bs then
      s.setHalf i ((h.setXlane n (fun x =>
        { x with seqRx := x.seqRx.map (fun e => (e + 1) % 2 ^ 16), given := x.given - 1 })).xchBad p 1)
    else
      let h := h.takeSeq p n (fieldAt bs 14 2)
      if !h.blockFormatOk p bs then s.setHalf i (h.xchBad p 1)
      else if blkDstHalf bs = halfBit i then s.setHalf i (h.land (some p) (some n) bs)
      else
        let j := blkSigma bs / h.fspec
        if j < h.xch.closed then s.setHalf i ((h.bumpWord XCH_LINK_STAT_5 1 p).log errXCH_LATE)
        else if h.frame < j then s.setHalf i ((h.bumpWord XCH_LINK_STAT_5 1 p).log errXCH_EARLY)
        else (s.setHalf i (h.bumpWord XCH_LINK_STAT_4 1 p)).bridgeBlock i (bs.take 4120)

/-- What changes in both halves, with what follows at once. -/
def State.onBoth (s : State) (f : State → State) : State :=
  let t := f s
  { t with north := Half.finish s.north t.north, south := Half.finish s.south t.south }.settle

/-- R120. -/
def execDataBlockReceived (i : HalfId) (n : Nat) (integrity : Integrity) (bs : List Byte) (s : State) :
    Host.Outcome State Fault Refusal :=
  done (if (s.half i).mainUp then s.onBoth (fun s => s.dataBlock i n integrity bs) else s)

/-- R119: credits come back to the sender of a lane. -/
def execCreditReceived (i : HalfId) (n : Nat) (bs : List Byte) (s : State) : Host.Outcome State Fault Refusal :=
  done ((s.onXchRx i n bs (fun h _ =>
    if ctlOk 6 bs then h.setXlane n (fun x => { x with credits := x.credits + fieldAt bs 4 2 }) else h)).flushAll)

/-- R119: what the lane's share of the landing buffer leaves is returned. -/
def execCreditSend (i : HalfId) (n : Nat) (s : State) : Host.Outcome State Fault Refusal :=
  done (s.onXch i n (fun h _ =>
    let x := h.xlane n
    let owed := h.xch.allot - x.given - x.waits
    if owed = 0 then h
    else (h.setXlane n (fun x => { x with given := x.given + owed })).sendKradel n (h.ctlBlock 6 (leBytes 2 owed))))

/-! ### Reads of the delay store -/

/-- The half whose link group carries a block of half `i` to half `y` of another device (R118, R127, R129). -/
def State.carrier (s : State) (i y : HalfId) (p : Nat) : HalfId :=
  if (s.half i).xch.solo then i
  else if (s.half y).flag XCH_LINK_STAT_0_DETOUR p then y.other else y

/-- A block joins the queue of its link group, or is missing while that is not in service (R117). -/
def Half.enqueue (h : Half) (src p : Nat) (bs : List Byte) : Half :=
  if h.mainUp && h.linkInService p then
    h.setLink p (fun x => { x with queue := SMap.insert x.queue (sendKey bs) ⟨blkSigma bs, src, bs⟩ })
  else h

/-- Send a block on its way (R118). -/
def State.route (s : State) (i : HalfId) (bs : List Byte) : State :=
  let d := blkDstDev bs
  let y := halfOfBit (blkDstHalf bs)
  let h := s.half i
  if d = h.ord then
    if y = i then s.setHalf i (h.land none none bs) else s.bridgeBlock i bs
  else
    let z := s.carrier i y d
    if z = i then s.setHalf i (h.enqueue (halfBit i) d bs)
    else if s.board.bridgeUp && (s.half z).mainUp then
      let s := s.setHalf i (h.bumpWord XCH_LINK_STAT_3 1 h.ord)
      s.setHalf z ((s.half z).enqueue (halfBit i) d bs)
    else s

/-- Blocks of device and half `src` that wait for the die bridge and have not left when the store begins to read `sigma` (R118). -/
def Half.dropBridge (h : Half) (src sigma : Nat) : Half :=
  let old (b : List Byte) : Bool := blkSrcDev b == h.ord && blkSrcHalf b == src && blkSigma b + 2 ≤ sigma
  let n := (h.xch.bridgeQ.filter old).length
  if n = 0 then h
  else
    (({ h with xch := { h.xch with bridgeQ := h.xch.bridgeQ.filter (fun b => !old b) } } : Half).bumpWord XCH_LINK_STAT_7 n h.ord).log errXCH_TX_DROP

/-- Drop this half's blocks that have not left when the store begins to read `sigma` (R118). -/
def Half.dropOld (h : Half) (src sigma : Nat) : Half :=
  (h.dropBridge src sigma).fold (List.range 16) (fun h p =>
    let old (e : Nat × QBlock) : Bool := e.2.src == src && e.2.sigma + 2 ≤ sigma
    let n := ((h.link p).queue.filter old).length
    if n = 0 then h
    else ((h.setLink p (fun x => { x with queue := x.queue.filter (fun e => !old e) })).bumpWord XCH_LINK_STAT_7 n p).log errXCH_TX_DROP)

/-- The blocks of output spectrum `sigma` (R118). -/
def Half.formBlocks (h : Half) (sigma : Nat) : List (List Byte) × Half :=
  let row := sigma % h.storeRows
  let keys := (List.range h.devices).flatMap (fun d => (List.range 2).flatMap (fun y =>
    (List.range h.blocksPerHalf).flatMap (fun b => (List.range h.groupsPerHalf).map (fun g => (d, y, b, g)))))
  keys.foldl (fun acc (d, y, b, g) =>
    let r := acc.2.blockPayload row b (h.firstChanOf d (halfOfBit y) / h.chanGroup + g)
    (acc.1 ++ [h.dataBlock sigma (h.firstBlock h.ord (halfBit h.id) + b) d y g r.1], r.2)) ([], h)

/-- DLY_RDPTR (R108's registers): the next output spectrum. -/
def Half.setRdptr (h : Half) : Half :=
  (h.putN DLY_RDPTR_LO (h.front.rp % 2 ^ 32)).fset DLY_RDPTR_HI_RP_HI (h.front.rp / 2 ^ 32)

/-- Read the next output spectrum (R103): its blocks go on their way, its row-valid bits clear. (DEDUCED, log 17) -/
def State.storeRead (s : State) (i : HalfId) : State :=
  let h := s.half i
  let sigma := h.front.rp
  let row := sigma % h.storeRows
  let (blocks, h) := if h.flag XCH_CTL_RUN then h.formBlocks sigma else ([], h)
  let clear (h : Half) : Half := { h with front := { h.front with
    rp := sigma + 1, store := h.front.store.filter (fun e => e.1 / 256 != row) } }
  let s := s.setHalf i (clear h).setRdptr
  let s := { s with north := s.north.dropOld (halfBit i) sigma, south := s.south.dropOld (halfBit i) sigma }
  (blocks.foldl (fun s b => s.route i b) s).flushAll

/-- R103. -/
def execDelayStoreRead (i : HalfId) (s : State) : Host.Outcome State Fault Refusal :=
  done (if (s.half i).mainUp && !(s.half i).inHold && (s.half i).front.rp < (s.half i).front.rpEnd then
    s.onBoth (fun s => s.storeRead i) else s)

/-- R123, R124: buffer j mod 2 of frame j = k − Δ goes to the Arcade; its unmarked blocks are counted. -/
def Half.landing (h : Half) : Half :=
  let k := h.frame
  if h.inHold || k < h.delta then h
  else
    let j := k - h.delta
    if j < h.xch.closed then h
    else
      let total := h.fspec * h.plazaBlocks * h.groupsPerHalf
      let h := h.bumpWord XCH_CT_MISS (total - (h.ctBuf j).length)
      { h with xch := { h.xch with closed := j + 1, handed := some j } }

/-! ### The tick -/

/-- Blocks that waited for the tick land (R120), those of a lane where its group is in service (R117). -/
def Half.landWaiting (h : Half) : Half :=
  let ready (w : Waiting) : Bool := blkSigma w.bytes / h.fspec + h.depth ≤ h.frame
  let go := h.xch.waiting.filter ready
  let h := { h with xch := { h.xch with waiting := h.xch.waiting.filter (fun w => !ready w) } }
  h.fold go (fun h w =>
    let h := match w.lane with | some n => h.setXlane n (fun x => { x with waits := x.waits - 1 }) | none => h
    if w.lane.isSome && !h.linkInService w.entry then h
    else h.land (if w.entry < 16 then some w.entry else none) none w.bytes)

/-- Groups that are ready enter service; those that would raise W too far are held; W is recomputed (R117, R121). -/
def Half.linkTick (h : Half) : Half :=
  let peers := (List.range 16).filter (· != h.ord)
  let h := h.fold peers (fun h p => if h.linkState p = xlReady && (h.link p).peerReady then h.linkEnter p xlInService else h)
  let h := h.fold (peers.filter h.linkInService) (fun h p =>
    if h.winTooLong (h.groupReach p) then h.linkHold p 3 errXCH_LATENCY else h)
  let reach := (peers.filter h.linkInService).foldl (fun m p => max m (h.groupReach p)) 0
  if h.flag XCH_CTL_RUN then h.putN XCH_WIN (h.winOf reach) else h

/-- ⌊0.995 × live lanes × 194 Gb/s × P / 4,132 B⌋ (R126). -/
def Half.liveLimit (h : Half) (live : Nat) : Nat := live * 995 * 194 * h.lin / (8 * max 1 (h.fget TMG_FS_FS) * 4132)

/-- Shares, limits and the frame that begins to land (R119, R123, R126). -/
def Half.xchFrame (h : Half) (solo : Bool) : Half :=
  let h := { h with xch := { h.xch with solo := solo, allot := 1024 / (((List.range 16).filter h.xLaneUp).length + 1) } }
  let h := h.fold (List.range 16) (fun h p =>
    if h.linkInService p then
      let live := (h.liveLanes p).length
      h.setLink p (fun x => { x with
        limit := if live < ((h.groupLanes p).filter h.xLaneOn).length then some (h.liveLimit live) else none })
    else h)
  let k := h.frame
  let h := if h.depth ≤ k then
      let j := k - h.depth
      let h := h.setCtBuf j []
      { h with xch := { h.xch with closed := max h.xch.closed (j - 1) } }
    else h
  h.landWaiting

/-- Whether the group of half `y` to `p` is detoured from this tick (R127); one that was stays so until it is back in
service. -/
def State.detour (s : State) (y : HalfId) (p : Nat) : Bool :=
  let h := s.half y
  let o := s.half y.other
  h.mainUp && o.mainUp && h.flag XCH_CTL_RUN && !(h.groupLanes p).isEmpty && !h.linkInService p
    && ((h.liveLanes p).isEmpty || h.flag XCH_LINK_STAT_0_DETOUR p)
    && o.flag XCH_CTL_DETOUR_EN && o.linkInService p
    && 2 * (2 * h.blocksPerHalf) * h.groupsPerHalf ≤ o.liveLimit (o.liveLanes p).length

/-- Set the DETOUR bits of a half (R127). -/
def State.detours (s : State) (y : HalfId) : State :=
  let h := s.half y
  s.setHalf y (h.fold ((List.range 16).filter (· != h.ord)) (fun h p =>
    let was := h.flag XCH_LINK_STAT_0_DETOUR p
    let now := s.detour y p
    let h := h.fset XCH_LINK_STAT_0_DETOUR (b2n now) p
    if now && !was then h.log errXCH_DETOUR else h))

/-- TICK blocks of the local tick on every live lane (R113). -/
def Half.sendTicks (h : Half) : Half :=
  h.fold ((List.range 16).filter (fun n => h.xLaneUp n && (h.lanePeer n).isSome)) (fun h n => h.sendKradel n (h.ctlBlock 3 (leBytes 6 h.frame)))

/-- What the exchange of the device does at a tick; a half is out until the frame at which it rejoins (R342). -/
def State.xchTick (s : State) : State :=
  let each (s : State) (f : HalfId → Half → Half) : State :=
    { s with north := if s.north.mainUp then f .north s.north else s.north
             south := if s.south.mainUp then f .south s.south else s.south }
  let t := each s (fun _ h => h.linkTick)
  let t := s.peerWatch t
  let t := (t.detours .north).detours .south
  let t := each t (fun i h =>
    let o := t.half i.other
    (h.xchFrame (!o.running || o.exy.rejoinAt.any (fun k => h.frame < k))).sendTicks)
  (t.bridgeDrain .north).bridgeDrain .south

end Sys2Proof.Machine
end

