-- ==== Sys2Proof/Machine/Courtyard.lean ====
section
/-! DEFINITION. The Courtyard, block programs and op encodings (07_arcade_courtyard.md): slots, tally records, regions,
marks, what a program's ops say, the tile plan of a subarray. -/

namespace Sys2Proof.Machine

def Half.modArc (h : Half) (f : Arc → Arc) : Half := { h with arc := f h.arc }

/-- While the half Arcade is contained, a further error of class D or above there takes the half down (R436). -/
def Half.arcErr (h : Half) (code : Nat) (inst : Nat := 0xFFFF) : Half :=
  let h := h.log code inst
  if h.arc.contained && codeClass code != 0 then h.logFatal errERR_HALF_CONTAIN 6 else h

/-- An error with an INST whose code is logged once per tick interval and half (R163): a repeat merges into the record that the interval
made, whichever bay it named. (DEDUCED, log 47) -/
def Half.arcBayErr (h : Half) (code p : Nat) : Half :=
  h.arcErr code (((h.errq.created.find? (fun e => e.1 == code)).map (·.2)).getD p)

/-! ### Words of the Courtyard (R143) -/

/-- Words of a slot, and of a tally record. -/
def slotWords : Nat := 8192
def recWords : Nat := 4096

def Half.cyWord (h : Half) (a : Nat) : Nat := (SMap.getD h.arc.cy a 0).toNat

/-- Write consecutive words. -/
def Half.cyWrite (h : Half) (a : Nat) (ws : List Word) : Half :=
  h.modArc (fun x => { x with cy := SMap.putRun 0 x.cy a ws })

/-- Write one word. -/
def Half.cyPut (h : Half) (a n : Nat) : Half :=
  h.modArc (fun x => { x with cy := SMap.put 0 x.cy a (BitVec.ofNat 32 n) })

def Half.cyZero (h : Half) (a n : Nat) : Half :=
  h.modArc (fun x => { x with cy := x.cy.filter (fun e => e.1 < a || a + n ≤ e.1) })

def Half.cyBytes (h : Half) (a n : Nat) : List Byte :=
  (SMap.readRun 0 h.arc.cy a n).toList.flatMap (fun w => leBytes 4 w.toNat)

/-- Mark slots or records suspect, and clear their marks. -/
def Half.suspectSlots (h : Half) (xs : List Nat) : Half :=
  h.modArc (fun x => { x with suspect := xs ++ x.suspect.filter (fun s => !xs.contains s) })

def Half.suspectRecs (h : Half) (xs : List Nat) : Half :=
  h.modArc (fun x => { x with recSuspect := xs ++ x.recSuspect.filter (fun s => !xs.contains s) })

def Half.slotSuspect (h : Half) (s : Nat) : Bool := h.arc.suspect.contains s

def Half.recSuspect (h : Half) (r : Nat) : Bool := h.arc.recSuspect.contains r || h.slotSuspect (r / 2)

/-- Slots a block holds for the folder. -/
def Block.holds (b : Block) (s : Nat) : Bool := b.slot ≤ s && s < b.slot + b.count

/-- The slot is held by the folder (R151). -/
def Half.slotHeld (h : Half) (s : Nat) : Bool := h.lta.blocks.any (fun b => b.holds s)

/-- First word of a region's slot. -/
def Half.stageBase (h : Half) : Nat := h.fget CY_STAGE_BASE * slotWords
def Half.handBase (h : Half) : Nat := h.fget CY_BHAND_BASE * slotWords

/-- The slot of the Courtyard that a hand-off slot is. -/
def Half.handSlot (h : Half) (idx : Nat) : Nat := h.fget CY_BHAND_BASE + idx
def Half.tableBase (h : Half) : Nat := h.fget CY_TABLE_BASE * slotWords

/-- Words of a stripe buffer, 8 MiB. -/
def stripeWords : Nat := 2 ^ 21

/-! ### Ops (R147) -/

/-- An op as the sequencer reads it; a word out of its range is `bad` (R148). -/
inductive Op where
  | nop
  | open_ (bank : Bool) (tag slot count tcount trec : Nat)
  | stage (scode na ga nb gb : Nat)
  | xt (shape amode k16c : Nat) (last bank tri : Bool) (slot tcnt trec : Nat) (w3 : Nat)
  | bt (shape grp nib inb : Nat)
  | close (bank : Bool) (part slot count : Nat)
  | save (bank : Bool) (bay : Nat) (cells tally : Bool) (slot trec count addr : Nat)
  | restore (bank : Bool) (bay : Nat) (cells tally : Bool) (slot trec count addr : Nat)
  | sync
  | loop (body count : Nat)
  | bad
  deriving DecidableEq, Repr

/-- No bit of `w` outside `mask` is set. -/
def onlyBits (w mask : Nat) : Bool := (w &&& mask) == w

/-- The op that four words spell for a subarray, in a half of the given format (Table ARC-6, R148). (DEDUCED, log 20) -/
def decodeOp (fmt8 : Bool) (sub w0 w1 w2 w3 : Nat) : Op :=
  let lo := w0 % 2 ^ 24
  let bank := bit w0 15
  let slot := bits w1 12 0
  if bits w0 27 24 != sub then .bad
  else match w0 / 2 ^ 28 with
  | 0 => if lo = 0 && w1 = 0 && w2 = 0 && w3 = 0 then .nop else .bad
  | 1 =>
    let tag := bits w0 2 0
    if onlyBits lo 0x8007 && onlyBits w1 0x1FFF && onlyBits w2 0x3FFF && onlyBits w3 0x3FFF3FFF && 1 ≤ tag && tag ≤ 4
    then .open_ bank tag slot (bits w2 13 0) (bits w3 29 16) (bits w3 13 0) else .bad
  | 2 =>
    let na := bits w1 15 8
    let nb := bits w2 15 8
    if onlyBits lo 0xF0 && onlyBits w1 0xFF7F && onlyBits w2 0xFF7F && w3 = 0 && bits w0 7 4 ≤ 4
      && 1 ≤ na && na ≤ 128 && nb ≤ 128
    then .stage (bits w0 7 4) na (bits w1 6 0) nb (bits w2 6 0) else .bad
  | 3 =>
    let shape := bits w0 23 22
    let amode := bits w0 21 20
    let k := bits w0 19 18
    if onlyBits lo 0xFD8100 && onlyBits w1 0x1FFF && onlyBits w2 0x3FFF3FFF && shape < 2
      && (if fmt8 then amode == 2 else amode < 2) && !(amode == 0 && k == 3)
      && (if shape = 0 then w3 == 0 else onlyBits w3 0xFEFEFEFE)
    then .xt shape amode k (bit w0 16) bank (bit w0 8) slot (bits w2 29 16) (bits w2 13 0) w3 else .bad
  | 4 =>
    let shape := bits w0 23 22
    let grp := bits w1 5 0
    if onlyBits lo 0xC00000 && onlyBits w1 0x3F && onlyBits w2 0xFF7F && w3 = 0 && 2 ≤ shape && !fmt8
      && (shape == 3 || grp < 16)
    then .bt shape grp (bits w2 15 8) (bits w2 6 0) else .bad
  | 5 =>
    if onlyBits lo 0x80FF && onlyBits w1 0x1FFF && onlyBits w2 0x3FFF && w3 = 0
    then .close bank (bits w0 7 0) slot (bits w2 13 0) else .bad
  | 6 =>
    if onlyBits lo 0x80FF && onlyBits w1 0x1FFF && onlyBits w2 0x3FFF3FFF
    then .save bank (bits w0 7 2) (bit w0 1) (bit w0 0) slot (bits w2 29 16) (bits w2 13 0) w3 else .bad
  | 7 =>
    if onlyBits lo 0x80FF && onlyBits w1 0x1FFF && onlyBits w2 0x3FFF3FFF
    then .restore bank (bits w0 7 2) (bit w0 1) (bit w0 0) slot (bits w2 29 16) (bits w2 13 0) w3 else .bad
  | 8 => if lo = 0 && w1 = 0 && w2 = 0 && w3 = 0 then .sync else .bad
  | 9 => if onlyBits lo 0xFFF && onlyBits w1 0xFFFF && w2 = 0 && w3 = 0 then .loop (bits w0 11 0) (bits w1 15 0) else .bad
  | _ => .bad

/-- Op `n` of the program store, its words. -/
def Half.opWords (h : Half) (n : Nat) : List Word := (List.range 4).map (fun w => SMap.getD h.arc.prog (4 * n + w) 0)

/-- Op `n` of the store as an op of a subarray. -/
def Half.opAt (h : Half) (sub n : Nat) : Op :=
  let w := (h.opWords n).map (·.toNat)
  decodeOp h.fmt8 sub (w.getD 0 0) (w.getD 1 0) (w.getD 2 0) (w.getD 3 0)

/-! ### The tile plan of a subarray -/

/-- A tile of a block: slot before the bank offset, quarter for XT-32, record, row and column block indices among the
subarray's staged blocks. -/
structure Tile where
  slot : Nat
  q : Nat
  trec : Nat
  a : Nat
  b : Nat
  deriving DecidableEq, Repr

/-- A block of a program: PART, slots, bank, tiles in sweep order, whether they are XT-32. -/
structure PBlock where
  part : Nat
  slot : Nat
  count : Nat
  bank : Bool
  x32 : Bool
  tiles : List Tile
  deriving DecidableEq, Repr

/-- What a subarray's program says: the Plaza blocks it stages, F·G, its blocks, its BT ops as (shape, group). -/
structure Plan where
  staged : List Nat
  fg : Nat
  blocks : List PBlock
  beams : List (Nat × Nat)
  deriving DecidableEq, Repr

/-- Base and length of a subarray's program in effect for Arcade frame `j` (R38, R162). -/
def Half.progOf (h : Half) (sub j : Nat) : Nat × Nat :=
  let w := (h.histGet ARC_SUB_PROG sub (j + h.delta)).toNat
  (bits w 11 0, bits w 27 16)

/-- The sweep of an XT-64 op over staged sets (R147): row and column places in the stripe. -/
def sweep (tri : Bool) (na nb : Nat) : List (Nat × Nat) :=
  if tri then (List.range na).flatMap (fun b => (List.range (b + 1)).map (fun a => (a, b)))
  else (List.range na).flatMap (fun a => (List.range nb).map (fun b => (a, na + b)))

/-- The quadrants that an XT-32 op enables (R139). -/
def xtQuads (w3 : Nat) : List Quad :=
  ((List.range 4).filter (fun q => bit w3 (8 * q + 7))).map
    (fun q => ⟨q, bits w3 (8 * q + 6) (8 * q + 4), bits w3 (8 * q + 3) (8 * q + 1)⟩)

/-- Plaza blocks of a STAGE, in staging order. -/
def stageBlocks (na ga nb gb : Nat) : List Nat := (List.range na).map (ga + ·) ++ (List.range nb).map (gb + ·)

/-- Ops of a subarray's program with their loop count. -/
def Half.progOps (h : Half) (sub j : Nat) : List (Op × Nat) :=
  let (base, len) := h.progOf sub j
  let ops := (List.range len).map (fun n => h.opAt sub (base + n))
  (ops.foldl (fun (acc : List (Op × Nat) × Nat × Nat) op =>
    let (out, left, count) := acc
    match op with
    | .loop body c => if left = 0 then (out, body, c) else (out, left - 1, count)
    | _ => (out ++ [(op, if left = 0 then 1 else count)], left - 1, count)) ([], 0, 1)).1

/-- Plaza blocks that a program stages, ascending, each once. -/
def stagedOf (ops : List (Op × Nat)) : List Nat :=
  (List.range 256).filter (fun b => ops.any (fun o => match o.1 with
    | .stage _ na ga nb gb => (stageBlocks na ga nb gb).contains b
    | _ => false))

/-- F·G of a program: the samples of one output channel, as its stripes give them. -/
def fgOf (ops : List (Op × Nat)) : Nat :=
  (ops.findSome? (fun o => match o.1 with
    | .stage sc _ _ _ _ => some (512 * 2 ^ sc * o.2)
    | _ => none)).getD 0

/-- Tiles of an XT op over the last STAGE's blocks. -/
def xtTiles (staged cur : List Nat) (na : Nat) : Op → List Tile
  | .xt 0 _ _ _ _ tri slot _ trec _ =>
    (sweep tri na (cur.length - na)).zipIdx.map (fun (ab, n) =>
      ⟨slot + n, 0, trec + n, staged.idxOf (cur.getD ab.1 0), staged.idxOf (cur.getD ab.2 0)⟩)
  | .xt _ _ _ _ _ _ slot _ trec w3 =>
    (xtQuads w3).map (fun x =>
      ⟨slot, x.q, trec, 2 * staged.idxOf (cur.getD (x.row / 2) 0) + x.row % 2, 2 * staged.idxOf (cur.getD (x.col / 2) 0) + x.col % 2⟩)
  | _ => []

/-- Blocks of a program: what stands before each CLOSE. -/
def planBlocks (staged : List Nat) (ops : List (Op × Nat)) : List PBlock :=
  (ops.foldl (fun (acc : List PBlock × List Nat × Nat × List Tile × Bool) o =>
    let (out, cur, na, tiles, x32) := acc
    match o.1 with
    | .stage _ na ga nb gb => (out, stageBlocks na ga nb gb, na, tiles, x32)
    | .xt sh _ _ _ _ _ _ _ _ _ => (out, cur, na, tiles ++ (xtTiles staged cur na o.1).filter (fun t => !tiles.contains t), sh == 1)
    | .close bank part slot count =>
      (out ++ List.replicate o.2 ⟨part, slot, count, bank, x32, tiles.filter (fun t => slot ≤ t.slot && t.slot < slot + count)⟩,
        cur, na, [], x32)
    | _ => acc) ([], [], 0, [], false)).1

/-- The plan of a subarray for Arcade frame `j`. -/
def Half.plan (h : Half) (sub j : Nat) : Plan :=
  let ops := h.progOps sub j
  let staged := stagedOf ops
  { staged := staged, fg := fgOf ops, blocks := planBlocks staged ops
    beams := ops.filterMap (fun o => match o.1 with | .bt sh g _ _ => some (sh, g) | _ => none) }

/-- G of a subarray, from its program: its stripes hold F·G samples. -/
def Half.subG (h : Half) (sub j : Nat) : Nat := max 1 ((h.plan sub j).fg / h.fspec)

/-- O_h of a subarray. -/
def Half.subChans (h : Half) (sub j : Nat) : Nat := h.ownChans / h.subG sub j

/-- Subarrays with a program for frame `j`, ascending (R146). -/
def Half.subsOf (h : Half) (j : Nat) : List Nat := (List.range 16).filter (fun s => 0 < (h.progOf s j).2)

/-- Every block of frame `j`, in program order, as (subarray, o, place in its program, block). -/
def Half.allBlocks (h : Half) (j : Nat) : List (Nat × Nat × Nat × PBlock) :=
  (h.subsOf j).flatMap (fun s =>
    let p := h.plan s j
    (List.range (h.subChans s j)).flatMap (fun o => p.blocks.zipIdx.map (fun (b, n) => (s, o, n, b))))

/-- The inputs of a subarray in Arcade frame `j`, where Exylo has named them. -/
def Half.membersAt (h : Half) (sub j : Nat) : Option (List Nat) :=
  ((SMap.getD h.arc.members sub []).find? (fun e => e.1 ≤ j)).map (·.2)

/-- The input belongs to the subarray in frame `j`; any input does where Exylo has not named its members (R36). -/
def Half.isMember (h : Half) (sub j i : Nat) : Bool :=
  match h.membersAt sub j with
  | some xs => xs.contains i
  | none => true

/-! ### Uncorrectable and corrected words (R145, R199) -/

/-- An entry of the beam tables acts as gain 0+0 until the loader reloads the region (R199). -/
def Half.badEntry (h : Half) (e : Nat) : Half :=
  let h := h.modArc (fun x => { x with tabBad := e :: x.tabBad.filter (· != e), tabStale := true })
  (h.bumpWord BMF_CNT_3).log errBMF_TAB_ECC

/-- An uncorrectable word at byte `8·w` of the Courtyard. -/
def Half.cyUncorr (h : Half) (w : Nat) : Half :=
  let h := (h.bump CY_ECC_UNCORR).arcErr errCY_ECC_UNCORR
  let a := 2 * w
  let inRegion (base n : Nat) : Bool := base ≤ a && a < base + n
  if inRegion h.stageBase (2 * stripeWords) then
    let run := 16 * h.bps
    let b := h.stageBase + (a - h.stageBase) / run * run
    h.cyWrite b (toWords ((List.range 64).flatMap (fun _ => h.codeBytes h.invalidCode)))
  else if inRegion h.handBase (32 * slotWords) then
    ((h.cyWrite a [0, 0]).bumpWord BMF_CNT_3).log errBMF_HAND_ECC
  else if inRegion h.tableBase (h.fget CY_TABLE_SIZE * slotWords) then h.badEntry ((a - h.tableBase) * 4 / 24)
  else
    let s := a / slotWords
    (h.suspectSlots [s]).suspectRecs [a / recWords]

/-- Words in error that the Courtyard's reads met: place in 64-bit words, and whether uncorrectable. -/
def Half.cyErrors (h : Half) (ws : List (Nat × Bool)) : Half :=
  h.fold (ws.filter (fun w => w.1 < 2 ^ 25)) (fun h w => if w.2 then h.cyUncorr w.1 else h.bump CY_ECC_CORR)

end Sys2Proof.Machine
end

