-- ==== Sys2Proof/Machine/Fold.lean ====
section
/-! DEFINITION. The folder, long-term accumulation and dumps (08_tally.md, 09_visibility_products.md). -/

namespace Sys2Proof.Machine

def Half.modLta (h : Half) (f : Lta → Lta) : Half := { h with lta := f h.lta }

/-- DEV_OVR_STAT records `n` dropped blocks of a frame (Table FRM-5). (DEDUCED, log 22) -/
def Half.ovr (h : Half) (stage frame n : Nat) : Half :=
  if n = 0 then h
  else ((h.bump DEV_OVR_STAT_DROPPED n).fset DEV_OVR_STAT_STAGE stage).fset DEV_OVR_STAT_FRAME (frame % 2 ^ 14)

/-- FRAME_OVERRUN: the event at most once per tick interval, each occurrence into the pending record (R47, R430). -/
def Half.frameOverrun (h : Half) : Half := (h.raiseOnce 451).log errFRAME_OVERRUN

/-! ### L48 records (R180, R181) -/

/-- Cells along an edge of a tile. -/
def tileEdge (x32 : Bool) : Nat := if x32 then 32 else 64

/-- Record size Z (Table VIS-1). -/
def recSize (x32 : Bool) : Nat := if x32 then 16384 else 65536

/-- t(a, b) (R147). -/
def tileNo (a b : Nat) : Nat := b * (b + 1) / 2 + a

/-- Blocks of a subarray: K_s, or K32 at XT-32 (R180); without named members, those that its program stages. -/
def Half.blockCount (h : Half) (sub j : Nat) (p : Plan) (x32 : Bool) : Nat :=
  match h.membersAt sub j with
  | some xs => if x32 then blocks32 xs else blocks64 xs
  | none => if x32 then 2 * p.staged.length else p.staged.length

/-- T_s of a subarray's plan: tiles of 64-blocks, or of 32-blocks (R180). -/
def Half.tileCount (h : Half) (sub j : Nat) (p : Plan) (x32 : Bool) : Nat :=
  let k := h.blockCount sub j p x32
  k * (k + 1) / 2

/-- The tile has a record: one of a block that only pads a partition's last group has none, and is delivered as zeros. (DEDUCED, log 53) -/
def Half.hasRecord (h : Half) (sub j : Nat) (p : Plan) (x32 : Bool) (t : Tile) : Bool :=
  max t.a t.b < h.blockCount sub j p x32

/-- HBM address of the L48 record of (o, t). -/
def Half.l48Addr (h : Half) (g : Integ) (sub : Nat) (p : Plan) (x32 : Bool) (o : Nat) (t : Tile) : Nat :=
  g.words.getD 2 0 * 4096 + (o * h.tileCount sub g.first p x32 + tileNo t.a t.b) * recSize x32

/-- A cell of an L48 record. -/
structure LCell where
  re : Int
  im : Int
  n : Nat
  deriving DecidableEq, Repr

/-- The bytes of the cells of a record. -/
def l48Cells (x32 : Bool) (bs : List Byte) : List LCell :=
  let cells := tileEdge x32 * tileEdge x32
  (List.range cells).map (fun e =>
    ⟨sext 48 (fieldAt bs (12 * e) 6), sext 48 (fieldAt bs (12 * e + 6) 6), fieldAt bs (12 * cells + 4 * e) 4⟩)

def l48Bytes (cs : List LCell) : List Byte :=
  cs.flatMap (fun c => leBytes 6 (wrapBits 48 c.re) ++ leBytes 6 (wrapBits 48 c.im)) ++ cs.flatMap (fun c => leBytes 4 c.n)

/-- Sums of a tile in its slot, and its spilled counts, cell by cell. -/
structure Partial where
  tile : Tile
  cells : List LCell
  deriving DecidableEq, Repr

/-- The tally spill area that the registers give (R169). -/
def Half.spillArea (h : Half) : SpillArea := ⟨h.getN TAL_SPILL_BASE * 4096, h.fget TAL_SPILL_CFG_REC0, h.fget TAL_SPILL_CFG_NREC⟩

/-- HBM address of record `r` in spill buffer `m` (R169). -/
def SpillArea.addr (x : SpillArea) (m r : Nat) : Nat := x.base + (m * x.nrec + (r - x.rec0)) * 16384

def SpillArea.holds (x : SpillArea) (r : Nat) : Bool := x.rec0 ≤ r && r < x.rec0 + x.nrec

/-- First word of a tile's cells in its slot. -/
def tileWord (slot q : Nat) : Nat := slot * slotWords + q * 2048

/-- A32 sums of a tile. -/
def Half.slotCells (h : Half) (slot q : Nat) (x32 : Bool) : List (Int × Int) :=
  let n := tileEdge x32 * tileEdge x32
  let ws := SMap.readRun 0 h.arc.cy (tileWord slot q) (2 * n)
  (List.range n).map (fun e => (sext 32 (ws.getD (2 * e) 0).toNat, sext 32 (ws.getD (2 * e + 1) 0).toNat))

/-- The partial of a tile of a block: its sums and counts, and whether its spilled counts are poisoned (R171). A record
that the block did not spill is not read, and its counts are zero. -/
def Half.partialOf (h : Half) (b : Block) (x32 : Bool) (ofs : Nat) (t : Tile) : (Partial × Bool) × Half :=
  let sums := h.slotCells (t.slot + ofs) t.q x32
  if b.spilled.contains t.trec && b.area.holds t.trec then
    let r := h.memRead (b.area.addr (b.blk % 2) t.trec + t.q * 4096) (4 * sums.length)
    ((⟨t, sums.zipIdx.map (fun (s, e) => ⟨s.1, s.2, fieldAt r.1.1 (4 * e) 4⟩)⟩, r.1.2), r.2)
  else ((⟨t, sums.map (fun s => ⟨s.1, s.2, 0⟩)⟩, false), h)

/-- Every partial of a block, and whether any count is poisoned. -/
def Half.partials (h : Half) (b : Block) (pb : PBlock) : (List Partial × Bool) × Half :=
  pb.tiles.foldl (fun acc t =>
    let r := acc.2.partialOf b pb.x32 (b.slot - pb.slot) t
    ((acc.1.1 ++ [r.1.1], acc.1.2 || r.1.2), r.2)) (([], false), h)

/-- The frame check of R170. -/
def Half.cellOk (h : Half) (fg : Nat) (c : LCell) : Bool :=
  let p : Int := if h.fmt8 then 32258 else 98
  c.n ≤ fg && c.re.natAbs ≤ (p * c.n).natAbs && c.im.natAbs ≤ (p * c.n).natAbs

/-! ### Integrations (R178, R179) -/

/-- Words 0 to 5 of a product's entry in effect for Arcade frame `j`. -/
def Half.visWords (h : Half) (v j : Nat) : List Nat :=
  [LTA_VIS_0, LTA_VIS_1, LTA_VIS_2, LTA_VIS_3, LTA_VIS_4, LTA_VIS_5].map (fun r => (h.histGet r v (j + h.delta)).toNat)

def Integ.w0 (g : Integ) : Nat := g.words.getD 0 0
def Integ.sub (g : Integ) : Nat := bits g.w0 27 24
def Integ.prod (g : Integ) : Nat := bits g.w0 23 16
def Integ.gcode (g : Integ) : Nat := bits g.w0 15 12
def Integ.rowstat (g : Integ) : Bool := bit g.w0 9
def Integ.norm (g : Integ) : Bool := bit g.w0 8 && !bit g.w0 7
def Integ.i32 (g : Integ) : Bool := bit g.w0 7
def Integ.flow (g : Integ) (k : Nat) : Nat := bits (g.words.getD (3 + k) 0) 19 0

/-- The final frame of an integration that starts at frame `f` (R178). -/
def finalFrame (align : Bool) (t f : Nat) : Nat := if align then (f / t + 1) * t - 1 else f + t - 1

/-- Replace an integration. -/
def Half.setInteg (h : Half) (g : Integ) : Half :=
  h.modLta (fun x => { x with integs := x.integs.map (fun y => if y.v = g.v && y.first = g.first then g else y) })

/-- Integrations of a subarray that hold frame `j`, ascending by product entry. -/
def Half.integsOf (h : Half) (sub j : Nat) : List Integ :=
  (List.range 32).filterMap (fun v => h.lta.integs.find? (fun g => g.v == v && g.sub == sub && g.first ≤ j && j ≤ g.last))

/-- The fresh bit of (v, o, PART) is set (R181). -/
def Half.isFresh (h : Half) (v o part : Nat) : Bool := !h.lta.stale.contains (v, o, part)

def Half.setFresh (h : Half) (v o part : Nat) (b : Bool) : Half :=
  h.modLta (fun x =>
    let xs := x.stale.filter (· != (v, o, part))
    { x with stale := if b then xs else (v, o, part) :: xs })

/-! ### Output values (R175, R184 to R187) -/

/-- binary32 of √(num/den), correctly rounded. -/
def f32Sqrt (num den : Nat) : Int :=
  let k := 160
  let t := isqrt (num * 2 ^ (2 * k) / den)
  f32Round ((2 * t + b2n (t * t * den != num * 2 ^ (2 * k)) : Nat) : Int) (2 ^ (k + 1 - 149))

/-- A component in the product's format, and whether it was clamped. -/
def Integ.component (g : Integ) (x : Int) (n : Nat) : Nat × Bool :=
  if g.i32 then
    let y := clamp (-(2 ^ 31)) (2 ^ 31 - 1) x
    (wrapBits 32 y, y != x)
  else if g.norm then (if n = 0 then 0x7FC00000 else f32Bits (f32Round (x * 2 ^ 149) n), false)
  else (f32Bits (f32Round (x * 2 ^ 149) 1), false)

/-- The Plaza input behind row or column `r` of block index `a` of a plan. -/
def plazaOf (p : Plan) (x32 : Bool) (a r : Nat) : Nat :=
  if x32 then p.staged.getD (a / 2) 0 * 64 + a % 2 * 32 + r else p.staged.getD a 0 * 64 + r

/-- Cells of a tile that are delivered, in stream order (Table VIS-2). -/
def tileCells (x32 : Bool) (t : Tile) : List (Nat × Nat) :=
  let e := tileEdge x32
  (List.range e).flatMap (fun r => ((List.range e).filter (fun c => t.a != t.b || r ≤ c)).map (fun c => (r, c)))

/-- A delivered record: stream index, VIS bytes, COUNT bytes, components clamped. -/
structure VRec where
  index : Nat
  vis : List Byte
  count : List Byte
  sat : Nat
  deriving DecidableEq, Repr

/-- Take a pair into the statistics of one row (R186). -/
def RowAcc.add (x : RowAcc) (m : Int) (j : Nat) : RowAcc :=
  { sum := x.sum + m
    top := max x.top m
    col := if x.col = 0xFFFF || x.top < m || (x.top == m && j < x.col) then j else x.col }

/-- What one delivered cell adds to the row statistics of the integration. -/
def Integ.addRows (g : Integ) (o i j : Nat) (c : LCell) : Integ :=
  if !g.rowstat || i = j || c.n = 0 then g
  else
    let m := f32Sqrt (c.re.natAbs ^ 2 + c.im.natAbs ^ 2) (if g.norm then c.n ^ 2 else 1)
    let add (rows : SMap RowAcc) (a b : Nat) := SMap.modify rows (o * 2 ^ 14 + a) ⟨0, 0, 0xFFFF⟩ (fun x => x.add m b)
    { g with rows := add (add g.rows i j) j i }

/-- The cells of a tile as records, with what they add to the statistics; zero counts outside padding are counted. -/
def Half.tileRecs (h : Half) (g : Integ) (p : Plan) (x32 : Bool) (o : Nat) (t : Tile) (cells : List LCell) :
    (List VRec × Integ) × Half :=
  let e := tileEdge x32
  let sub := g.sub
  (tileCells x32 t).foldl (fun acc rc =>
    let c := cells.getD (rc.1 * e + rc.2) ⟨0, 0, 0⟩
    let i := plazaOf p x32 t.a rc.1
    let j := plazaOf p x32 t.b rc.2
    let held := h.isMember sub g.first i && h.isMember sub g.first j
    let re := g.component c.re c.n
    let im := g.component c.im c.n
    let sat := b2n re.2 + b2n im.2
    let out := VRec.mk (e * e * tileNo t.a t.b + rc.1 * e + rc.2) (leBytes 4 re.1 ++ leBytes 4 im.1) (leBytes 4 c.n) sat
    let h' := if held && c.n = 0 then acc.2.bumpWord TAL_ZERO else acc.2
    let h' := if sat = 0 then h' else (h'.bumpWord LTA_STAT sat).log errLTA_SAT
    ((acc.1.1 ++ [out], if held then acc.1.2.addRows o i j c else acc.1.2), h')) (([], g), h)

/-! ### Packets (R189, R190) -/

/-- Cut a list every `n`; `fuel` bounds the pieces. -/
def chunksOf {α : Type} (n : Nat) : Nat → List α → List (List α)
  | 0, _ => []
  | fuel + 1, xs => if xs.isEmpty then [] else xs.take n :: chunksOf n fuel (xs.drop n)

def chunks {α : Type} (n : Nat) (xs : List α) : List (List α) := chunksOf n xs.length xs

/-- First fine channel of the half over G, plus o (Table of R189). -/
def Half.plazaChan (h : Half) (g : Integ) (o : Nat) : Nat := h.firstChan / 2 ^ g.gcode + o

/-- Every open integration that holds a marked frame is incomplete (R340, R369). -/
def Half.integMarked (h : Half) (g : Integ) : Bool := h.lta.markInc.any (fun f => g.first ≤ f && f ≤ g.last)

/-- The bound of R18 for an integration: the tick before which its last packet is to leave. -/
def Half.leaveBy (h : Half) (g : Integ) : Nat := g.last + h.delta + 1 + (g.last + 1 - g.first)

/-- What the packets of block (o, PART) of a dump belong to. -/
def dumpTag (g : Integ) (o part : Nat) : List Nat := [0, g.v, g.first, o, part]

/-- Offer one packet of a dump. Once one has found the outbound buffer full, those after it carry the incomplete flag and its block counts
as one that lost packets (R29); a packet that its ring has no room for is dropped by R239 alone. -/
def Half.offerDump (h : Half) (g : Integ) (part type k : Nat) (split sat : Bool) (index o : Nat) (payload : List Byte) :
    (Integ × Bool) × Half :=
  let inc := g.early || g.lossy || h.integMarked g
  let flags := b2n inc + b2n sat * 4 + b2n g.norm * 8 + b2n split * 16
  let hd : PHeader :=
    { type := type, sub := g.sub, prod := g.prod, flags := flags, start := g.first * h.fspec
      intlen := g.last + 1 - g.first, index := index, ochan := h.plazaChan g o }
  let r := h.offerPacket (g.flow k) (h.productPacket hd (g.flow k) payload) (dumpTag g o part) (h.leaveBy g)
  if r.1 = .outFull then (({ g with lossy := true }, true), r.2) else ((g, false), r.2)

/-- Offer a stream cut into packets of 8,192 bytes: per piece its first index, bytes and saturated mark. -/
def Half.offerStream (h : Half) (g : Integ) (part type k : Nat) (split : Bool) (o : Nat) (pieces : List (Nat × List Byte × Bool)) :
    (Integ × Bool) × Half :=
  pieces.foldl (fun acc x =>
    let r := acc.2.offerDump acc.1.1 part type k split x.2.2 x.1 o x.2.1
    ((r.1.1, acc.1.2 || r.1.2), r.2)) ((g, false), h)

/-- Blocks of an output channel that hold tiles. -/
def Plan.parts (p : Plan) : List Nat := (p.blocks.filter (fun b => !b.tiles.isEmpty)).map (·.part)

/-- The row records of output channel o (R186 to R188). -/
def Half.rowRecords (h : Half) (g : Integ) (p : Plan) (o : Nat) : List (List Byte) :=
  let inputs := (p.staged.flatMap (fun b => (List.range 64).map (fun i => b * 64 + i))).filter (h.isMember g.sub g.first)
  inputs.map (fun i =>
    let a := SMap.getD g.rows (o * 2 ^ 14 + i) ⟨0, 0, 0xFFFF⟩
    leBytes 2 i ++ leBytes 2 a.col ++ leBytes 4 (f32Bits (f32Round a.sum 1)) ++ leBytes 4 (f32Bits a.top) ++ leBytes 4 0)

/-- Dump the block (o, PART) of an integration from its records (R183), which stand in HBM or are fresh. (DEDUCED, log 23) -/
def Half.dumpBlock (h : Half) (g : Integ) (p : Plan) (pb : PBlock) (o : Nat) : Half :=
  if !h.flag LTA_CTL_RUN || pb.tiles.isEmpty || g.dumped.contains (o, pb.part) then h
  else
    let fresh := h.isFresh g.v o pb.part
    let r := pb.tiles.foldl (fun (acc : (List VRec × Integ × Bool) × Half) t =>
      let e := tileEdge pb.x32
      let none_ := fresh || !h.hasRecord g.sub g.first p pb.x32 t
      let m := if none_ then ((([], false) : List Byte × Bool), acc.2)
        else acc.2.memRead (h.l48Addr g g.sub p pb.x32 o t) (recSize pb.x32)
      let cells := if none_ || m.1.2 then List.replicate (e * e) ⟨0, 0, 0⟩ else l48Cells pb.x32 m.1.1
      let x := m.2.tileRecs acc.1.2.1 p pb.x32 o t cells
      ((acc.1.1 ++ x.1.1, x.1.2, acc.1.2.2 || m.1.2), x.2)) (([], g, false), h)
    let recs := r.1.1
    let h := if r.1.2.2 then r.2.log errLTA_ECC else r.2
    let split := 1 < p.parts.length
    let g := { r.1.2.1 with dumped := (o, pb.part) :: g.dumped }
    let piece (k : Nat) (f : VRec → List Byte) (xs : List VRec) : Nat × List Byte × Bool :=
      ((xs.head?.map (·.index)).getD 0, xs.flatMap f, k == 0 && xs.any (fun x => x.sat != 0))
    let a := h.offerStream g pb.part 1 0 split o ((chunks 1024 recs).map (piece 0 (·.vis)))
    let b := a.2.offerStream a.1.1 pb.part 2 1 split o ((chunks 2048 recs).map (piece 1 (·.count)))
    let g := b.1.1
    let all := p.parts.all (fun q => g.dumped.contains (o, q))
    let c := if all && g.rowstat then
        b.2.offerStream g pb.part 3 2 split o ((chunks 512 ((h.rowRecords g p o).zipIdx)).map
          (fun xs => ((xs.head?.map (·.2)).getD 0, xs.flatMap (·.1), false)))
      else ((g, false), b.2)
    let g := c.1.1
    let h := (c.2.setInteg g).setFresh g.v o pb.part true
    let h := if a.1.2 || b.1.2 || c.1.2 then h.ovr 3 g.last 1 else h
    if (List.range (h.subChans g.sub g.last)).all (fun o => p.parts.all (fun q => g.dumped.contains (o, q)))
    then h.bumpWord LTA_VIS_7 1 g.v else h

/-- A block of frame `j` reached the folder, or never will: those integrations that end with it are dumped (R183). -/
def Half.blockSeen (h : Half) (sub j o n : Nat) : Half :=
  let p := h.plan sub j
  match p.blocks[n]? with
  | none => h
  | some pb =>
    let h := h.modLta (fun x => { x with seen := (j, sub, o, n) :: x.seen.filter (· != (j, sub, o, n)) })
    h.fold (h.integsOf sub j) (fun h g =>
      if g.last = j then
        match h.lta.integs.find? (fun y => y.v == g.v && y.first == g.first) with
        | some g => h.dumpBlock g p pb o
        | none => h
      else h)

/-! ### Folding (R170, R171, R181, R182) -/

/-- What a fold into one product answers. -/
inductive FoldEnd where
  | ok | ecc | carry | count
  deriving DecidableEq, Repr

/-- Add a block's partials into the records of one integration, writing fresh records without reading them. -/
def Half.foldInto (h : Half) (g : Integ) (p : Plan) (pb : PBlock) (o : Nat) (ps : List Partial) : FoldEnd × Half :=
  let fresh := h.isFresh g.v o pb.part
  (ps.filter (fun x => h.hasRecord g.sub g.first p pb.x32 x.tile)).foldl (fun acc x =>
    match acc.1 with
    | .ok =>
      let a := acc.2.l48Addr g g.sub p pb.x32 o x.tile
      let m := if fresh then ((([], false) : List Byte × Bool), acc.2) else acc.2.memRead a (recSize pb.x32)
      if m.1.2 then (.ecc, m.2)
      else
        let old := if fresh then [] else l48Cells pb.x32 m.1.1
        let new := x.cells.zipIdx.map (fun (c, e) =>
          let y := old.getD e ⟨0, 0, 0⟩
          LCell.mk (y.re + c.re) (y.im + c.im) (y.n + c.n))
        if new.any (fun c => 2 ^ 32 ≤ c.n) then (.count, m.2)
        else if new.any (fun c => c.re < -(2 ^ 47) || 2 ^ 47 ≤ c.re || c.im < -(2 ^ 47) || 2 ^ 47 ≤ c.im) then (.carry, m.2)
        else (.ok, m.2.memWrite a (l48Bytes new))
    | e => (e, acc.2)) (.ok, h)

/-- Fold a block into each product of its subarray in turn; a failure rolls all of it back (R182). -/
def Half.foldAll (h : Half) (sub j o : Nat) (p : Plan) (pb : PBlock) (ps : List Partial) : Option (FoldEnd × Nat) × Half :=
  let r := (h.integsOf sub j).foldl (fun (acc : Option (FoldEnd × Nat) × Half) g =>
    match acc.1 with
    | some _ => acc
    | none =>
      let x := acc.2.foldInto g p pb o ps
      if x.1 = .ok then (none, x.2) else (some (x.1, g.v), x.2)) (none, h)
  match r.1 with
  | some _ => (r.1, { r.2 with hbm := h.hbm })
  | none => r

/-- Place a block of the queue in its program's blocks. -/
def Half.placeOf (h : Half) (b : Block) : Nat :=
  let n := (h.plan b.sub b.frame).blocks.length
  if n = 0 then 0 else b.blk % n

/-- The folder lets a block go: its slots and spill are released. -/
def Half.releaseBlock (h : Half) (b : Block) : Half :=
  h.modLta (fun x => { x with blocks := x.blocks.filter (fun y => y != b) })

/-- Drop a block that the folder has taken. (DEDUCED, log 22) -/
def Half.dropBlock (h : Half) (b : Block) (stage : Nat) : Half :=
  ((h.releaseBlock b).ovr stage b.frame 1).blockSeen b.sub b.frame b.o (h.placeOf b)

/-- The smallest count of a folded block, with its record and cell (Tables TAL-6, TAL-7). -/
def Half.noteMin (h : Half) (ps : List Partial) : Half :=
  let best := ps.foldl (fun (acc : Option (Nat × Nat × Nat)) x =>
    x.cells.zipIdx.foldl (fun acc (c, e) =>
      let k := (c.n, x.tile.trec, x.tile.q * 1024 + e)
      match acc with
      | none => some k
      | some y => if k.1 < y.1 || (k.1 == y.1 && (k.2.1 < y.2.1 || (k.2.1 == y.2.1 && k.2.2 < y.2.2))) then some k else acc) acc) none
  match best with
  | some (n, r, e) => ((h.putN TAL_MIN n).fset TAL_MIN_LOC_RECORD r).fset TAL_MIN_LOC_CELL e
  | none => h

/-- LTA_VIS word 6 of the integration that is current for its product (Table VIS-6). -/
def Half.showDone (h : Half) (g : Integ) : Half :=
  if h.lta.integs.any (fun y => y.v == g.v && g.first < y.first) then h else h.fset LTA_VIS_6_DONE g.frames g.v

/-- A block of output channel 0 has folded into an integration: its frame is done once every partition of the channel has. -/
def Half.noteFolded (h : Half) (g : Integ) (j part : Nat) (parts : List Nat) : Half :=
  match h.lta.integs.find? (fun y => y.v == g.v && y.first == g.first) with
  | none => h
  | some g =>
    let got := (j, part) :: g.got.filter (fun x => x.1 == j)
    let g := { g with got := got, frames := if parts.all (fun q => got.contains (j, q)) then g.frames + 1 else g.frames }
    (h.setInteg g).showDone g

/-- A block whose counts are good and whose cells passed the check goes into the products. -/
def Half.foldGood (h : Half) (b : Block) (p : Plan) (pb : PBlock) (ps : List Partial) : Half :=
  let r := h.foldAll b.sub b.frame b.o p pb ps
  match r.1 with
  | some (e, v) =>
    let h := r.2.bump LTA_FOLDED_ROLLBACK
    let h := match e with
      | .ecc => (h.setFresh v b.o pb.part true).log errLTA_ECC
      | .carry => h.log errLTA_OVF
      | _ => h.log errTAL_OVF
    h.dropBlock b 2
  | none =>
    let gs := h.integsOf b.sub b.frame
    let h := r.2.fold gs (fun h g => if pb.tiles.isEmpty then h else h.setFresh g.v b.o pb.part false)
    let h := (h.bump LTA_FOLDED_FOLDED).noteMin ps
    let h := if b.o = 0 && !pb.tiles.isEmpty then h.fold gs (fun h g => h.noteFolded g b.frame pb.part p.parts) else h
    (h.releaseBlock b).blockSeen b.sub b.frame b.o (h.placeOf b)

/-- Take a closed block: suspect ones go without folding (R153); then the spill, the frame check, the fold. -/
def Half.takeBlock (h : Half) (b : Block) : Half :=
  let p := h.plan b.sub b.frame
  match p.blocks[h.placeOf b]? with
  | none => h.releaseBlock b
  | some pb =>
    let recs := pb.tiles.map (·.trec)
    if b.bad || (List.range b.count).any (fun n => h.slotSuspect (b.slot + n)) || recs.any h.recSuspect then
      (h.arcErr errCY_SLOT_SUSPECT).dropBlock b 1
    else
      let r := h.partials b pb
      let h := r.2
      if r.1.2 || b.spillLost then ((h.bump TAL_STAT_SPILL_ECC).log errTAL_SPILL_ECC).dropBlock b 2
      else
        let ok := r.1.1.all (fun x => x.cells.all (h.cellOk p.fg))
        let h := if ok then h else h.bump TAL_STAT_INVARIANT
        if !ok && h.flag TAL_CTL_CHECK_EN then (h.log errTAL_INVARIANT).dropBlock b 2
        else h.foldGood b p pb r.1.1

/-- The folder takes the next closed block, meeting the given words in error in the Courtyard (R145). -/
def Half.foldNext (h : Half) (ecc : List (Nat × Bool)) : Half :=
  if h.inHold || !h.flag LTA_CTL_RUN then h
  else
    match h.lta.blocks with
    | [] => h
    | b :: _ => (h.cyErrors ecc).takeBlock b

/-- R28, R182: blocks whose tick j + Δ + 2 has come are rolled back and dropped. (DEDUCED, log 22) -/
def Half.folderOverrun (h : Half) : Half :=
  let late := h.lta.blocks.filter (fun b => b.frame + h.delta + 2 ≤ h.frame)
  if late.isEmpty then h else (h.fold late (fun h b => (h.bump LTA_FOLDED_ROLLBACK).dropBlock b 2)).frameOverrun

/-- Clearing LTA_CTL.RUN (R193): every block not yet folded is dropped, every fresh bit set, no packet follows. -/
def Half.ltaStop (h : Half) : Half :=
  let bs := h.lta.blocks
  let h := h.fset LTA_CTL_RUN 0
  let h := h.fold bs (fun h b => h.ovr 2 b.frame 1)
  let h := h.fold (List.range 32) (fun h v => h.fset LTA_VIS_6_DONE 0 v)
  h.modLta (fun x => { x with blocks := [], stale := [], integs := [] })

/-- R29: a dump whose bound of R18 has passed still has packets that have not left; OUTPUT_LATE is told once for it. A packet has left once it stands in a
lane FIFO. (DEDUCED, log 22) -/
def Half.outputLate (h : Half) : Half :=
  if h.trw.outDue.any (fun e => e.2 ≤ h.frame) then
    ((({ h with trw := { h.trw with outDue := h.trw.outDue.filter (fun e => h.frame < e.2) } } : Half)).raiseOnce 458).log errOUTPUT_LATE
  else h

def execOutputLate (i : HalfId) (s : State) : Host.Outcome State Fault Refusal :=
  done (s.onMain i Half.outputLate)

/-! ### The tick -/

/-- End an integration early with the frame before `f` (R179): what that frame has left of it is dumped. -/
def Half.endEarly (h : Half) (g : Integ) (f : Nat) : Half :=
  let g' := { g with last := f - 1, early := true }
  let h := h.setInteg g'
  h.fold (h.lta.seen.filter (fun x => x.1 == f - 1 && x.2.1 == g.sub)) (fun h x => h.blockSeen g.sub (f - 1) x.2.2.1 x.2.2.2)

/-- Integrations at the tick at which the Arcade is to start frame `f` (R38, R178, R179). -/
def Half.visTick (h : Half) (f : Nat) : Half :=
  h.fold (List.range 32) (fun h v =>
    let words := h.visWords v f
    let w0 := words.getD 0 0
    let sub := bits w0 27 24
    let plan := (h.plan sub f).staged ++ (h.plan sub f).parts ++ (h.membersAt sub f).getD []
    let fresh (h : Half) : Half :=
      if bit w0 31 then
        (h.modLta (fun x => { x with integs := x.integs ++
          [⟨v, f, finalFrame (bit w0 10) (max 1 (bits (words.getD 1 0) 23 0)) f, words, plan, false, [], false, [], [], 0⟩] })).fset LTA_VIS_6_DONE 0 v
      else h
    match h.lta.integs.find? (fun g => g.v == v && g.first < f && f ≤ g.last) with
    | some g => if bit w0 31 && g.words == words && g.plan == plan then h else fresh (h.endEarly g f)
    | none => if h.lta.integs.any (fun g => g.v == v && g.first == f) then h else fresh h)

/-- Blocks of final frame `j` that no rule has dropped and the folder does not hold are dumped from their records (R183). -/
def Half.dumpRest (h : Half) (j : Nat) : Half :=
  h.fold (h.allBlocks j) (fun h x =>
    let sub := x.1
    let o := x.2.1
    let n := x.2.2.1
    if h.lta.seen.contains (j, sub, o, n) || h.lta.blocks.any (fun b => b.frame == j && b.sub == sub && b.o == o && h.placeOf b == n) then h
    else h.blockSeen sub j o n)

/-- The folder at tick k. -/
def Half.ltaTick (h : Half) : Half :=
  let k := h.frame
  if !h.flag LTA_CTL_RUN then h
  else
    let h := if h.delta ≤ k then h.visTick (k - h.delta) else h
    if k < h.delta + 2 then h
    else
      let j := k - h.delta - 2
      let h := h.dumpRest j
      h.modLta (fun x => { x with
        seen := x.seen.filter (fun y => j < y.1)
        integs := x.integs.filter (fun g => j ≤ g.last)
        markInc := x.markInc.filter (fun f => x.integs.any (fun g => g.first ≤ f) || j ≤ f) })

end Sys2Proof.Machine
end

