-- ==== Sys2Proof/Machine/Beams.lean ====
section
/-! DEFINITION. Beamforming (10_beams.md): beam tables and their images, weights, the post-processor, voltage and detected
beams. -/

namespace Sys2Proof.Machine

def Half.modBmf (h : Half) (f : Bmf → Bmf) : Half := { h with bmf := f h.bmf }

/-! ### Beam tables (R195 to R199) -/

/-- HBM address of image `img` of a subarray's table. -/
def Half.tabBase (h : Half) (sub img : Nat) : Nat := h.getN (if img = 0 then BMF_TAB_0 else BMF_TAB_1) sub * 4096

def Half.tabCur (h : Half) (sub : Nat) : Nat := h.fget BMF_TAB_2_CUR sub

/-- Bytes of a subarray's table. -/
def Half.tabSize (h : Half) (sub : Nat) : Nat := h.fget BMF_TAB_2_BEAMS sub * (64 * h.fget BMF_TAB_3_KS sub) * 24

/-- Word index in a subarray's table of word `w` of entry (beam, position). -/
def Half.tabIndex (h : Half) (sub beam pos w : Nat) : Nat := (beam * (64 * h.fget BMF_TAB_3_KS sub) + pos) * 6 + w

/-- An entry word as stored: a gain of −32,768 becomes −32,767 (Table BMF-1). -/
def storedEntry (index : Nat) (w : Word) : Word := if index % 6 = 2 then storedGain w else w

/-- Write a word of a subarray's shadow image (R196): ignored while COPY is 1. -/
def Half.putTable (h : Half) (sub index : Nat) (w : Word) : Half :=
  if h.flag BMF_TAB_2_COPY sub then h.log errBMF_TAB_BUSY
  else
    let h := h.memWrite (h.tabBase sub (1 - h.tabCur sub) + 4 * index) (leBytes 4 (storedEntry index w).toNat)
    h.fset BMF_TAB_2_DIRTY 1 sub

/-- The same for a write that completes inside the hand-over window: it waits for the tick after (R31). -/
def Half.putTableAt (h : Half) (sub index : Nat) (w : Word) (late : Bool) : Half :=
  if !late then h.putTable sub index w
  else if h.flag BMF_TAB_2_COPY sub then h.log errBMF_TAB_BUSY
  else (h.modBmf (fun x => { x with tabLate := x.tabLate ++ [(sub, index, w)] })).noteShadowLate

/-- The beam table's word that BMF_TADDR points at, as a read of the shadow returns it. -/
def Half.readTable (h : Half) : Word :=
  let sub := h.fget BMF_TADDR_SUB
  let n := h.tabIndex sub (h.fget BMF_TADDR_BEAM) (h.fget BMF_TADDR_POS) (h.fget BMF_TADDR_WORD)
  match (h.bmf.tabLate.filter (fun x => x.1 == sub && x.2.1 == n)).getLast? with
  | some x => storedEntry n x.2.2
  | none => BitVec.ofNat 32 (leNat (memBytes h.hbm.mem (h.tabBase sub (1 - h.tabCur sub) + 4 * n) 4))

/-- R196, Table BMF-5: a beam-entry word; WORD advances, after 5 POS does. -/
def Half.tdataWrite (h : Half) (d : Word) (late : Bool) : Half :=
  let sub := h.fget BMF_TADDR_SUB
  let pos := h.fget BMF_TADDR_POS
  let w := h.fget BMF_TADDR_WORD
  let busy := h.flag BMF_TAB_2_COPY sub
  let h := h.putTableAt sub (h.tabIndex sub (h.fget BMF_TADDR_BEAM) pos w) d late
  if busy then h
  else if 5 ≤ w then (h.fset BMF_TADDR_WORD 0).fset BMF_TADDR_POS ((pos + 1) % 2 ^ 13)
  else h.fset BMF_TADDR_WORD (w + 1)

def execBmfTdataWrite (i : HalfId) (d : Word) (inWindow : Bool) (s : State) : Host.Outcome State Fault Refusal :=
  done (s.onMain i (fun h => h.tdataWrite d inWindow))

/-- Writes that waited inside the window go to the shadow once no copy runs. -/
def Half.lateTables (h : Half) : Half :=
  let go := h.bmf.tabLate.filter (fun x => !h.flag BMF_TAB_2_COPY x.1)
  let h := h.modBmf (fun x => { x with tabLate := x.tabLate.filter (fun y => !go.contains y) })
  h.fold go (fun h x => h.putTable x.1 x.2.1 x.2.2)

/-- Hand-over of the beam tables at a tick without HOLD (R196): the images change roles and the copy starts; a copy that has not ended holds
the table's hand-over, and SHADOW_HELD is set. -/
def Half.tablesTick (h : Half) : Half :=
  let h := h.fold (List.range 16) (fun h s =>
    if h.flag BMF_TAB_2_COPY s then (h.fset DEV_SHDW_CTL_SHADOW_HELD 1).raise 453
    else if !h.flag BMF_TAB_2_DIRTY s then h
    else
      let h := ((h.fset BMF_TAB_2_CUR (1 - h.tabCur s) s).fset BMF_TAB_2_DIRTY 0 s).fset BMF_TAB_2_COPY 1 s
      h.modArc (fun x => { x with tabGen := SMap.modify x.tabGen s 0 (· + 1) }))
  h.lateTables

/-- R196: the copy has written the current image into the shadow. -/
def execBeamTableCopyEnd (i : HalfId) (sub : Nat) (s : State) : Host.Outcome State Fault Refusal :=
  done (s.onMain i (fun h =>
    if sub < 16 && h.flag BMF_TAB_2_COPY sub then
      let cur := h.tabCur sub
      let r := h.memRead (h.tabBase sub cur) (h.tabSize sub)
      let h := r.2.memWrite (h.tabBase sub (1 - cur)) r.1.1
      (h.fset BMF_TAB_2_COPY 0 sub).lateTables
    else h))

/-- The region holds the current image of the subarray's table, without an entry to reload (R198, R199). -/
def Half.tableIn (h : Half) (sub : Nat) : Bool :=
  h.arc.tabIn == some (sub, SMap.getD h.arc.tabGen sub 0)

/-- R198: the loader copies the current image into the Courtyard, entries with an uncorrectable word as gain 0+0 (R199). -/
def Half.loadTable (h : Half) (sub : Nat) : Half :=
  let n := h.tabSize sub / 24
  let r := (List.range n).foldl (fun (acc : List Word × Half) e =>
    let m := acc.2.memRead (h.tabBase sub (h.tabCur sub) + 24 * e) 24
    let ws := toWords m.1.1
    if m.1.2 then (acc.1 ++ ws.set 2 0, (m.2.bumpWord BMF_CNT_3).log errBMF_TAB_ECC) else (acc.1 ++ ws, m.2)) ([], h)
  let h := r.2.cyWrite h.tableBase (r.1.take (h.fget CY_TABLE_SIZE * slotWords))
  h.modArc (fun x => { x with tabIn := some (sub, SMap.getD x.tabGen sub 0), tabBad := [], tabStale := false })

def execBeamTableLoad (i : HalfId) (sub : Nat) (s : State) : Host.Outcome State Fault Refusal :=
  done (s.onMain i (fun h => if sub < 16 && !h.inHold && !h.tableIn sub then h.loadTable sub else h))

/-! ### Weights and beam sums (R200, R201) -/

/-- The weight of an entry at half-local fine channel `c` (R200). -/
def weight (phase0 prate gains c : Nat) : Int × Int :=
  let theta := wrapBits 32 ((phase0 : Int) + c * sext 32 prate)
  let a := (theta + 2 ^ 15) / 2 ^ 16 % 2 ^ 16 / 16
  let cs := (cosSinInt 32767 a 4096).1
  let sn := (cosSinInt 32767 a 4096).2
  let gre := sext 16 (bits gains 15 0)
  let gim := sext 16 (bits gains 31 16)
  (clamp (-127) 127 (rneShr (gre * cs + gim * sn) 23), clamp (-127) 127 (rneShr (gim * cs - gre * sn) 23))

/-- A beam entry in the Courtyard: whether its gain is other than 0+0, and its weight. -/
def Half.entryWeight (h : Half) (e c : Nat) : Bool × (Int × Int) :=
  let a := h.tableBase + 6 * e
  let gains := h.cyWord (a + 2)
  if gains = 0 || h.arc.tabBad.contains e then (false, (0, 0)) else (true, weight (h.cyWord a) (h.cyWord (a + 1)) gains c)

/-- A component as int24; what one outside it leaves is open. (DEDUCED, log 20) -/
def handPart (x : Int) : Nat := if -(2 ^ 23) ≤ x ∧ x < 2 ^ 23 then wrapBits 24 x else (Config.handOverflow x).toNat

/-- A hand-off word (Table BMF-2), low half then high half. -/
def handWord (re im : Int) (vcnt : Nat) : List Nat :=
  let n := handPart re + handPart im * 2 ^ 24 + vcnt % 2 ^ 13 * 2 ^ 48
  [n % 2 ^ 32, n / 2 ^ 32]

/-! ### Scale table (R206) -/

def Half.putScale (h : Half) (key v : Nat) (late : Bool) : Half :=
  if late then (h.modBmf (fun x => { x with scaleLate := SMap.insert x.scaleLate key v })).noteShadowLate
  else h.modBmf (fun x => { x with scaleShadow := SMap.insert x.scaleShadow key v })

/-- A scale value through the window; the address advances over both fields (Table BMF-7). -/
def Half.sdataWrite (h : Half) (d : Word) (late : Bool) : Half :=
  let a := h.getN BMF_SADDR % 2 ^ 19
  (h.putScale a (d.toNat % 2 ^ 16) late).putN BMF_SADDR ((a + 1) % 2 ^ 19)

/-- The scale shadow that a read returns. -/
def Half.readScale (h : Half) : Nat :=
  let a := h.getN BMF_SADDR % 2 ^ 19
  match SMap.find? h.bmf.scaleLate a with
  | some v => v
  | none => SMap.getD h.bmf.scaleShadow a (SMap.getD h.bmf.scale a 0x0100)

def execBmfSdataWrite (i : HalfId) (d : Word) (inWindow : Bool) (s : State) : Host.Outcome State Fault Refusal :=
  done (s.onMain i (fun h => h.sdataWrite d inWindow))

/-- The scale table hands over whole. -/
def Half.scaleTick (h : Half) : Half :=
  h.modBmf (fun x => { x with
    scale := x.scaleShadow.foldl (fun m e => SMap.insert m e.1 e.2) x.scale
    scaleShadow := x.scaleLate, scaleLate := [] })

/-! ### Products -/

/-- Words 0 to 4 of a beam product's entry in effect for Arcade frame `j`. -/
def Half.beamWords (h : Half) (v j : Nat) : List Nat :=
  [BMF_PROD_0, BMF_PROD_1, BMF_PROD_2, BMF_PROD_3, BMF_PROD_4].map (fun r => (h.histGet r v (j + h.delta)).toNat)

/-- A beam product's settings. -/
structure BProd where
  v : Nat
  sub : Nat
  prod : Nat
  detected : Bool
  full : Bool
  vfmt8 : Bool
  shift : Nat
  nb : Nat
  first : Nat
  minValid : Nat
  ns : Nat
  nc : Nat
  sbase : Nat
  flow : Nat
  deriving DecidableEq, Repr

def bprodOf (v : Nat) (w : List Nat) : BProd :=
  let w0 := w.getD 0 0
  { v := v, sub := bits w0 27 24, prod := bits w0 23 16, detected := bit w0 8, full := bit w0 7, vfmt8 := bit w0 6
    shift := bits w0 4 0, nb := bits (w.getD 1 0) 26 16, first := bits (w.getD 1 0) 9 0
    minValid := bits (w.getD 2 0) 28 16, ns := 2 ^ bits (w.getD 2 0) 12 8, nc := 2 ^ bits (w.getD 2 0) 3 0
    sbase := bits (w.getD 3 0) 9 0, flow := bits (w.getD 4 0) 19 0 }

/-- Beam products of a subarray that run on frame `j`. -/
def Half.beamProds (h : Half) (sub j : Nat) : List BProd :=
  (List.range 32).filterMap (fun v =>
    let w := h.beamWords v j
    let p := bprodOf v w
    if bit (w.getD 0 0) 31 && p.sub == sub then some p else none)

/-- NS_r (R209). -/
def BProd.nsr (p : BProd) : Nat := min p.ns (2 ^ 20 / p.nc)

/-- A beam sample as the post-processor takes it: sums, valid count, whether dropped or late. -/
structure BSample where
  re : Int
  im : Int
  v : Nat
  dropped : Bool
  deriving DecidableEq, Repr

/-- Emit a beam packet (R214); a product that loses packets to a full outbound buffer counts once in a tick interval (R29). -/
def Half.offerBeam (h : Half) (p : BProd) (hd : PHeader) (payload : List Byte) : Half :=
  let r := h.offerPacket p.flow (h.productPacket hd p.flow payload) [1, p.v] 0
  if r.1 != .outFull || r.2.once.contains (4096 + p.v) then r.2
  else { r.2.ovr 3 (r.2.frame - r.2.delta) 1 with once := (4096 + p.v) :: r.2.once }

/-! ### Voltage beams (R206, R207) -/

/-- e(c_h) (R206). -/
def Half.scaleEntry (h : Half) (c : Nat) : Nat := if 512 ≤ h.ownChans then c * 512 / h.ownChans else c

/-- The code written for a sample: bytes, components clamped. -/
def Half.voltCode (h : Half) (p : BProd) (beam c : Nat) (x : BSample) : Nat × Nat :=
  if x.dropped || x.v < p.minValid then (if p.vfmt8 then 0x8080 else 0x88, 0)
  else
    let scl := SMap.getD h.bmf.scale ((p.sbase + beam - p.first) * 512 + h.scaleEntry c) 0x0100
    let a := rneShr (x.re * scl) (16 + p.shift)
    let b := rneShr (x.im * scl) (16 + p.shift)
    let top : Int := if p.vfmt8 then 127 else 7
    let a' := clamp (-top) top a
    let b' := clamp (-top) top b
    (encodeCode p.vfmt8 (a', b'), b2n (a != a') + b2n (b != b'))

/-- Samples in a voltage packet (R207). -/
def Half.packetLen (h : Half) (p : BProd) : Nat := min h.fspec (8192 / (if p.vfmt8 then 2 else 1))

/-- Take a sample into its voltage packet; a whole packet goes out. -/
def Half.takeVoltage (h : Half) (p : BProd) (beam c sigma : Nat) (x : BSample) : Half :=
  let b := if p.vfmt8 then 2 else 1
  let sp := h.packetLen p
  let n := sigma / sp
  let code := h.voltCode p beam c x
  let h := if !x.dropped && x.v < p.minValid then h.bumpWord BMF_CNT_1 else h
  let h := if code.2 = 0 then h else (h.bumpWord BMF_CNT_0 code.2).log errBMF_VSAT
  let same (k : VPacket) : Bool := k.v == p.v && k.beam == beam && k.c == c && k.p == n
  let k := (h.bmf.vpkts.find? same).getD ⟨p.v, beam, c, n, 0, [], false, false⟩
  let k := { k with
    taken := k.taken + 1, bytes := SMap.putRun 0 k.bytes (sigma % sp * b) (leBytes b code.1)
    incomplete := k.incomplete || x.dropped, sat := k.sat || code.2 != 0 }
  let rest := h.bmf.vpkts.filter (fun y => !same y)
  if k.taken < sp then h.modBmf (fun x => { x with vpkts := rest ++ [k] })
  else
    let h := h.modBmf (fun x => { x with vpkts := rest })
    let inc := k.incomplete || h.lta.markInc.contains (sigma / h.fspec)
    let hd : PHeader :=
      { type := 4, sub := p.sub, prod := p.prod, flags := b2n inc + b2n k.sat * 4, start := n * sp, intlen := 0
        index := beam, ochan := h.firstChan + c }
    let h := h.bumpWord BMF_PROD_5 1 p.v
    let h := if inc then h.bumpWord BMF_PROD_6 1 p.v else h
    h.offerBeam p hd ((List.range (sp * b)).map (fun a => SMap.getD k.bytes a 0))

/-! ### Detected beams (R208 to R213) -/

/-- One step of the compensated summation (R210), the term in units of 2^-149. -/
def KSum.add (k : KSum) (x : Int) : KSum :=
  let y := f32Add x (-k.e)
  let t := f32Add k.s y
  ⟨t, f32Add (f32Add t (-k.s)) (-y)⟩

/-- A term as binary32. -/
def f32OfInt (n : Int) : Int := f32Round (n * 2 ^ 149) 1

/-- The terms of R208, of one beam or of a pair. -/
def stokesI (x : BSample) : List Int := [f32OfInt (x.re ^ 2 + x.im ^ 2)]

def stokesFull (x y : BSample) : List Int :=
  let xx := x.re ^ 2 + x.im ^ 2
  let yy := y.re ^ 2 + y.im ^ 2
  [xx + yy, xx - yy, 2 * (x.re * y.re + x.im * y.im), 2 * (x.re * y.im - x.im * y.re)].map f32OfInt

/-- The bytes of a record (Table BMF-3). -/
def DRecord.bytes (p : BProd) (cont : Bool) (r : DRecord) : List Byte :=
  let vals := r.sums.flatMap (fun k => leBytes 4 (f32Bits k.s))
  let flags := b2n cont + b2n r.incomplete * 2
  vals ++ leBytes 4 r.nt ++ leBytes 2 (if r.nt = 0 then 0 else r.vmin) ++ leBytes 1 flags ++ leBytes 1 0
    ++ leBytes 2 r.cb ++ leBytes 2 r.tb ++ (if p.full then leBytes 4 0 else [])

/-- Send a packet of detected records. -/
def Half.sendDetected (h : Half) (p : BProd) (k : DPacket) : Half :=
  let hd : PHeader :=
    { type := 5, sub := p.sub, prod := p.prod, flags := b2n k.incomplete + b2n k.cont * 2, start := k.tb * p.nsr, intlen := p.nsr
      index := k.beam, ochan := h.firstChan / p.nc + k.cb }
  h.offerBeam p hd k.bytes

/-- A complete record joins its beam's stream of the frame; a full packet goes out (R212). -/
def Half.emitRecord (h : Half) (p : BProd) (frame : Nat) (r : DRecord) : Half :=
  let r := { r with incomplete := r.incomplete || h.lta.markInc.any (fun f => r.tb * p.nsr / h.fspec ≤ f && f ≤ ((r.tb + 1) * p.nsr - 1) / h.fspec) }
  let cont := p.nsr < p.ns && (r.tb + 1) % (p.ns / p.nsr) != 0
  let same (k : DPacket) : Bool := k.v == p.v && k.beam == r.beam && k.frame == frame
  let k : DPacket := (h.bmf.dpkts.find? same).getD ⟨p.v, r.beam, frame, [], r.cb, r.tb, false, false⟩
  let k : DPacket := { k with bytes := k.bytes ++ DRecord.bytes p cont r, incomplete := k.incomplete || r.incomplete, cont := k.cont || cont }
  let rest := h.bmf.dpkts.filter (fun y => !same y)
  let h := h.bumpWord BMF_PROD_5 1 p.v
  let h := if r.incomplete then h.bumpWord BMF_PROD_6 1 p.v else h
  if 8192 ≤ k.bytes.length then (h.modBmf (fun x => { x with dpkts := rest })).sendDetected p k
  else h.modBmf (fun x => { x with dpkts := rest ++ [k] })

/-- First frame of the product's run that holds frame `j` (R212). -/
def Half.beamSince (h : Half) (v j : Nat) : Nat :=
  (((SMap.getD h.bmf.runs v []).find? (fun r => r.2 ≤ j)).map (·.2)).getD 0

/-- Samples of a record that lie before the product's run (R212). -/
def Half.missedBefore (h : Half) (p : BProd) (j tb : Nat) : Nat :=
  let start := h.beamSince p.v j * h.fspec
  p.nc * min p.nsr (start - tb * p.nsr)

/-- Take a sample (or a pair) into its open record, answering the record when that completes it. -/
def Half.takeDetected (h : Half) (p : BProd) (beam c sigma : Nat) (xs : List BSample) : Option DRecord × Half :=
  let cb := c / p.nc
  let tb := sigma / p.nsr
  let since := h.beamSince p.v (sigma / h.fspec)
  let same (r : DRecord) : Bool := r.v == p.v && r.since == since && r.beam == beam && r.cb == cb && r.tb == tb
  let missed := h.missedBefore p (sigma / h.fspec) tb
  let r := (h.bmf.recs.find? same).getD
    ⟨p.v, since, beam, cb, tb, missed, List.replicate (if p.full then 4 else 1) ⟨0, 0⟩, 0, 0xFFFF, missed != 0⟩
  let dropped := xs.any (·.dropped)
  let out := (xs.filter (fun x => !x.dropped && x.v < p.minValid)).length
  let h := if out = 0 then h else h.bumpWord BMF_CNT_1 out
  let r := { r with taken := r.taken + 1, incomplete := r.incomplete || dropped }
  let r := if dropped || out != 0 then r
    else
      let terms := match xs with | [x] => stokesI x | x :: y :: _ => stokesFull x y | [] => []
      { r with
        sums := (r.sums.zip terms).map (fun (k, t) => k.add t), nt := r.nt + 1
        vmin := xs.foldl (fun m x => min m x.v) r.vmin }
  let rest := h.bmf.recs.filter (fun y => !same y)
  if p.nc * p.nsr ≤ r.taken then (some r, h.modBmf (fun x => { x with recs := rest }))
  else (none, h.modBmf (fun x => { x with recs := rest ++ [r] }))

/-! ### The post-processor (R204, R205) -/

/-- Key of a window among those of a frame's subarray. -/
def windowKey (c t grp shape : Nat) : Nat := ((c * 2 ^ 14 + t) * 64 + grp) * 4 + shape

/-- Beams per group and spectra per window of a shape. -/
def beamsPer (shape : Nat) : Nat := if shape = 2 then 64 else 16
def windowLen (shape : Nat) : Nat := if shape = 2 then 64 else 256

/-- Order of the records of one emission (R212). -/
def recordOrder (a b : DRecord) : Bool :=
  if a.beam != b.beam then a.beam < b.beam else if a.cb != b.cb then a.cb < b.cb else a.tb ≤ b.tb

/-- Every product reading a window's samples takes them, then the records it completed are emitted. -/
def Half.processWindow (h : Half) (sub frame c t grp shape : Nat) (smp : Nat → Nat → BSample) : Half :=
  let nb := beamsPer shape
  let wn := windowLen shape
  let h := h.modBmf (fun x => { x with seen := (frame, sub, windowKey c t grp shape) :: x.seen })
  h.fold (h.beamProds sub frame) (fun h p =>
    let beams := (List.range nb).filter (fun b => p.first ≤ grp * nb + b && grp * nb + b < p.first + p.nb)
    if !p.detected then
      h.fold beams (fun h b => h.fold (List.range wn) (fun h n =>
        h.takeVoltage p (grp * nb + b) c (frame * h.fspec + t + n) (smp b n)))
    else
      let units := if p.full then beams.filter (fun b => b % 2 = 0) else beams
      let r := units.foldl (fun (acc : List DRecord × Half) b => (List.range wn).foldl (fun acc n =>
        let x := acc.2.takeDetected p (grp * nb + b) c (frame * acc.2.fspec + t + n)
          (if p.full then [smp b n, smp (b + 1) n] else [smp b n])
        ((match x.1 with | some r => acc.1 ++ [r] | none => acc.1), x.2)) acc) ([], h)
      r.2.fold (r.1.mergeSort recordOrder) (fun h d => h.emitRecord p frame d))

/-- Windows of a subarray's frame: every BT op's group over every fine channel it owns. -/
def Half.windowsOf (h : Half) (sub j : Nat) : List (Nat × Nat × Nat × Nat) :=
  let p := h.plan sub j
  let top := h.subChans sub j * h.subG sub j
  (List.range top).flatMap (fun c => p.beams.flatMap (fun b =>
    (List.range (h.fspec / windowLen b.1)).map (fun w => (c, w * windowLen b.1, b.2, b.1))))

/-- A product's frame is over: its partial packets go out, ascending (R212). -/
def Half.frameDone (h : Half) (p : BProd) (j : Nat) : Half :=
  let ks := (h.bmf.dpkts.filter (fun k => k.v == p.v && k.frame == j)).mergeSort (fun a b => a.beam ≤ b.beam)
  let h := h.modBmf (fun x => { x with dpkts := x.dpkts.filter (fun k => !(k.v == p.v && k.frame == j)) })
  h.fold ks (fun h k => h.sendDetected p k)

/-- Every window of a subarray's frame is accounted. -/
def Half.frameSeen (h : Half) (sub j : Nat) : Bool :=
  (h.windowsOf sub j).length ≤ (h.bmf.seen.filter (fun x => x.1 == j && x.2.1 == sub)).length

/-- The product's run ends with frame `j`, as far as tick j + 1 + Δ has told. -/
def Half.runEnds (h : Half) (v j : Nat) : Bool := j + 1 + h.delta ≤ h.frame && h.beamWords v (j + 1) != h.beamWords v j

/-- Records of a product that frame `j`, taken whole, leaves open though their last spectrum has come (samples that a stop discarded are
missing of them), or that its run ends with: emitted with the incomplete flag (R212). (DEDUCED, log 23) -/
def Half.endRecords (h : Half) (p : BProd) (j : Nat) : Half :=
  let ended := h.runEnds p.v j
  let isOver (r : DRecord) : Bool := r.v == p.v && r.since == h.beamSince p.v j && (ended || (r.tb + 1) * p.nsr ≤ (j + 1) * h.fspec)
  let rs := (h.bmf.recs.filter isOver).mergeSort recordOrder
  let h := h.modBmf (fun x => { x with recs := x.recs.filter (fun r => !isOver r) })
  (h.fold rs (fun h r => h.emitRecord p j { r with incomplete := true })).frameDone p j

/-- All windows of the subarray's frame are accounted: what its products leave open goes out. -/
def Half.checkFrame (h : Half) (sub j : Nat) : Half :=
  if !h.frameSeen sub j then h else h.fold (h.beamProds sub j) (fun h p => h.endRecords p j)

/-- The sample at place (β′, n) of a hand-off slot (R203). -/
def Half.handSample (h : Half) (x : HandOff) (b n : Nat) : BSample :=
  let a := h.handBase + x.idx * slotWords + 2 * (b * windowLen x.shape + n)
  let w := h.cyWord a + h.cyWord (a + 1) * 2 ^ 32
  ⟨sext 24 (bits w 23 0), sext 24 (bits w 47 24), bits w 60 48, false⟩

def droppedSample : BSample := ⟨0, 0, 0, true⟩

/-- R204: the samples of the oldest hand-off slot go to every product that reads them, and the slot is freed. -/
def Half.processHand (h : Half) : Half :=
  match h.arc.hand with
  | [] => h
  | x :: rest =>
    let h' := h.processWindow x.sub x.frame x.c x.t x.grp x.shape (h.handSample x)
    (h'.modArc (fun a => { a with hand := rest })).checkFrame x.sub x.frame

/-- The post-processor takes the next slot, meeting the given words in error (R145). -/
def Half.takeHand (h : Half) (ecc : List (Nat × Bool)) : Half :=
  if h.inHold || !h.flag BMF_CTL_RUN then h else (h.cyErrors ecc).processHand

/-- Windows of frame `j` that are neither accounted nor in the hand-off buffer are taken as dropped (R205). -/
def Half.beamFill (h : Half) (j : Nat) : Half :=
  if !h.flag BMF_CTL_RUN then h
  else h.fold (h.subsOf j) (fun h sub =>
    if (h.beamProds sub j).isEmpty then h
    else
      let waiting := (h.arc.hand.filter (fun x => x.frame == j && x.sub == sub)).map (fun x => windowKey x.c x.t x.grp x.shape)
      let seen := (h.bmf.seen.filter (fun x => x.1 == j && x.2.1 == sub)).map (·.2.2)
      let todo := (h.windowsOf sub j).filter (fun w =>
        let k := windowKey w.1 w.2.1 w.2.2.1 w.2.2.2
        !waiting.contains k && !seen.contains k)
      if todo.isEmpty then h
      else (h.fold todo (fun h w => h.processWindow sub j w.1 w.2.1 w.2.2.1 w.2.2.2 (fun _ _ => droppedSample))).checkFrame sub j)

/-- Discard hand-off slots, as late (R205). -/
def Half.discardHand (h : Half) (late : HandOff → Bool) : Half :=
  let xs := h.arc.hand.filter late
  if xs.isEmpty then h
  else
    let h := h.modArc (fun a => { a with hand := a.hand.filter (fun x => !late x) })
    (h.bumpWord BMF_CNT_2 (4096 * xs.length)).log errBMF_LATE

/-- Open records of products whose run ended with frame `j` are emitted with the incomplete flag (R212). -/
def Half.flushEnded (h : Half) (j : Nat) : Half :=
  h.fold (List.range 32) (fun h v =>
    let w := h.beamWords v j
    if !h.flag BMF_CTL_RUN || !bit (w.getD 0 0) 31 || !h.runEnds v j then h else h.endRecords (bprodOf v w) j)

/-- R205: what frame j = k − Δ − 2 or an earlier one still has in the buffer is discarded. (DEDUCED, log 21) -/
def Half.beamLate (h : Half) : Half :=
  if h.frame < h.delta + 2 then h
  else
    let j := h.frame - h.delta - 2
    ((h.discardHand (fun x => x.frame ≤ j)).beamFill j).flushEnded j

/-- Clearing BMF_CTL.RUN (R215). -/
def Half.bmfStop (h : Half) : Half :=
  let h := (h.discardHand (fun _ => true)).fset BMF_CTL_RUN 0
  h.modBmf (fun x => { x with vpkts := [], recs := [], dpkts := [] })

/-- Runs of the beam products at the tick at which the Arcade is to start frame `f`: a product that changed or stopped
leaves its open records incomplete (R212, R43). -/
def Half.beamRunsTick (h : Half) (f : Nat) : Half :=
  h.fold (List.range 32) (fun h v =>
    let w := h.beamWords v f
    let rs := SMap.getD h.bmf.runs v []
    if (rs.head?.map (·.1)) == some w then h
    else if rs.isEmpty && !bit (w.getD 0 0) 31 then h
    else h.modBmf (fun x => { x with runs := SMap.insert x.runs v (((w, f) :: rs).take 3) }))

/-- Frames that the Arcade abandoned, once their tick j + Δ + 1 has come: what they lack is taken as dropped (R205). -/
def Half.fillAbandoned (h : Half) : Half :=
  let due := h.arc.unfilled.filter (fun j => j + h.delta + 1 ≤ h.frame)
  (h.modArc (fun a => { a with unfilled := a.unfilled.filter (fun j => !due.contains j) })).fold due (fun h j => h.beamFill j)

/-- Runs that end with frame `j`, where that frame is accounted already. -/
def Half.flushSeen (h : Half) (j : Nat) : Half :=
  h.fold (List.range 32) (fun h v =>
    let w := h.beamWords v j
    let p := bprodOf v w
    if h.flag BMF_CTL_RUN && bit (w.getD 0 0) 31 && h.runEnds v j && h.frameSeen p.sub j then h.endRecords p j else h)

/-- The post-processor at tick k. -/
def Half.beamTick (h : Half) : Half :=
  let k := h.frame
  let h := if h.delta ≤ k then (h.beamRunsTick (k - h.delta)).flushSeen (k - h.delta - 1) else h
  let h := h.fillAbandoned
  if k < h.delta + 2 then h
  else
    let j := k - h.delta - 2
    let h := if h.arc.hand.any (fun x => x.frame ≤ j) then h else (h.beamFill j).flushEnded j
    h.modBmf (fun x => { x with seen := x.seen.filter (fun y => j ≤ y.1) })

end Sys2Proof.Machine
end

