-- ==== Sys2Proof/Machine/Arcade.lean ====
section
/-! DEFINITION. The Arcade (07_arcade_courtyard.md): the sequencer and its ops, passes and their drains, bays, fencing and
containment, contexts. -/

namespace Sys2Proof.Machine

/-! ### Bays (Table ARC-8) -/

def bayActive : Nat := 0
def baySpare : Nat := 1
def bayFenced : Nat := 2
def bayFailed : Nat := 3
def bayHalted : Nat := 4

def Half.bayState (h : Half) (p : Nat) : Nat := h.fget ARC_BAY_STAT_STATE p
def Half.bayLogical (h : Half) (p : Nat) : Nat := h.fget ARC_BAY_STAT_LOGICAL p

/-- Physical bays, ascending. -/
def bays : List Nat := List.range 66

/-- The physical bay that serves a logical index. -/
def Half.bayOf (h : Half) (b : Nat) : Option Nat :=
  bays.find? (fun p => h.bayLogical p == b && (h.bayState p == bayActive || h.bayState p == bayHalted))

/-- Active logical bays, ascending. -/
def Half.logicalBays (h : Half) : List Nat := (List.range 64).filter (fun b => (h.bayOf b).isSome)

/-- A (Table FRM-3, R160): logical indices that a bay holds, a fenced one until the tick that finds no spare for it. With
AUTO_REPAIR at 0 a fenced bay keeps its index, and counts while a spare remains for it. (DEDUCED, log 47) -/
def Half.activeBays (h : Half) : Nat :=
  let held := (List.range 64).filter (fun b => bays.any (fun p => h.bayLogical p == b))
  let waiting := bays.filter (fun p => h.bayState p == bayFenced && h.bayLogical p != 0xFF
    && !(h.flag ARC_CTL_AUTO_REPAIR && h.arc.fenced.contains p))
  held.length - (waiting.length - (bays.filter (fun p => h.bayState p == baySpare)).length)

/-- ARC_STAT as things stand (Table ARC-10). -/
def Half.arcStat (h : Half) : Half :=
  let busy := h.arc.passes.any (fun p => p.status == 1)
  let st := if h.arc.contained then 3 else if !h.flag ARC_CTL_RUN then 0 else if h.flag ARC_CTL_SUSPEND && !busy then 2 else 1
  let h := ((h.fset ARC_STAT_STATE st).fset ARC_STAT_ACTIVE h.activeBays).fset ARC_STAT_SPARES
    (bays.filter (fun p => h.bayState p == baySpare)).length
  match h.arc.run with
  | some r => if r.sub < 16 then h.fset ARC_STAT_SUB r.sub else h
  | none => h

/-- The Arcade may issue: it runs, is not contained, and the half is not in HOLD. -/
def Half.arcGoes (h : Half) : Bool := h.flag ARC_CTL_RUN && !h.arc.contained && !h.inHold

/-! ### Passes (R132 to R138) -/

/-- The cell state a pass begins with. -/
def CellState.zero : CellState := ⟨0, 0, 0, 0, 0, 0, 0⟩

/-- Samples of a stripe buffer as the operand network delivers them, value and flag (R132), in the order of R133: spectrum, staged
block, input. -/
def Half.operands (h : Half) (buf nblk n : Nat) : Array ((Int × Int) × Bool) :=
  let b := h.bps
  let words := SMap.readRun 0 h.arc.cy (h.stageBase + buf * stripeWords) (n * nblk * (16 * b))
  words.flatMap (fun w => (Array.range (4 / b)).map (fun j =>
    let c := w.toNat / 256 ^ (b * j) % 256 ^ b
    if codeInvalid h.fmt8 c then ((0, 0), false) else (decodeCode h.fmt8 c, true)))

/-- Sample of input `i` of staged block `k` at sample `u`; a block that is not staged reads as invalid. -/
def operand (xs : Array ((Int × Int) × Bool)) (nblk u k i : Nat) : (Int × Int) × Bool :=
  if nblk ≤ k then ((0, 0), false) else xs.getD ((u * nblk + k) * 64 + i) ((0, 0), false)

/-- x · conj(y) and the AND of the flags (R132). -/
def product (x y : (Int × Int) × Bool) : Int × Int × Nat :=
  (x.1.1 * y.1.1 + x.1.2 * y.1.2, x.1.2 * y.1.1 - x.1.1 * y.1.2, b2n (x.2 && y.2))

/-- Place and input of row or column `r` of a quadrant's block. -/
def operandPlace (shape blk r : Nat) : Nat × Nat := if shape = 1 then (blk / 2, blk % 2 * 32 + r) else (blk, r)

/-- Cells of an XT pass, as (quadrant, row, column), in slot cell order; cells of idle quadrants are none. -/
def Pass.cellsOf (p : Pass) : List (Option (Quad × Nat × Nat)) :=
  if p.shape = 0 then (List.range 4096).map (fun e => (p.quads.head?).map (fun q => (q, e / 64, e % 64)))
  else (List.range 4096).map (fun e =>
    (p.quads.find? (fun q => q.q == e / 1024)).map (fun q => (q, e % 1024 / 32, e % 32)))

def samplesFrom (a b : Nat) : List Nat := (List.range (b - a)).map (a + ·)

/-- An int32 sum saturates; the flag says so (R142). -/
def sat32 (x : Int) : Int × Bool := let y := clamp (-(2 ^ 31)) (2 ^ 31 - 1) x; (y, y != x)

/-- A cell with whether an A32 adder, and whether its tally counter, has overflowed (R142, R172). -/
structure CellRun where
  cell : CellState
  ovf : Bool
  tovf : Bool
  deriving DecidableEq, Repr

/-- A complex number added into the A32 register (R142). -/
def CellRun.addA32 (x : CellRun) (re im : Int) : CellRun :=
  let a := sat32 (x.cell.re + re)
  let b := sat32 (x.cell.im + im)
  { x with cell := { x.cell with re := a.1, im := b.1 }, ovf := x.ovf || a.2 || b.2 }

/-- Jointly valid samples added into the tally counter (R172). -/
def CellRun.addTally (x : CellRun) (n : Nat) : CellRun :=
  { x with cell := { x.cell with cnt := min (x.cell.cnt + n) (2 ^ 32 - 1) }, tovf := x.tovf || 2 ^ 32 ≤ x.cell.cnt + n }

/-- Both lanes fold into the A32 register, lane 0 first, and are cleared (R136). -/
def CellRun.fold (x : CellRun) : CellRun :=
  let y := (x.addA32 x.cell.l0re x.cell.l0im).addA32 x.cell.l1re x.cell.l1im
  { y with cell := { y.cell with l0re := 0, l0im := 0, l1re := 0, l1im := 0 } }

/-- A sum in an int16 lane; what one outside it leaves is open. (DEDUCED, log 20) -/
def lane16 (x : Int) : Int := if -(2 ^ 15) ≤ x ∧ x < 2 ^ 15 then x else (Config.laneOverflow x).toInt

/-- Sample `u` in its lane, u mod 2 (R136). -/
def CellRun.addLane (x : CellRun) (u : Nat) (re im : Int) : CellRun :=
  let c := x.cell
  if u % 2 = 0 then { x with cell := { c with l0re := lane16 (c.l0re + re), l0im := lane16 (c.l0im + im) } }
  else { x with cell := { c with l1re := lane16 (c.l1re + re), l1im := lane16 (c.l1im + im) } }

/-- An XT cell takes sample `u` (R136): at A16 in its lane, both lanes folding after every K16 products in each; else in the A32 register. -/
def Pass.cellStep (p : Pass) (xs : Array ((Int × Int) × Bool)) (x : Quad × Nat × Nat) (acc : CellRun) (u : Nat) : CellRun :=
  let r := operandPlace p.shape x.1.row x.2.1
  let c := operandPlace p.shape x.1.col x.2.2
  let y := product (operand xs p.nblk u r.1 r.2) (operand xs p.nblk u c.1 c.2)
  let acc := acc.addTally y.2.2
  if p.amode = 0 then
    let acc := acc.addLane u y.1 y.2.1
    if (u + 1) % (2 * p.k16) = 0 then acc.fold else acc
  else acc.addA32 y.1 y.2.1

/-- The cell after the samples below `pos` of an XT pass. -/
def Pass.xtCell (p : Pass) (xs : Array ((Int × Int) × Bool)) (pos : Nat) (x : Quad × Nat × Nat) (c : CellState) : CellRun :=
  (samplesFrom p.start pos).foldl (p.cellStep xs x) ⟨c, false, false⟩

/-- Blocks whose weighted samples a beam cell has after `pos` cycles: sample `n` takes one step per `wn` cycles. -/
def beamSteps (pos wn n : Nat) : Nat := pos / wn + b2n (n < pos % wn)

/-- Half-local fine channel of a window (R201). -/
def Half.windowChan (h : Half) (p : Pass) : Nat :=
  p.o * h.subG p.sub p.frame + (p.s * p.sst + p.win * windowLen p.shape) / h.fspec

/-- First spectrum of the frame in a window. -/
def Half.windowSpec (h : Half) (p : Pass) : Nat := (p.s * p.sst + p.win * windowLen p.shape) % h.fspec

/-- Beam cell (β′, n) over the blocks of steps `[a, b)`: BT-64 takes one block a step, BT-16 four (R138, R201). -/
def Half.beamSum (h : Half) (p : Pass) (xs : Array ((Int × Int) × Bool)) (c b n lo hi : Nat) : Int × Int × Nat :=
  let per := if p.shape = 2 then 1 else 4
  let ks := h.fget BMF_TAB_3_KS p.sub
  let beam := p.grp * beamsPer p.shape + b
  let u := p.win * windowLen p.shape + n
  (samplesFrom (64 * per * lo) (64 * per * hi)).foldl (fun acc k =>
    let x := operand xs p.nblk u (k / 64) (k % 64)
    let w := h.entryWeight (beam * (64 * ks) + k) c
    (acc.1 + (w.2.1 * x.1.1 - w.2.2 * x.1.2), acc.2.1 + (w.2.1 * x.1.2 + w.2.2 * x.1.1), acc.2.2 + b2n (x.2 && w.1))) (0, 0, 0)

/-- A beam cell after `pos` cycles: the A32 register takes one sum a step (R138, R142). The adder tree forms the count of valid inputs beside
it, over every input taken; the tally counter stays idle (R176, R201). -/
def Half.btCell (h : Half) (p : Pass) (xs : Array ((Int × Int) × Bool)) (pos e : Nat) (c : CellState) : CellRun × Nat :=
  let wn := windowLen p.shape
  let sum := h.beamSum p xs (h.windowChan p) (e / wn) (e % wn)
  let steps (at_ : Nat) : Nat := beamSteps at_ wn (e % wn)
  let run := (samplesFrom (steps p.start) (steps pos)).foldl (fun (x : CellRun) m =>
    let y := sum m (m + 1)
    x.addA32 y.1 y.2.1) ⟨c, false, false⟩
  (run, (sum 0 (steps pos)).2.2)

/-- Every cell of a pass after `pos` of its samples. -/
def Half.passCells (h : Half) (p : Pass) (pos : Nat) : List CellRun :=
  let xs := h.operands (p.s % 2) p.nblk p.sst
  let init := p.init.toArray
  if p.shape < 2 then p.cellsOf.zipIdx.map (fun (x, e) =>
    match x with
    | some x => p.xtCell xs pos x (init.getD e CellState.zero)
    | none => ⟨CellState.zero, false, false⟩)
  else (List.range 4096).map (fun e => (h.btCell p xs pos e (init.getD e CellState.zero)).1)

/-- The pass with its cells as they stand after `pos` of its samples. -/
def Half.passTo (h : Half) (p : Pass) (pos : Nat) : Pass :=
  let cs := h.passCells p pos
  { p with start := pos, init := cs.map (·.cell), ovf := p.ovf || cs.any (·.ovf), tovf := p.tovf || cs.any (·.tovf) }

/-- The pass at its end: the lanes fold once more (R136). -/
def Half.passDone (h : Half) (p : Pass) (full : Nat) : Pass :=
  let q := h.passTo p full
  if 2 ≤ p.shape then q
  else
    let cs := q.init.map (fun c => CellRun.fold ⟨c, false, false⟩)
    { q with init := cs.map (·.cell), ovf := q.ovf || cs.any (·.ovf) }

/-- Valid counts of a beam pass's cells (R201). -/
def Half.passValid (h : Half) (p : Pass) (pos : Nat) : List Nat :=
  let xs := h.operands (p.s % 2) p.nblk p.sst
  (List.range 4096).map (fun e => (h.btCell p xs pos e CellState.zero).2)

/-- Input blocks a BT pass runs over (R202). -/
def btBlocks (shape nblk : Nat) : Nat := if shape = 2 then nblk else 4 * cdiv nblk 4

/-- Length of a pass in ACLK cycles (Table ARC-2). -/
def Pass.len (p : Pass) : Nat :=
  if 2 ≤ p.shape then 64 * btBlocks p.shape p.nblk
  else match p.amode with
    | 0 => p.sst / 2
    | 1 => p.sst
    | _ => 2 * p.sst

/-- Where a pass stands after `cycles`, in samples (Table ARC-3): a BT pass takes one sample a cycle, each window's samples over again for
every block or block quad. -/
def Pass.posAt (p : Pass) (cycles : Nat) : Nat :=
  if 2 ≤ p.shape then cycles
  else match p.amode with
    | 0 => 2 * cycles
    | 1 => cycles
    | _ => cycles / 2

/-- Change the passes. -/
def Half.modPasses (h : Half) (f : List Pass → List Pass) : Half := h.modArc (fun a => { a with passes := f a.passes })

/-- Change the first pass that satisfies `c`. -/
def modFirst (c : Pass → Bool) (f : Pass → Pass) : List Pass → List Pass
  | [] => []
  | p :: ps => if c p then f p :: ps else p :: modFirst c f ps

/-- Issue passes that wait to idle logical bays, lowest first (R149). -/
def Half.assign (h : Half) : Half :=
  if !h.arcGoes || h.flag ARC_CTL_SUSPEND then h
  else
    let idle := h.logicalBays.filter (fun b =>
      !h.arc.passes.any (fun p => p.status == 1 && p.bay == b) && (match h.bayOf b with | some p => h.bayState p == bayActive | none => false))
    h.fold idle (fun h b => h.modPasses (modFirst (fun p => p.status == 0) (fun p => { p with status := 1, bay := b })))

/-- Fence a bay for a cause (R159). (DEDUCED, log 47) -/
def Half.fenceBay (h : Half) (p cause : Nat) : Half :=
  let h := ((h.fset ARC_BAY_STAT_STATE bayFenced p).fset ARC_BAY_STAT_CAUSE cause p).bump ARC_BAY_STAT_FAULTS 1 p
  let h := h.modArc (fun a => { a with fenced := p :: a.fenced.filter (· != p) })
  let h : Half := { h with exy := { h.exy with recompute := true } }
  (h.raise (384 + p)).arcBayErr errARC_BAY_FAULT p

/-- A pass to be issued again from the start of its stripe (R159). -/
def Pass.again (p : Pass) : Pass := { p with status := 0, start := 0, init := [], ovf := false, tovf := false, exempt := false }

/-- Passes of a logical bay whose drain has not begun, those that `c` takes, are issued again. -/
def Half.reissue (h : Half) (b : Nat) (c : Pass → Bool) : Half :=
  h.modPasses (fun ps => ps.map (fun q => if q.bay == b && (q.status == 1 || q.status == 2) && c q then q.again else q))

/-- The TAG an XT pass needs (R147). -/
def Pass.tag (p : Pass) : Nat := (if p.shape = 0 then 1 else 3) + b2n (p.amode == 2)

/-- The bay that drains `p` is fenced for an overflow; the pass that runs on it meanwhile is issued again (R142, R159, R172). -/
def Half.fenceDrain (h : Half) (p : Pass) : Half :=
  match h.bayOf p.bay with
  | some q => (h.fenceBay q 5).reissue p.bay (fun x => x.status == 1)
  | none => h

/-- Add a pass's sums and counts into its slot and record (R137); an overflow there or in the cells saturates (R142, R172). -/
def Half.addPass (h : Half) (p : Pass) : Half :=
  let slot := SMap.readRun 0 h.arc.cy (p.slot * slotWords) slotWords
  let counts := SMap.readRun 0 h.arc.cy (p.trec * recWords) recWords
  let old (xs : Array Word) (n : Nat) : Nat := (xs.getD n 0).toNat
  let sums := p.init.zipIdx.map (fun (c, e) =>
    (sat32 (sext 32 (old slot (2 * e)) + c.re), sat32 (sext 32 (old slot (2 * e + 1)) + c.im), old counts e + c.cnt))
  let h := h.cyWrite (p.slot * slotWords) (sums.flatMap (fun s => [BitVec.ofNat 32 (wrapBits 32 s.1.1), BitVec.ofNat 32 (wrapBits 32 s.2.1.1)]))
  let h := h.cyWrite (p.trec * recWords) (sums.map (fun s => BitVec.ofNat 32 (min s.2.2 (2 ^ 32 - 1))))
  let h := if p.ovf || sums.any (fun s => s.1.2 || s.2.1.2) then ((h.suspectSlots [p.slot]).fenceDrain p).arcErr errARC_ACC_OVF else h
  if p.tovf || sums.any (fun s => 2 ^ 32 ≤ s.2.2) then ((h.suspectRecs [p.trec]).fenceDrain p).log errTAL_OVF else h

/-- Drop the first pass equal to `p`. -/
def Half.dropPass (h : Half) (p : Pass) : Half := h.modPasses (fun ps => ps.erase p)

/-- A pass on a slot of another TAG is discarded (R152): logged once, its slot and record suspect from then on. -/
def Half.badTag (h : Half) (slot trec : Nat) : Half := ((h.arcErr errARC_SLOT_FORMAT).suspectSlots [slot]).suspectRecs [trec]

/-- Drain an XT pass: discarded on a slot that has become suspect, or of another TAG (R152); a LAST pass then waits for its spill. -/
def Half.drainXt (h : Half) (p : Pass) : Half :=
  let h := h.modArc (fun a => { a with lastDrain := SMap.insert a.lastDrain p.bay ([p.slot], [p.trec]) })
  if h.slotSuspect p.slot || h.recSuspect p.trec then h.dropPass p
  else if SMap.getD h.arc.tags p.slot 0 != p.tag then (h.dropPass p).badTag p.slot p.trec
  else
    let h := h.addPass p
    if p.last then h.modPasses (fun ps => modFirst (· == p) (fun q => { q with status := 3, init := [] }) ps)
    else h.dropPass p

/-- Drain a BT pass into the hand-off buffer (R203); a mark that its slot there bore is gone. -/
def Half.drainBt (h : Half) (p : Pass) : Half :=
  let idx := h.arc.handNext
  let slot := h.handSlot idx
  let h := h.cyWrite (h.handBase + idx * slotWords)
    (((p.init.zip (h.passValid p p.len)).flatMap (fun c => handWord c.1.re c.1.im c.2)).map (BitVec.ofNat 32))
  let x : HandOff := ⟨idx, p.frame, p.sub, p.o, p.blk, h.windowChan p, h.windowSpec p, p.grp, p.shape⟩
  let h := h.modArc (fun a => { a with
    hand := a.hand ++ [x], handNext := (idx + 1) % 32, suspect := a.suspect.filter (· != slot)
    lastDrain := SMap.insert a.lastDrain p.bay ([slot], []) })
  let h := h.dropPass p
  if p.ovf then ((h.suspectSlots [slot]).fenceDrain p).arcErr errARC_ACC_OVF else h

/-- First sample of a beam pass's window in its stripe. -/
def Pass.winStart (p : Pass) : Nat := p.win * windowLen p.shape

/-- Passes of one stripe. -/
def Pass.sameStripe (p q : Pass) : Bool := p.frame == q.frame && p.sub == q.sub && p.blk == q.blk && p.s == q.s

/-- Beam passes of one stripe leave by window, then by group (Table ARC-3). -/
def Pass.before (p q : Pass) : Bool := p.winStart < q.winStart || (p.winStart == q.winStart && p.grp < q.grp)

/-- Groups of the BT ops that the sequencer has yet to come to in the stripe of `p`. -/
def Half.groupsAhead (h : Half) (p : Pass) : List Nat :=
  match h.arc.run with
  | none => []
  | some r =>
    if r.frame == p.frame && r.sub == p.sub && r.blk == p.blk && r.stripe == some p.s then
      let (base, len) := h.progOf r.sub r.frame
      let top := match r.loop with | some (a, n, _, _) => min len (a + n) | none => len
      (((List.range (top - r.pc)).map (fun n => h.opAt r.sub (base + r.pc + n))).takeWhile (fun op => match op with
        | .stage _ _ _ _ _ => false
        | .close _ _ _ _ => false
        | .loop _ _ => false
        | _ => true)).filterMap (fun op => match op with | .bt _ g _ _ => some g | _ => none)
    else []

/-- A finished pass may drain, the passes issued before it and after it being given (R137, R140, R150, R151): an XT pass after every
earlier pass on its slot or record and after the folder's reading of the slot; a beam pass in the order of Table ARC-3, into a slot that the
post-processor has freed. -/
def Half.mayDrain (h : Half) (earlier later : List Pass) (p : Pass) : Bool :=
  if p.shape < 2 then earlier.all (fun q => 2 ≤ q.shape || (q.slot != p.slot && q.trec != p.trec)) && !h.slotHeld p.slot
  else !h.arc.hand.any (fun x => x.idx == h.arc.handNext)
    && earlier.all (fun q => q.shape < 2 || (q.sameStripe p && !q.before p))
    && later.all (fun q => q.shape < 2 || !(q.sameStripe p && q.before p))
    && (h.groupsAhead p).all (fun g => p.winStart == 0 && p.grp ≤ g)

/-- The first pass that may drain. -/
def Half.drainable (h : Half) (earlier : List Pass) : List Pass → Option Pass
  | [] => none
  | p :: ps => if p.status == 2 && h.mayDrain earlier ps p then some p else h.drainable (earlier ++ [p]) ps

/-- Drain every finished pass that may. (DEDUCED, log 20) -/
def Half.drainAll : Nat → Half → Half
  | 0, h => h
  | fuel + 1, h =>
    match h.drainable [] h.arc.passes with
    | none => h
    | some p => Half.drainAll fuel (if p.shape < 2 then h.drainXt p else h.drainBt p)

/-- What follows from any change in the Arcade. -/
def Half.arcSettle (h : Half) : Half := ((Half.drainAll h.arc.passes.length h).assign).arcStat

/-! ### Dropping (R27, R154, R161) -/

/-- Hand-off slots of blocks for which `c` holds are gone. -/
def Half.forgetHand (h : Half) (c : HandOff → Bool) : Half :=
  h.modArc (fun a => { a with hand := a.hand.filter (fun x => !c x) })

/-- Abandon the frame in progress (R154): every block not closed is dropped; drains of LAST passes already begun complete. -/
def Half.dropRun (h : Half) : Nat × Half :=
  match h.arc.run with
  | none => (0, h)
  | some r =>
    let open_ := (h.allBlocks r.frame).filter (fun x =>
      !r.closed.contains (x.1, x.2.1 * (h.plan x.1 r.frame).blocks.length + x.2.2.1))
    let h := h.modArc (fun a => { a with
      run := none, stripe0 := none, stripe1 := none, passes := a.passes.filter (fun p => p.status == 3)
      unfilled := r.frame :: a.unfilled.filter (· != r.frame) })
    let h := h.forgetHand (fun x => x.frame == r.frame && !r.closed.contains (x.sub, x.blk))
    let h := h.ovr 1 r.frame open_.length
    (open_.length, h.fold open_ (fun h x => h.blockSeen x.1 r.frame x.2.1 x.2.2.1))

/-- R27: the frame's tick j + Δ + 1 has come with blocks unclosed. The beam samples that it, or a frame abandoned before, lacks are taken as
dropped (R205). -/
def Half.arcOverrun (h : Half) : Half :=
  match h.arc.run with
  | none => h.fillAbandoned.arcSettle
  | some r =>
    if r.frame + h.delta + 1 ≤ h.frame then
      let d := h.dropRun
      let h := if d.1 = 0 then d.2 else d.2.frameOverrun
      h.fillAbandoned.arcSettle
    else h

def execArcadeOverrun (i : HalfId) (s : State) : Host.Outcome State Fault Refusal :=
  done (s.onMain i Half.arcOverrun)

/-- Clearing ARC_CTL.RUN (R162). -/
def Half.arcStop (h : Half) : Half := (h.dropRun.2.fset ARC_CTL_RUN 0).arcSettle

def execArcRunClear (i : HalfId) (s : State) : Host.Outcome State Fault Refusal :=
  done (s.onMain i (fun h => if h.flag ARC_CTL_RUN then h.arcStop else h))

/-- The subarray after those below `n` that has a program for the frame. -/
def Half.nextSub (h : Half) (j n : Nat) : Nat := ((h.subsOf j).find? (fun s => n ≤ s && 0 < h.subChans s j)).getD 16

/-- The Arcade takes up frame `j` (R123, R146). -/
def Half.arcStart (h : Half) (j : Nat) : Half :=
  if !h.arcGoes then h
  else
    let h := h.arcOverrun
    let h := (h.dropRun.2.putN ARC_USE (h.arc.used / 2 ^ 20))
    let h := h.modArc (fun a => { a with
      used := 0, run := some ⟨j, h.nextSub j 0, 0, 0, 0, none, none, []⟩, tabIn := if a.tabStale then none else a.tabIn, spills := [] })
    h.arcStat

/-- R123. -/
def execLandingInstant (i : HalfId) (s : State) : Host.Outcome State Fault Refusal :=
  done (s.onMain i (fun h =>
    let was := h.xch.handed
    let h := h.landing
    match h.xch.handed with
    | some j => if was == some j then h else h.arcStart j
    | none => h))

/-! ### The sequencer (R146 to R152) -/

/-- The stripe buffer of stripe `s`. -/
def Half.stripe (h : Half) (s : Nat) : Option Stripe := if s % 2 = 0 then h.arc.stripe0 else h.arc.stripe1

/-- The stripe index of an op: the iteration of its loop. -/
def ArcRun.iter (r : ArcRun) : Nat := match r.loop with | some (_, _, _, n) => n | none => 0

/-- The op is in the last iteration of its loop, or in none. -/
def ArcRun.lastIter (r : ArcRun) : Bool := match r.loop with | some (_, _, c, n) => n + 1 == c | none => true

/-- The slot that an op names (R146). -/
def Half.slotOf (h : Half) (r : ArcRun) (bank : Bool) (slot : Nat) : Nat :=
  slot + (if bank then r.blk % 2 * (h.histField ARC_SUB_BANK_BANKSZ r.sub (r.frame + h.delta)) else 0)

/-- The stripe that XT and BT ops read: the last one staged. -/
def Half.curStripe (h : Half) (r : ArcRun) : Option Stripe := r.stripe.bind h.stripe

/-- Slots and records of a range exist. -/
def Half.slotsExist (h : Half) (r : ArcRun) (bank : Bool) (slot count trec tcount : Nat) : Bool :=
  h.slotOf r bank slot + count ≤ 8192 && trec + tcount ≤ 16384

/-- What R148 asks of an op beyond its own words. (DEDUCED, log 20) -/
def Half.opFits (h : Half) (r : ArcRun) : Op → Bool
  | .open_ bank _ slot count tcount trec => h.slotsExist r bank slot count trec tcount
  | .xt shape _ _ _ bank tri slot tcnt trec w3 =>
    match h.curStripe r with
    | none => false
    | some st =>
      let n := (sweep tri st.na (st.blocks.length - st.na)).length
      if shape = 0 then tcnt == n && h.slotsExist r bank slot tcnt trec tcnt
      else h.slotsExist r bank slot 1 trec 1 && (xtQuads w3).all (fun q => q.row / 2 < st.blocks.length && q.col / 2 < st.blocks.length)
  | .bt shape _ nib inb =>
    match h.curStripe r with
    | none => false
    | some st => inb == 0 && nib == btBlocks shape st.blocks.length
  | .close bank _ slot count => h.slotsExist r bank slot count 0 0
  | .save bank bay cells tally slot trec count _ =>
    h.slotsExist r bank slot count trec (if tally then count else 0) && (!cells || (match h.bayOf bay with | some p => h.bayState p == bayHalted | none => false))
  | .restore bank bay cells tally slot trec count _ =>
    h.slotsExist r bank slot count trec (if tally then count else 0) && (!cells || (match h.bayOf bay with | some p => h.bayState p == bayHalted | none => false))
  | .loop _ _ => r.loop.isNone
  | .bad => false
  | _ => true

/-- Program index of the op that the sequencer comes to. -/
def Half.opIndex (h : Half) (r : ArcRun) : Nat := (h.progOf r.sub r.frame).1 + r.pc

/-- The op that the sequencer comes to, as R148 takes it. -/
def Half.curOp (h : Half) : Option (ArcRun × Op) :=
  match h.arc.run with
  | none => none
  | some r =>
    if r.sub < 16 && h.arcGoes then
      let op := h.opAt r.sub (h.opIndex r)
      some (r, if h.opFits r op then op else .bad)
    else none

/-- Go on to the program's next run, for the next output channel or subarray (R146). -/
def Half.nextChannel (h : Half) (r : ArcRun) : ArcRun :=
  if r.o + 1 < h.subChans r.sub r.frame then { r with o := r.o + 1, pc := 0, loop := none, stripe := none }
  else { r with sub := h.nextSub r.frame (r.sub + 1), o := 0, blk := 0, pc := 0, loop := none, stripe := none }

/-- Move past the op at the sequencer's place. -/
def Half.stepPc (h : Half) (r : ArcRun) : ArcRun :=
  let r := match r.loop with
    | some (a, n, c, k) =>
      if r.pc + 1 < a + n then { r with pc := r.pc + 1 }
      else if k + 1 < c then { r with pc := a, loop := some (a, n, c, k + 1) }
      else { r with pc := a + n, loop := none }
    | none => { r with pc := r.pc + 1 }
  if r.pc < (h.progOf r.sub r.frame).2 then r else h.nextChannel r

def Half.setRun (h : Half) (r : ArcRun) : Half := h.modArc (fun a => { a with run := some r })

/-- Run the op at the sequencer's place if it is of the kind that `f` takes and its waits are over. -/
def State.onOp (s : State) (i : HalfId) (f : ArcRun → Op → Half → Option (ArcRun × Half)) : State :=
  s.onMain i (fun h =>
    match h.curOp with
    | none => h
    | some (r, op) =>
      match f r op h with
      | none => h
      | some (r, h) => (h.setRun (h.stepPc r)).arcSettle)

/-- No pass that is not drained names a slot or record of the ranges (R150). -/
def Half.drained (h : Half) (slot count trec tcount : Nat) (except : Option Nat) : Bool :=
  h.arc.passes.all (fun p => 2 ≤ p.shape || (p.status == 1 && except == some p.bay)
    || (!(slot ≤ p.slot && p.slot < slot + count) && !(trec ≤ p.trec && p.trec < trec + tcount)))

/-- The folder holds none of the slots (R151). -/
def Half.released (h : Half) (slot count : Nat) : Bool := (List.range count).all (fun n => !h.slotHeld (slot + n))

/-- R147, R151: OPEN. -/
def execArcOpOpen (i : HalfId) (s : State) : Host.Outcome State Fault Refusal :=
  done (s.onOp i (fun r op h => match op with
    | .open_ bank tag slot count tcount trec =>
      let a := h.slotOf r bank slot
      if h.drained a count trec tcount none && h.released a count then
        let h := (h.cyZero (a * slotWords) (count * slotWords)).cyZero (trec * recWords) (tcount * recWords)
        let inRecs (n : Nat) : Bool := trec ≤ n && n < trec + tcount
        some (r, h.modArc (fun x => { x with
          tags := (List.range count).foldl (fun m n => SMap.insert m (a + n) tag) x.tags
          suspect := x.suspect.filter (fun n => !(a ≤ n && n < a + count) && !(inRecs (2 * n) || inRecs (2 * n + 1)))
          recSuspect := x.recSuspect.filter (fun n => !inRecs n) }))
      else none
    | _ => none))

/-- The codes of a 64·b-byte run that STAGE loads (R124, R147, R285): invalid where the map bit is clear, a re-lay took the frame, the
unit is poisoned, or the input is padding. -/
def Half.stageRun (h : Half) (sub j c t blk : Nat) : List Byte × Half :=
  let b := h.bps
  let invalid := h.codeBytes h.invalidCode
  let key := (t * h.plazaBlocks + blk) * h.groupsPerHalf + c / h.chanGroup
  if !(blk < h.plazaBlocks && c < h.ownChans && (h.ctBuf j).contains key) || h.xch.void == some j then
    ((List.range 64).flatMap (fun _ => invalid), h)
  else
    (List.range b).foldl (fun acc u =>
      let r := acc.2.regionRead regionCorner (h.cornerOfs j c t blk + 64 * u) 64
      (acc.1 ++ (List.range (64 / b)).flatMap (fun i =>
        if !r.1.2 && h.isMember sub j (blk * 64 + u * (64 / b) + i) then slice r.1.1 (i * b) b else invalid), r.2)) ([], h)

/-- The codes that STAGE loads into the buffer of its stripe, in staging order (R147, R149). -/
def Half.stageData (h : Half) (r : ArcRun) (sst : Nat) (blocks : List Nat) : List Byte × Half :=
  let g := h.subG r.sub r.frame
  let keys := (List.range sst).flatMap (fun k => blocks.map (fun b => (r.iter * sst + k, b)))
  let (runs, h) := keys.foldl (fun (acc : List (List Byte) × Half) (u, b) =>
    let x := acc.2.stageRun r.sub r.frame (r.o * g + u / h.fspec) (u % h.fspec) b
    (x.1 :: acc.1, x.2)) ([], h)
  (runs.reverse.flatten, h)

/-- R147, R149: STAGE into the buffer of its stripe, once no pass reads the stripe two before. -/
def execArcOpStage (i : HalfId) (s : State) : Host.Outcome State Fault Refusal :=
  done (s.onOp i (fun r op h => match op with
    | .stage sc na ga nb gb =>
      let n := r.iter
      if h.arc.passes.any (fun p => p.status < 2 && p.s % 2 == n % 2) then none
      else
        let sst := 512 * 2 ^ sc
        let blocks := stageBlocks na ga nb gb
        let (codes, h) := h.stageData r sst blocks
        let h := h.cyWrite (h.stageBase + n % 2 * stripeWords) (toWords codes)
        let st : Stripe := ⟨n, sst, r.o, blocks, na⟩
        some ({ r with stripe := some n }, h.modArc (fun a => if n % 2 = 0 then { a with stripe0 := some st } else { a with stripe1 := some st }))
    | _ => none))

/-- A pass of an op over a stripe. -/
def Half.passOf (h : Half) (r : ArcRun) (st : Stripe) (shape : Nat) : Pass :=
  { op := h.opWords (h.opIndex r), shape := shape, frame := r.frame, sub := r.sub, o := r.o, blk := r.blk, s := st.s, sst := st.sst
    nblk := st.blocks.length, slot := 0, trec := 0, quads := [], amode := 0, k16 := 64, last := false, grp := 0, win := 0
    status := 0, bay := 0, start := 0, init := [], ovf := false, tovf := false, exempt := false }

/-- Issue an XT pass, unless its slot is suspect or of another TAG (R152). -/
def Half.issueXt (h : Half) (p : Pass) : Half :=
  if h.slotSuspect p.slot || h.recSuspect p.trec then h
  else if SMap.getD h.arc.tags p.slot 0 != p.tag then h.badTag p.slot p.trec
  else h.modPasses (· ++ [p])

/-- R147: XT issues one pass per tile of its sweep, or one for its quadrants. -/
def execArcOpXt (i : HalfId) (s : State) : Host.Outcome State Fault Refusal :=
  done (s.onOp i (fun r op h => match op with
    | .xt shape amode k last bank tri slot _ trec w3 =>
      match h.curStripe r with
      | none => none
      | some st =>
        if h.flag ARC_CTL_SUSPEND then none
        else
          let a := h.slotOf r bank slot
          let p := { h.passOf r st shape with amode := amode, k16 := 64 * 2 ^ k, last := last && r.lastIter }
          let ps := if shape = 0 then
              (sweep tri st.na (st.blocks.length - st.na)).zipIdx.map (fun (x, n) =>
                { p with slot := a + n, trec := trec + n, quads := [⟨0, x.1, x.2⟩], win := n })
            else [{ p with slot := a, trec := trec, quads := xtQuads w3 }]
          some (r, h.fold ps (fun h p => h.issueXt p))
    | _ => none))

/-- R147, R198: BT issues one pass per window, once the subarray's table is in the Courtyard. -/
def execArcOpBt (i : HalfId) (s : State) : Host.Outcome State Fault Refusal :=
  done (s.onOp i (fun r op h => match op with
    | .bt shape grp _ _ =>
      match h.curStripe r with
      | none => none
      | some st =>
        if h.flag ARC_CTL_SUSPEND || !h.tableIn r.sub then none
        else
          let p := { h.passOf r st shape with grp := grp }
          some (r, h.modPasses (· ++ (List.range (st.sst / windowLen shape)).map (fun w => { p with win := w })))
    | _ => none))

/-- The block in progress has drained. -/
def Half.blockDrained (h : Half) (r : ArcRun) : Bool :=
  h.arc.passes.all (fun p => !(p.frame == r.frame && p.sub == r.sub && p.blk == r.blk))

/-- R147: CLOSE hands the block to the folder. -/
def execArcOpClose (i : HalfId) (s : State) : Host.Outcome State Fault Refusal :=
  done (s.onOp i (fun r op h => match op with
    | .close bank part slot count =>
      if !h.blockDrained r then none
      else
        let mine (x : Nat × Nat × Nat × Nat) : Bool := x.1 == r.frame && x.2.1 == r.sub && x.2.2.1 == r.blk
        let a := h.slotOf r bank slot
        let spilled := (h.arc.spills.filter mine).map (·.2.2.2)
        let ours (x : HandOff) : Bool := x.frame == r.frame && x.sub == r.sub && x.blk == r.blk
        let b : Block := ⟨r.frame, r.sub, r.o, r.blk, part, a, count, spilled.filter (· < 2 ^ 20), spilled.contains (2 ^ 20), h.spillArea, false⟩
        let recs := (((h.plan r.sub r.frame).blocks[h.placeOf b]?).map (fun pb => pb.tiles.map (·.trec))).getD []
        let bad := (List.range count).any (fun n => h.slotSuspect (a + n)) || recs.any h.recSuspect
          || h.arc.hand.any (fun x => ours x && h.slotSuspect (h.handSlot x.idx))
        let b := { b with bad := bad }
        let h := (h.modArc (fun x => { x with spills := x.spills.filter (fun y => !mine y) })).modLta
          (fun x => { x with blocks := x.blocks ++ [b] })
        let h := if bad then h.forgetHand ours else h
        some ({ r with blk := r.blk + 1, closed := (r.sub, r.blk) :: r.closed }, h)
    | _ => none))

/-- R147: SYNC waits for every earlier op. -/
def execArcOpSync (i : HalfId) (s : State) : Host.Outcome State Fault Refusal :=
  done (s.onOp i (fun r op h => match op with
    | .sync => if h.arc.passes.isEmpty then some (r, h) else none
    | _ => none))

/-- R146: LOOP. -/
def execArcOpLoop (i : HalfId) (s : State) : Host.Outcome State Fault Refusal :=
  done (s.onOp i (fun r op h => match op with
    | .loop body count =>
      if body = 0 || count = 0 then some ({ r with pc := r.pc + body }, h)
      else some ({ r with loop := some (r.pc + 1, body, count, 0) }, h)
    | _ => none))

/-- R147: NOP. -/
def execArcOpNop (i : HalfId) (s : State) : Host.Outcome State Fault Refusal :=
  done (s.onOp i (fun r op h => match op with
    | .nop => some (r, h)
    | _ => none))

/-- R148: an op that is refused is discarded. -/
def execArcOpReserved (i : HalfId) (s : State) : Host.Outcome State Fault Refusal :=
  done (s.onOp i (fun r op h => match op with
    | .bad =>
      let n := h.opIndex r
      let opc := ((h.opWords n).getD 0 0).toNat / 2 ^ 28
      some (r, ((h.fset ARC_BADOP_OPC opc).fset ARC_BADOP_INDEX n).arcErr errARC_BAD_OP)
    | _ => none))

/-! ### Contexts (R157, R158) -/

/-- The cells of a context image. -/
def cellBytes (c : CellState) : List Byte :=
  leBytes 4 (wrapBits 32 c.re) ++ leBytes 4 (wrapBits 32 c.im)
    ++ [c.l0re, c.l0im, c.l1re, c.l1im].flatMap (fun x => leBytes 2 (wrapBits 16 x)) ++ leBytes 4 c.cnt ++ leBytes 12 0

/-- Cell state from an image. -/
def cellOfBytes (bs : List Byte) : CellState :=
  ⟨sext 32 (fieldAt bs 0 4), sext 32 (fieldAt bs 4 4), sext 16 (fieldAt bs 8 2), sext 16 (fieldAt bs 10 2),
    sext 16 (fieldAt bs 12 2), sext 16 (fieldAt bs 14 2), fieldAt bs 16 4⟩

/-- Products in each lane since its last fold. -/
def Pass.sinceFold (p : Pass) (pos : Nat) : Nat := if p.shape < 2 && p.amode = 0 then pos % (2 * p.k16) / 2 else 0

/-- State of the pass that a halted bay holds (Table ARC-7): the place in its sweep stands for the window of an XT pass. -/
def passBytes (p : Pass) (pos : Nat) : List Byte :=
  ofWords p.op ++ leBytes 4 pos ++ leBytes 2 (p.sinceFold pos) ++ leBytes 2 p.s ++ leBytes 2 p.win ++ leBytes 38 0

/-- A context image (Table ARC-7) of slots, records and the pass on a halted bay. -/
def Half.contextImage (h : Half) (r : ArcRun) (part slot trec count : Nat) (tally : Bool) (cells : Option (Nat × Pass)) : List Byte :=
  let slots := (List.range count).map (slot + ·)
  let marks := slots.map (fun s => BitVec.ofNat 8 (SMap.getD h.arc.tags s 0 + b2n (h.slotSuspect s) * 128))
  let head := leBytes 2 0x4358 ++ leBytes 1 1 ++ leBytes 1 (b2n tally + b2n cells.isSome * 2) ++ leBytes 2 count ++ leBytes 1 r.sub
    ++ leBytes 1 ((cells.map (·.1)).getD 0) ++ leBytes 6 r.frame ++ leBytes 2 r.o ++ leBytes 1 part ++ leBytes 1 0
    ++ leBytes 2 slot ++ leBytes 2 trec ++ leBytes 42 0
  let body := head ++ marks ++ List.replicate (cdiv count 64 * 64 - count) 0 ++ slots.flatMap (fun s => h.cyBytes (s * slotWords) slotWords)
    ++ (if tally then h.cyBytes (trec * recWords) (count * recWords) else [])
  let pass := match cells with
    | some (_, p) => (List.range 4096).flatMap (fun e => cellBytes (p.init.getD e CellState.zero)) ++ passBytes p p.start
    | none => []
  withCrc (body ++ pass)

/-- PART of the CLOSE that the sequencer comes to next: in what is left of the loop, in its next iteration, after it, or in the program's next
run. -/
def Half.nextPart (h : Half) (r : ArcRun) : Nat :=
  let (base, len) := h.progOf r.sub r.frame
  let upTo (a b : Nat) : List Nat := (List.range (b - a)).map (a + ·)
  let path := match r.loop with
    | some (a, n, c, k) => upTo r.pc (a + n) ++ (if k + 1 < c then upTo a (a + n) else []) ++ upTo (a + n) len
    | none => upTo r.pc len
  ((path ++ upTo 0 len).findSome? (fun n => match h.opAt r.sub (base + n) with | .close _ part _ _ => some part | _ => none)).getD 0

/-- The pass that runs on a logical bay. -/
def Half.passOn (h : Half) (bay : Nat) : Option Pass := h.arc.passes.find? (fun p => p.status == 1 && p.bay == bay)

/-- R157: SAVE writes a context image; it waits as an OPEN does. -/
def execArcOpSave (i : HalfId) (s : State) : Host.Outcome State Fault Refusal :=
  done (s.onOp i (fun r op h => match op with
    | .save bank bay cells tally slot trec count addr =>
      let a := h.slotOf r bank slot
      if h.drained a count trec (if tally then count else 0) (if cells then some bay else none) && h.released a count then
        let pass := if cells then (h.passOn bay).map (fun p => (bay, p)) else none
        some (r, h.memWrite (addr * 4096) (h.contextImage r (h.nextPart r) a trec count tally pass))
      else none
    | _ => none))

/-- Length of a context image without its CRC, from its header. -/
def imageLen (bs : List Byte) : Nat :=
  let n := fieldAt bs 4 2
  let f := byteAt bs 3
  64 + cdiv n 64 * 64 + n * 32768 + (if bit f 0 then n * 16384 else 0) + (if bit f 1 then 4096 * 32 + 64 else 0)

/-- Write back slots with their marks, and records, of an image. -/
def Half.restoreSlots (h : Half) (img : List Byte) (slot trec count : Nat) (tally : Bool) : Half :=
  let n := fieldAt img 4 2
  let m := min n count
  let ofs := 64 + cdiv n 64 * 64
  let mark (k : Nat) : Nat := byteAt img (64 + k)
  let h := h.cyWrite (slot * slotWords) (toWords (slice img ofs (m * 32768)))
  let h := h.modArc (fun x => { x with
    tags := (List.range m).foldl (fun t k => SMap.insert t (slot + k) (bits (mark k) 2 0)) x.tags
    suspect := ((List.range m).filter (fun k => bit (mark k) 7)).map (slot + ·) ++ x.suspect.filter (fun s => !(slot ≤ s && s < slot + m)) })
  if tally && bit (byteAt img 3) 0 then h.cyWrite (trec * recWords) (toWords (slice img (ofs + n * 32768) (m * 16384))) else h

/-- Load an image's cell state into a halted bay, which resumes the saved pass there. -/
def Half.restoreCells (h : Half) (r : ArcRun) (img : List Byte) (bay : Nat) : Half :=
  if !bit (byteAt img 3) 1 then h
  else
    let ofs := imageLen img - (4096 * 32 + 64)
    let ps := slice img (ofs + 4096 * 32) 64
    let w := toWords (slice ps 0 16)
    let n := fieldAt ps 24 2
    match h.stripe (fieldAt ps 22 2), decodeOp h.fmt8 r.sub (w.getD 0 0).toNat (w.getD 1 0).toNat (w.getD 2 0).toNat (w.getD 3 0).toNat with
    | some st, .xt shape amode k last bank tri slot _ trec w3 =>
      let x := (sweep tri st.na (st.blocks.length - st.na)).getD n (0, 0)
      let p := { h.passOf r st shape with
        op := w, amode := amode, k16 := 64 * 2 ^ k, last := last && r.lastIter, slot := h.slotOf r bank slot + n, trec := trec + n
        quads := if shape = 0 then [⟨0, x.1, x.2⟩] else xtQuads w3, win := n, status := 1, bay := bay, start := fieldAt ps 16 4
        init := (List.range 4096).map (fun e => cellOfBytes (slice img (ofs + 32 * e) 32)) }
      h.modPasses (fun qs => qs.filter (fun q => !(q.status == 1 && q.bay == bay)) ++ [p])
    | some st, .bt shape grp _ _ =>
      let p := { h.passOf r st shape with
        op := w, grp := grp, win := n, status := 1, bay := bay, start := fieldAt ps 16 4
        init := (List.range 4096).map (fun e => cellOfBytes (slice img (ofs + 32 * e) 32)) }
      h.modPasses (fun qs => qs.filter (fun q => !(q.status == 1 && q.bay == bay)) ++ [p])
    | _, _ => h

/-- R157, R158: RESTORE. -/
def execArcOpRestore (i : HalfId) (s : State) : Host.Outcome State Fault Refusal :=
  done (s.onOp i (fun r op h => match op with
    | .restore bank bay cells tally slot trec count addr =>
      let a := h.slotOf r bank slot
      if h.drained a count trec (if tally then count else 0) (if cells then some bay else none) && h.released a count then
        let head := h.memRead (addr * 4096) 64
        let len := imageLen head.1.1 + 4
        let good := fieldAt head.1.1 0 2 == 0x4358 && byteAt head.1.1 2 == 1 && inHbm (addr * 4096) len
        let img := if good then head.2.memRead (addr * 4096) len else head
        if good && !img.1.2 && crcGood img.1.1 then
          let h := img.2.restoreSlots img.1.1 a trec count tally
          some (r, if cells then h.restoreCells r img.1.1 bay else h)
        else some (r, (img.2.suspectSlots ((List.range count).map (a + ·))).arcErr errCY_CTX_CRC)
      else none
    | _ => none))

/-! ### Passes end; spills -/

/-- R137: the pass on a logical bay ends, having waited `stall` cycles and met the given words in error; its drain waits its
turn. (DEDUCED, log 20) -/
def Half.passEnd (h : Half) (bay stall : Nat) (ecc : List (Nat × Bool)) : Half :=
  match h.passOn bay, h.bayOf bay with
  | some p, some q =>
    if h.bayState q != bayActive || h.arc.passes.any (fun x => 2 ≤ x.status && x.bay == bay) then h
    else
      let h := (h.cyErrors ecc).bumpWord ARC_STALL stall
      let full := if p.shape < 2 then p.sst else p.len
      let done_ := h.passDone p full
      let h := h.modArc (fun a => { a with used := a.used + p.len })
      (h.modPasses (modFirst (· == p) (fun _ => { done_ with status := 2 }))).arcSettle
  | _, _ => h

def execPassEnd (i : HalfId) (bay stall : Nat) (ecc : List (Nat × Bool)) (s : State) : Host.Outcome State Fault Refusal :=
  done (s.onMain i (fun h => if h.inHold then h else h.passEnd bay stall ecc))

/-- The spill buffer that a block uses has been released (R168). -/
def Half.spillFree (h : Half) (blk : Nat) : Bool := h.lta.blocks.all (fun b => b.blk % 2 != blk % 2)

/-- R168, R169: a LAST drain writes its record to the spill buffer and zeroes it. -/
def Half.spill (h : Half) (r : Nat) : Half :=
  match h.arc.passes.find? (fun p => p.status == 3 && p.trec == r) with
  | none => h
  | some p =>
    if !h.spillFree p.blk then h
    else
      let h := if h.spillArea.holds r then
          (h.memWrite (h.spillArea.addr (p.blk % 2) r) (h.cyBytes (r * recWords) recWords)).modArc
            (fun a => { a with spills := (p.frame, p.sub, p.blk, r) :: a.spills })
        else h.suspectSlots [p.slot]
      ((h.cyZero (r * recWords) recWords).dropPass p).arcSettle

def execLastDrainSpill (i : HalfId) (rec_ : Nat) (s : State) : Host.Outcome State Fault Refusal :=
  done (s.onMain i (fun h => h.spill rec_))

/-! ### Faults of bays (R159 to R161) -/

/-- Containment widens to the half Arcade (R161). -/
def Half.arcContain (h : Half) : Half :=
  let h := h.dropRun.2
  ((h.modArc (fun a => { a with contained := true })).log errARC_CONTAIN).arcSettle

/-- R159, R161: a fault of a physical bay. Passes whose drain has not begun are issued again; the slot and record that it last drained into are
suspect if the fault struck during that drain. -/
def Half.bayFault (h : Half) (p cause : Nat) (draining : Bool) : Half :=
  let st := h.bayState p
  if st = bayFailed then h
  else if st = bayFenced then
    let h := ((h.bump ARC_BAY_STAT_FAULTS 1 p).fset ARC_BAY_STAT_CAUSE cause p).arcBayErr errARC_BAY_FAULT p
    if h.arc.fenced.contains p && !h.arc.contained && h.fatal.isNone then h.arcContain else h
  else
    let b := h.bayLogical p
    let h := h.fenceBay p cause
    let h := if b < 64 then h.reissue b (fun _ => true) else h
    let h := if draining || cause == 3 then
        match SMap.find? h.arc.lastDrain b with
        | some (ss, rs) => (h.suspectSlots ss).suspectRecs rs
        | none => h
      else h
    h.arcSettle

def execBayFault (i : HalfId) (p cause : Nat) (draining : Bool) (s : State) : Host.Outcome State Fault Refusal :=
  done (s.onMain i (fun h => if p < 66 then h.bayFault p cause draining else h))

/-- The spare with the lowest number takes a bay's logical index, or the index stays vacant (R160). -/
def Half.repairBay (h : Half) (p : Nat) : Half :=
  let l := h.bayLogical p
  if l = 0xFF then h
  else
    let h := h.fset ARC_BAY_STAT_LOGICAL 0xFF p
    let h : Half := { h with exy := { h.exy with recompute := true } }
    match bays.find? (fun q => h.bayState q == baySpare) with
    | some q =>
      (((h.fset ARC_BAY_STAT_STATE bayActive q).fset ARC_BAY_STAT_LOGICAL l q).raise (384 + q)).arcBayErr errARC_BAY_REPAIRED q
    | none => h.arcErr errARC_NO_SPARE

/-- A bay fails its self-test. (DEDUCED, log 47) -/
def Half.failBay (h : Half) (p : Nat) : Half :=
  (((h.fset ARC_BAY_STAT_STATE bayFailed p).fset ARC_BAY_STAT_CAUSE 4 p).bump ARC_BAY_STAT_FAULTS 1 p).raise (384 + p)

/-- Bays at a tick, with those that failed their self-test: the spares', and after containment that of all 66 (R160, R161). A FAILED bay that
passes is a spare again; a FENCED one stays so until reset of the half (Table ARC-8). (DEDUCED, log 47) -/
def Half.bayTick (h : Half) (failed : List Nat) : Half :=
  let was := h.arc.contained
  let h := h.modArc (fun a => { a with contained := false })
  let tested (p : Nat) : Bool := h.bayState p == baySpare || was
  let bad := bays.filter (fun p => failed.contains p && tested p)
  let back := bays.filter (fun p => was && h.bayState p == bayFailed && !failed.contains p)
  let h := h.fold bad (fun h p => h.failBay p)
  let h := h.fold back (fun h p => h.fset ARC_BAY_STAT_STATE baySpare p)
  let auto := h.flag ARC_CTL_AUTO_REPAIR
  let todo := bays.filter (fun p => (auto && bad.contains p && h.bayLogical p != 0xFF)
    || h.arc.repair.contains p || (auto && h.arc.fenced.contains p))
  let h := h.fold todo (fun h p => h.repairBay p)
  let h := if auto then h else h.fold bad (fun h p => h.fset ARC_BAY_STAT_LOGICAL 0xFF p)
  let h := h.modArc (fun a => { a with repair := [], fenced := a.fenced.filter (fun p => !todo.contains p && !bad.contains p) })
  let h := if was then { h with exy := { h.exy with recompute := true } } else h
  h.arcSettle

/-! ### Suspension, halts, the program store (R156, R162) -/

/-- R156: a write of SUSPEND. -/
def execArcSuspend (i : HalfId) (v : Bool) (s : State) : Host.Outcome State Fault Refusal :=
  done (s.onMain i (fun h => (h.fset ARC_CTL_SUSPEND (b2n v)).arcSettle))

/-- A write of ARC_DBG (R156): bays that the new word does not halt go on. A pass that runs when a halt of its bay is asked for is not the next
one. -/
def Half.dbgWrite (h : Half) (w : Word) : Half :=
  let asked (h : Half) (b : Nat) : Bool := h.flag ARC_DBG_HALT && h.fget ARC_DBG_BAY == b
  let was := asked h
  let h := h.putN ARC_DBG (w.toNat &&& 0x803FFFFF)
  let h := h.modPasses (fun ps => ps.map (fun p => if p.status == 1 && asked h p.bay && !was p.bay then { p with exempt := true } else p))
  let go := bays.filter (fun p => h.bayState p == bayHalted && !asked h (h.bayLogical p))
  (h.fold go (fun h p => h.fset ARC_BAY_STAT_STATE bayActive p)).arcSettle

def execArcHalt (i : HalfId) (w : Word) (s : State) : Host.Outcome State Fault Refusal :=
  done (s.onMain i (fun h => h.dbgWrite w))

/-- R156: the bay has run AT cycles of its next pass, and stops there with its cells as they stand. -/
def Half.haltReached (h : Half) : Half :=
  let b := h.fget ARC_DBG_BAY
  let n := h.fget ARC_DBG_AT
  match h.flag ARC_DBG_HALT, h.passOn b, h.bayOf b with
  | true, some p, some q =>
    if n < p.len && p.start ≤ p.posAt n && !p.exempt && h.bayState q == bayActive then
      ((h.modPasses (modFirst (· == p) (fun _ => h.passTo p (p.posAt n)))).fset ARC_BAY_STAT_STATE bayHalted q).arcStat
    else h
  | _, _, _ => h

def execBayHaltReached (i : HalfId) (s : State) : Host.Outcome State Fault Refusal :=
  done (s.onMain i Half.haltReached)

/-- The op lies in the current program of a running subarray (R162). -/
def Half.progLocked (h : Half) (n : Nat) : Bool :=
  h.flag ARC_CTL_RUN && (List.range 16).any (fun s =>
    h.fget ARC_SUB_PROG_BASE s ≤ n && n < h.fget ARC_SUB_PROG_BASE s + h.fget ARC_SUB_PROG_LEN s)

/-- R162: a program word. (DEDUCED, log 20) -/
def Half.progWrite (h : Half) (d : Word) : Half :=
  let a := h.fget ARC_PROG_ADDR_ADDR
  if h.progLocked (a / 4) then h.log (errLockedWrite 12)
  else (h.modArc (fun x => { x with prog := SMap.put 0 x.prog a d })).putN ARC_PROG_ADDR ((a + 1) % 16384)

def execArcProgDataWrite (i : HalfId) (d : Word) (s : State) : Host.Outcome State Fault Refusal :=
  done (s.onMain i (fun h => h.progWrite d))

/-- Repair of a fenced bay by command, at the next tick (R160). -/
def Half.orderRepair (h : Half) (p : Nat) : Half := h.modArc (fun a => { a with repair := p :: a.repair.filter (· != p) })

/-! ### Slot ops that wait (Table ARC-18) -/

/-- The op that the sequencer comes to names the slot and waits (R151). -/
def Half.opWaits (h : Half) (s : Nat) : Bool :=
  match h.curOp with
  | none => false
  | some (r, op) =>
    let names (bank : Bool) (slot count : Nat) : Bool := h.slotOf r bank slot ≤ s && s < h.slotOf r bank slot + count
    let free (bank : Bool) (slot count trec tcount : Nat) (except : Option Nat) : Bool :=
      h.drained (h.slotOf r bank slot) count trec tcount except && h.released (h.slotOf r bank slot) count
    match op with
    | .open_ bank _ slot count tcount trec => names bank slot count && !free bank slot count trec tcount none
    | .save bank bay cells tally slot trec count _ =>
      names bank slot count && !free bank slot count trec (if tally then count else 0) (if cells then some bay else none)
    | .restore bank bay cells tally slot trec count _ =>
      names bank slot count && !free bank slot count trec (if tally then count else 0) (if cells then some bay else none)
    | .close bank _ slot count => names bank slot count && !h.blockDrained r
    | _ => false

/-- Slot ops queued on a slot: passes, the folder's reading of closed blocks, and an op that waits for it. (DEDUCED, log 20) -/
def Half.slotPending (h : Half) (s : Nat) : Nat :=
  (h.arc.passes.filter (fun p => p.shape < 2 && (p.slot == s || p.trec / 2 == s))).length
    + (h.lta.blocks.filter (fun b => b.holds s)).length + b2n (h.opWaits s)

/-! ### What the folder and the post-processor free lets passes drain -/

/-- R181: the folder takes the next closed block. -/
def execFoldBlock (i : HalfId) (ecc : List (Nat × Bool)) (s : State) : Host.Outcome State Fault Refusal :=
  done (s.onMain i (fun h => (h.foldNext ecc).arcSettle))

/-- R28, R182. -/
def execFolderOverrun (i : HalfId) (s : State) : Host.Outcome State Fault Refusal :=
  done (s.onMain i (fun h => h.folderOverrun.arcSettle))

/-- R193. -/
def execLtaRunClear (i : HalfId) (s : State) : Host.Outcome State Fault Refusal :=
  done (s.onMain i (fun h => if h.flag LTA_CTL_RUN then h.ltaStop.arcSettle else h))

/-- R204. -/
def execBeamSampleProcess (i : HalfId) (ecc : List (Nat × Bool)) (s : State) : Host.Outcome State Fault Refusal :=
  done (s.onMain i (fun h => (h.takeHand ecc).arcSettle))

/-- R205. -/
def execBeamLate (i : HalfId) (s : State) : Host.Outcome State Fault Refusal :=
  done (s.onMain i (fun h => h.beamLate.arcSettle))

/-- R215. -/
def execBmfRunClear (i : HalfId) (s : State) : Host.Outcome State Fault Refusal :=
  done (s.onMain i (fun h => if h.flag BMF_CTL_RUN then h.bmfStop.arcSettle else h))

/-- Let the passes in flight finish, drain and spill, the folder taking what holds a spill buffer (R156, R157, R168). (DEDUCED, log 46) -/
def Half.finishPasses : Nat → Half → Half
  | 0, h => h
  | fuel + 1, h =>
    let h := h.fold h.logicalBays (fun h b => h.passEnd b 0 [])
    let h := h.fold ((h.arc.passes.filter (fun p => p.status == 3)).map (·.trec)) (fun h r => h.spill r)
    if !h.arc.passes.any (fun p => p.shape < 2 && 2 ≤ p.status) then h
    else Half.finishPasses fuel (h.foldNext []).arcSettle

end Sys2Proof.Machine
end

