-- ==== Sys2Proof/Machine/Capture.lean ====
section
/-! DEFINITION. Voltage capture rings (11_capture.md): records, feed states and commands, triggers, readout and
streaming. -/

namespace Sys2Proof.Machine

def Half.cap (h : Half) (v : Nat) : Cap := SMap.getD h.caps v Cap.reset

def Half.setCap (h : Half) (v : Nat) (f : Cap → Cap) : Half := { h with caps := SMap.modify h.caps v Cap.reset f }

/-- Feed states (Table CAP-2). -/
def capIdle : Nat := 0
def capArmed : Nat := 1
def capTriggered : Nat := 2
def capFrozen : Nat := 3
def capReading : Nat := 4
def capStreaming : Nat := 5

def Half.capState (h : Half) (v : Nat) : Nat := h.fget CAP_FSTAT_0_STATE v

def Half.capWriting (h : Half) (v : Nat) : Bool :=
  h.capState v == capArmed || h.capState v == capTriggered || h.capState v == capStreaming

/-- Z, bytes of a capture record (R218). -/
def Half.capZ (h : Half) (v : Nat) : Nat := cdiv (32 + h.fget CAP_FEED_2_NCH v * h.bps) 64 * 64

/-- Bytes of the feed's ring (R219). -/
def Half.capSize (h : Half) (v : Nat) : Nat := 2 ^ (20 + h.fget CAP_FEED_0_SZCODE v)

def Half.capBase (h : Half) (v : Nat) : Nat := h.getN CAP_FEED_3 v * 4096

/-- Records that the ring holds whole. -/
def Half.capDepth (h : Half) (v : Nat) : Nat := h.capSize v / h.capZ v

/-- The existing inputs of the feed's range (R217). -/
def Half.capInputs (h : Half) (v : Nat) : List Nat :=
  ((List.range (h.fget CAP_FEED_1_NQ v)).map (h.fget CAP_FEED_1_Q0 v + ·)).filter (fun q => (h.dense q).isSome)

def Half.capPosts (h : Half) (v : Nat) : Nat := h.fget CAP_FEED_4_POSTS v

/-- TSPEC of the feed (Table CAP-5). -/
def Half.capTspec (h : Half) (v : Nat) : Nat := h.getN CAP_FEED_6 v + h.fget CAP_FEED_7_TSPEC_HI v * 2 ^ 32

/-- SEQ of the next record, counted beyond 2^32. -/
def Half.capSeq (h : Half) (v : Nat) : Nat := (h.cap v).count

/-- A code as its bytes in the layout of R99. -/
def sampleBytes (b : Nat) (codes : List Nat) : List Byte := codes.flatMap (leBytes b)

/-- A capture record (Table CAP-1). -/
def Half.capRecord (h : Half) (v q n : Nat) (x : Spec) : List Byte :=
  let c0 := h.fget CAP_FEED_2_C0 v
  let nch := h.fget CAP_FEED_2_NCH v
  let fl := bits x.flags 4 4 * 4 + bits x.flags 1 1 * 2 + bits x.flags 0 0
  let head := leBytes 2 0x4352 ++ leBytes 1 1 ++ leBytes 1 (v * 16 + b2n h.fmt8 * 8 + fl) ++ leBytes 2 (h.inputIndex q)
    ++ leBytes 6 n ++ leBytes 2 (wrapBits 16 x.ns) ++ leBytes 2 x.fdly ++ leBytes 2 c0 ++ leBytes 2 nch
    ++ leBytes 4 (h.capSeq v) ++ leBytes 4 0
  let body := sampleBytes h.bps ((x.codes.drop c0).take nch)
  let bs := head ++ leBytes 4 (crc32c (head ++ body)) ++ body
  bs ++ leBytes (h.capZ v - bs.length) 0

/-- Write bytes into the feed's ring at a byte offset, going on at the base from the end (R219). -/
def Half.capStore (h : Half) (v ofs : Nat) (bs : List Byte) : Half :=
  let a := ofs % h.capSize v
  let fit := h.capSize v - a
  let h := h.memWrite (h.capBase v + a) (bs.take fit)
  if fit < bs.length then h.memWrite (h.capBase v) (bs.drop fit) else h

/-! ### Packets on a flow ring that have not been sent (R221, R226) -/

/-- Descriptors of a hardware producer's ring that no engine has taken, in chain order: control word, SRC, LEN. -/
def Half.chainLeft (h : Half) (ring : Nat) : List (Nat × Nat × Nat) :=
  let c := h.ctx ring
  let taken := match (h.eng ring).held with | some d => d.descs.length | none => 0
  (List.range ((ctxPidx c + 2 ^ 32 - ctxDidx c) % 2 ^ 32 - taken)).map (fun k =>
    let bs := memBytes h.hbm.mem (descSlot c (ctxDidx c + taken + k)) 32
    (fieldAt bs 0 8, fieldAt bs 16 8, fieldAt bs 24 4))

/-- Descriptors as the datagrams they form (R233). -/
def gramsOf (ds : List (Nat × Nat × Nat)) : List (List (Nat × Nat × Nat)) :=
  (ds.foldl (fun (acc : List (List (Nat × Nat × Nat)) × List (Nat × Nat × Nat)) d =>
    if bit d.1 62 then (acc.1, acc.2 ++ [d]) else (acc.1 ++ [acc.2 ++ [d]], [])) ([], [])).1

/-- The chain of a ring ends before descriptor `n`: the one before it has END, and nothing waits to be executed. -/
def Half.endChain (h : Half) (ring n : Nat) : Half :=
  let e := h.eng ring
  let c := setDbpend (h.ctx ring) false
  let a := descSlot c (n + 2 ^ 32 - 1)
  let h := if e.held.isSome || e.last.isSome then h.memWrite a (leBytes 8 (leNat (memBytes h.hbm.mem a 8) % 2 ^ 63 + 2 ^ 63)) else h
  let c := if ctxState c = ringRunning && e.held.isNone then
      (match e.last with | some a => setPos (setState c ringParked) a 1 | none => setState c ringIdle) else c
  (h.putCtx ring c).setEng ring (fun e => { e with
    bell := false
    held := e.held.map (fun d => { d with descs := d.descs.take (d.descs.length - 1) ++ (d.descs.getLast?.map (fun x => { x with ended := true })).toList }) })

/-- Take off a ring the datagrams whose header lies at a staging address in `gone`; the rest moves up. (DEDUCED, log 27) -/
def Half.cutChain (h : Half) (ring : Nat) (gone : List Nat) : Half :=
  let left := h.chainLeft ring
  let keep := ((gramsOf left).filter (fun g => !(g.head?.any (fun d => gone.contains d.2.1)))).flatten
  let c := h.ctx ring
  let first := ctxPidx c + 2 ^ 32 - left.length
  let h := h.fold keep.zipIdx (fun h (d, k) =>
    h.memWrite (descSlot c (first + k)) (leBytes 8 (d.1 % 2 ^ 63 + (if k + 1 = keep.length then 2 ^ 63 else 0))
      ++ leBytes 8 (descSlot c (first + k + 1)) ++ leBytes 8 d.2.1 ++ leBytes 4 d.2.2 ++ leBytes 4 0))
  let h := h.putCtx ring (putField (h.ctx ring) 72 4 ((first + keep.length) % 2 ^ 32))
  if keep.isEmpty then h.endChain ring first else h

/-- The ring, and the feed, of a header in the staging area. -/
def stageRing (a : Nat) : Nat := (a - headerStage) / 64 / 2 ^ 32 % 2 ^ 20
def stageFeed (a : Nat) : Nat := (a - headerStage) / 64 / 2 ^ 52

/-- Packets of a feed that satisfy `f` and that no engine has taken leave their rings unsent. -/
def Half.capUnsend (h : Half) (v : Nat) (f : Nat × Nat × Nat → Bool) : Half :=
  let held (a : Nat) : Bool := (h.eng (stageRing a)).held.any (fun d => d.descs.any (fun e => e.src == a))
  let gone := ((h.cap v).outs.filter (fun e => f e && !held e.1)).map (·.1)
  let h := h.fold (gone.map stageRing).eraseDups (fun h r => h.cutChain r gone)
  ({ h with stage := h.stage.filter (fun e => !gone.contains e.1) } : Half).setCap v (fun c => { c with outs := c.outs.filter (fun e => !gone.contains e.1) })

/-- A feed becomes FROZEN (Table CAP-8); what a STREAMING feed has not sent stays held (Table CAP-3). -/
def Half.capFreeze (h : Half) (v : Nat) (short : Bool) : Half :=
  let h := if h.capState v = capStreaming then h.capUnsend v (fun _ => true) else h
  let h := (h.fset CAP_FSTAT_0_STATE capFrozen v).setCap v (fun c => { c with trig := none, stopAt := none })
  (if short then h.fset CAP_FSTAT_0_SHORT 1 v else h).raise (832 + v)

/-- Every existing input has written a record at or past σ_t + POSTS − 1 (R223). -/
def Half.capMet (h : Half) (v sigma : Nat) : Bool :=
  h.capPosts v == 0 || (h.capInputs v).all (fun q =>
    match SMap.find? (h.cap v).lastSpec q with
    | some s => sigma + h.capPosts v ≤ s + 1
    | none => false)

/-- A trigger is taken (R222). -/
def Half.capTrigger (h : Half) (v sigma : Nat) : Half :=
  let late : Bool := match (h.cap v).recs with
    | r :: _ => decide (sigma < r.spec)
    | [] => false
  let h := ((h.fset CAP_FSTAT_0_STATE capTriggered v).fset CAP_FSTAT_0_TRIGD 1 v).putN CAP_FSTAT_3 (sigma % 2 ^ 32) v
  let h := (h.fset CAP_FSTAT_4_TRIG_HI (sigma / 2 ^ 32) v).setCap v (fun c => { c with trig := some sigma })
  let h := if late then (h.fset CAP_FSTAT_0_TLATE 1 v).log errCAP_TRIG_LATE else h
  if h.capMet v sigma then h.capFreeze v false else h

/-! ### Packets (R225, R226) -/

/-- Whole records in one packet; 0 when one record takes several packets. -/
def Half.capPerPacket (h : Half) (v : Nat) : Nat := 8192 / h.capZ v

/-- Header fields of a packet that starts with record `r` (R225). -/
def Half.capHeader (h : Half) (v : Nat) (r : CapRec) (flags : Nat) : PHeader :=
  { type := 6, sub := h.fget CAP_FEED_0_SUB v, prod := h.fget CAP_FEED_0_PROD v, flags := flags, start := r.spec,
    intlen := 0, index := r.seq, ochan := h.fget CAP_FEED_2_C0 v }

/-- The part of the ring that a packet carries, as one or two runs of HBM addresses. -/
def Half.capRuns (h : Half) (v start len : Nat) : List (Nat × Nat) :=
  let a := start % h.capSize v
  let fit := h.capSize v - a
  if len ≤ fit then [(h.capBase v + a, len)] else [(h.capBase v + a, fit), (h.capBase v, len - fit)]

/-- Offer one packet of `cnt` records from `r` on to the feed's ring (R239): the header's descriptor, then those of the records, with the
CRC on the last; it is dropped where not all of them find room. (DEDUCED, log 27) -/
def Half.capPacket (h : Half) (v start len : Nat) (r : CapRec) (cnt : Nat) (continuation : Bool) : Half :=
  let ring := h.fget CAP_FEED_8_FLOW v
  let runs := h.capRuns v start len
  let (bad, h) := runs.foldl (fun acc p => let r := acc.2.memRead p.1 p.2; (acc.1 || r.1.2, r.2)) (false, h)
  let h := if bad then h.log errCAP_ECC else h
  let incomplete := bad || h.flag CAP_FSTAT_0_SHORT v
  let header := h.headerBytes (h.capHeader v r (b2n incomplete + 2 * b2n continuation)) len (h.nextSeq ring) ring
  let h := h.offerSeq ring
  let n := runs.length
  if h.ringRoom ring < n + 1 then h.dropOffered ring
  else
    let stage := headerStage + ((v * 2 ^ 20 + ring) * 2 ^ 32 + ctxPidx (h.ctx ring)) * 64
    let h := ({ h with stage := SMap.insert h.stage stage header } : Half).setCap v (fun c => { c with outs := c.outs ++ [(stage, r.seq, cnt)] })
    let crc := 2 ^ 61
    let more := 2 ^ 62
    let h := h.appendDesc ring (crc + more + 2 ^ 60) stage header.length
    let h := h.fold runs.zipIdx (fun h (p, k) => h.appendDesc ring (crc + (if k + 1 = n then 2 ^ 59 else more)) p.1 p.2)
    h.bell ring

/-- Send the pieces of record `r` from byte `ofs`, 8,192 bytes a packet; all but the last carry the continuation flag. -/
def Half.capSplit : Nat → Half → Nat → CapRec → Nat → Half
  | 0, h, _, _, _ => h
  | fuel + 1, h, v, r, ofs =>
    let z := h.capZ v
    if z ≤ ofs then h
    else
      let len := min 8192 (z - ofs)
      capSplit fuel (h.capPacket v (r.seq * z + ofs) len r 1 (ofs + len < z)) v r (ofs + len)

/-- Send the records of SEQ `seq` to `seq + cnt − 1` as one packet, or as the packets of one long record. -/
def Half.capSend (h : Half) (v seq cnt : Nat) : Half :=
  match (h.cap v).recs.find? (fun r => r.seq == seq) with
  | none => h
  | some r =>
    if h.capPerPacket v = 0 then h.capSplit 64 v r 0 else h.capPacket v (seq * h.capZ v) (cnt * h.capZ v) r cnt false

/-- Cut a run of SEQs into packets. -/
def capCut : Nat → Nat → Nat → Nat → List (Nat × Nat)
  | 0, _, _, _ => []
  | fuel + 1, per, seq, cnt =>
    if cnt = 0 then []
    else let n := min (max per 1) cnt; (seq, n) :: capCut fuel per (seq + n) (cnt - n)

/-- Send full packets of a STREAMING feed, or with `all` whatever is unsent (R226). -/
def Half.capStream : Nat → Half → Nat → Bool → Half
  | 0, h, _, _ => h
  | fuel + 1, h, v, all =>
    let per := max (h.capPerPacket v) 1
    let left := h.capSeq v - (h.cap v).sent
    if h.capState v = capStreaming && (per ≤ left || (all && 0 < left)) then
      let n := min per left
      capStream fuel ((h.capSend v (h.cap v).sent n).setCap v (fun c => { c with sent := c.sent + n })) v all
    else h

/-- Record `x` of a STREAMING feed is overwritten: if it has not been sent it is dropped, and the records that stood behind it in a packet
are packed again (R226). (DEDUCED, log 27) -/
def Half.capOverwrite (h : Half) (v x : Nat) : Half :=
  let mine (e : Nat × Nat × Nat) : Bool := e.2.1 ≤ x && x < e.2.1 + e.2.2
  let n := (h.cap v).outs.length
  let g := h.capUnsend v (fun e => mine e && h.capPerPacket v = 0)
  let g := if h.capPerPacket v != 0 && ((h.capUnsend v mine).cap v).outs.length != n then h.capUnsend v (fun _ => true) else g
  let taken := (g.cap v).outs.length != n
  if taken || (h.cap v).sent ≤ x then
    let g := g.setCap v (fun c => { c with sent := if taken && h.capPerPacket v = 0 then c.sent else x + 1 })
    ((g.bumpWord CAP_FSTAT_6 1 v).raise 864).log errCAP_OVERRUN
  else h

/-- Feed v may write the record of y-spectrum `n`: RUN is 1, or was cleared within it (R228). -/
def Half.capMayWrite (h : Half) (v n : Nat) : Bool := h.capWriting v && (if (h.cap v).stopAt.isNone then h.flag CAP_CTL_RUN else (h.cap v).stopAt.any (n ≤ ·))

/-- A feed that RUN has stopped freezes once no input can write any more: `n` is the y-spectrum that has come (R228). -/
def Half.capSettle (h : Half) (v n : Nat) : Half :=
  match (h.cap v).stopAt with
  | none => h
  | some m =>
    if m < n || (h.capInputs v).all (fun q => (SMap.find? (h.cap v).lastSpec q).any (m ≤ ·)) then h.capFreeze v (h.capState v == capTriggered) else h

/-! ### Writing records (R217, R219) -/

/-- Store the record of a spectrum that the requantiser emits, in one feed. -/
def Half.capWrite (h : Half) (q n : Nat) (x : Spec) (v : Nat) : Half :=
  if !(h.capWriting v && (h.capInputs v).contains q) then h
  else if !h.capMayWrite v n then h.capSettle v n
  else
    let seq := h.capSeq v
    let depth := h.capDepth v
    let h := h.capStore v (seq * h.capZ v) (h.capRecord v q n x)
    let h := h.putN CAP_FSTAT_1 ((seq + 1) % 2 ^ 32) v
    let h := h.setCap v (fun c =>
      let recs := c.recs ++ [⟨seq, q, n⟩]
      { c with recs := recs.drop (recs.length - depth), count := seq + 1, lastSpec := SMap.insert c.lastSpec q n })
    let h := h.putN CAP_FSTAT_2 (h.cap v).recs.length v
    let first := h.flag CAP_FEED_5_TSPEC_EN v && h.capTspec v ≤ n && (h.cap v).matched != some (h.capTspec v)
    let h := if first then h.setCap v (fun c => { c with matched := some (h.capTspec v) }) else h
    let h := if first && h.capState v != capArmed then h.bumpWord CAP_FSTAT_7 1 v else h
    let h := if h.capState v = capStreaming then
        (if depth ≤ seq then h.capOverwrite v (seq - depth) else h).capStream (h.cap v).recs.length v false
      else if first && h.capState v = capArmed then h.capTrigger v (h.capTspec v)
      else match (h.cap v).trig with
        | some sigma => if h.capState v = capTriggered && h.capMet v sigma then h.capFreeze v false else h
        | none => h
    h.capSettle v n

/-- The capture tap (R217): every feed, as the spectrum is emitted. -/
def Half.capTap (h : Half) (q n : Nat) (x : Spec) : Half := h.fold (List.range 16) (fun h v => h.capWrite q n x v)

/-! ### Commands (R221, Table CAP-3) -/

def Half.capIgnore (h : Half) (v : Nat) : Half := h.bumpWord CAP_FSTAT_5 1 v

/-- The feed's geometry is one that ARM takes (R224). -/
def Half.capRangeOk (h : Half) (v : Nat) : Bool :=
  let nq := h.fget CAP_FEED_1_NQ v
  let nch := h.fget CAP_FEED_2_NCH v
  h.capBase v % h.capSize v == 0 && nq != 0 && h.fget CAP_FEED_1_Q0 v + nq ≤ 256 && nch != 0 && nch % (64 / h.bps) == 0
    && h.fget CAP_FEED_2_C0 v + nch ≤ h.chans && (h.capInputs v).length * h.capPosts v * h.capZ v ≤ h.capSize v

/-- Nothing is held any more, and nothing of it is sent. -/
def Half.capClear (h : Half) (v : Nat) : Half :=
  (((((h.capUnsend v (fun _ => true)).setCap v (fun _ => Cap.reset)).putN CAP_FSTAT_2 0 v).fset CAP_FSTAT_0_TLATE 0 v).fset CAP_FSTAT_0_SHORT 0 v).fset CAP_FSTAT_0_TRIGD 0 v

def Half.capArm (h : Half) (v : Nat) : Half :=
  if h.capState v = capReading then (h.capIgnore v).log errCAP_BUSY
  else if !h.capRangeOk v then (h.capIgnore v).log errCAP_CFG_RANGE
  else ((h.capClear v).putN CAP_FSTAT_1 0 v).fset CAP_FSTAT_0_STATE (if h.flag CAP_FEED_0_MODE v then capStreaming else capArmed) v

/-- σ_t of a command or event: one plus the highest SPECTRUM written; `open_` stands for it where none is written, which the
spec does not say (R222). -/
def Half.capSigma (h : Half) (v open_ : Nat) : Nat :=
  match (h.cap v).lastSpec with
  | [] => open_ % 2 ^ 48
  | xs => (xs.map (·.2)).foldl max 0 + 1

/-- A trigger arrives (R222). -/
def Half.capTrigArrive (h : Half) (v open_ : Nat) : Half :=
  if h.capState v = capArmed then h.capTrigger v (h.capSigma v open_) else h.bumpWord CAP_FSTAT_7 1 v

def Half.capTrigCmd (h : Half) (v open_ : Nat) : Half :=
  let h := if h.capState v = capArmed then h else h.capIgnore v
  h.capTrigArrive v open_

def Half.capFreezeCmd (h : Half) (v : Nat) : Half :=
  let st := h.capState v
  if st = capTriggered then h.capFreeze v (!(h.cap v).trig.any (fun sigma => h.capMet v sigma))
  else if st = capArmed || st = capStreaming then h.capFreeze v false
  else h.capIgnore v

/-- The held records that RSEQ and RCNT ask for, every one where RCNT is 0 (R225): the first SEQ and their number. RSEQ names the record
nearest to those held, as SEQ wraps. (DEDUCED, log 27) -/
def Half.capAsked (h : Half) (v : Nat) : Nat × Nat :=
  match (h.cap v).recs with
  | [] => (0, 0)
  | r :: rs =>
    let first := r.seq
    let last := first + rs.length + 1
    if h.getN CAP_FEED_10 v = 0 then (first, last - first)
    else
      let ahead := (h.getN CAP_FEED_9 v + 2 ^ 32 - first % 2 ^ 32) % 2 ^ 32
      let start : Int := if ahead < 2 ^ 31 then (first + ahead : Nat) else (first + ahead : Nat) - (2 ^ 32 : Nat)
      let a := max first start.toNat
      let b := min last (start + h.getN CAP_FEED_10 v).toNat
      (a, b - a)

def Half.capReadCmd (h : Half) (v : Nat) : Half :=
  let st := h.capState v
  if st = capFrozen then
    let (a, n) := h.capAsked v
    (h.fset CAP_FSTAT_0_STATE capReading v).fold (capCut n (h.capPerPacket v) a n) (fun h p => h.capSend v p.1 p.2)
  else if st = capArmed || st = capTriggered then (h.capIgnore v).log errCAP_BUSY
  else h.capIgnore v

/-- RELEASE: the contents go; a readout stops at the end of the datagram in progress, then the feed is IDLE (Table CAP-3, R240). -/
def Half.capReleaseCmd (h : Half) (v : Nat) : Half :=
  if h.capState v = capIdle then h
  else if h.capState v = capReading then
    let h := h.capUnsend v (fun _ => true)
    if (h.cap v).outs.isEmpty then (h.capClear v).fset CAP_FSTAT_0_STATE capIdle v else h.setCap v (fun c => { c with releasing := true })
  else (h.capClear v).fset CAP_FSTAT_0_STATE capIdle v

/-- The datagram whose header lay at a staging address has been moved. -/
def Half.capMoved (h : Half) (a : Nat) : Half :=
  let v := stageFeed a
  let h := h.setCap v (fun c => { c with outs := c.outs.filter (fun e => e.1 != a) })
  if (h.cap v).releasing && (h.cap v).outs.isEmpty then (h.capClear v).fset CAP_FSTAT_0_STATE capIdle v else h

/-- R221: ARM. -/
def execCapArm (i : HalfId) (v : Nat) (s : State) : Host.Outcome State Fault Refusal :=
  done (s.onMain i (fun h => if v < 16 then h.capArm v else h))

/-- R222: TRIG. -/
def execCapTrig (i : HalfId) (v : Nat) (s : State) : Host.Outcome State Fault Refusal :=
  let (w, s) := s.free
  done (s.onMain i (fun h => if v < 16 then h.capTrigCmd v w else h))

/-- R221: FREEZE. -/
def execCapFreeze (i : HalfId) (v : Nat) (s : State) : Host.Outcome State Fault Refusal :=
  done (s.onMain i (fun h => if v < 16 then h.capFreezeCmd v else h))

/-- R225: READ. -/
def execCapRead (i : HalfId) (v : Nat) (s : State) : Host.Outcome State Fault Refusal :=
  done (s.onMain i (fun h => if v < 16 then h.capReadCmd v else h))

/-- R221: RELEASE. -/
def execCapRelease (i : HalfId) (v : Nat) (s : State) : Host.Outcome State Fault Refusal :=
  done (s.onMain i (fun h => if v < 16 then h.capReleaseCmd v else h))

/-- R222: the event source TRIGSRC of the feed becomes pending. -/
def execCapEventTrigger (i : HalfId) (v : Nat) (s : State) : Host.Outcome State Fault Refusal :=
  let (w, s) := s.free
  done (s.onMain i (fun h => if v < 16 && h.fget CAP_FEED_5_TRIGSRC v < 1024 then h.capTrigArrive v w else h))

/-- R225: the last packet of a readout has been handed to the Tramway: its datagram has been moved. (DEDUCED, log 27) -/
def execCapReadDone (i : HalfId) (v : Nat) (s : State) : Host.Outcome State Fault Refusal :=
  done (s.onMain i (fun h =>
    if v < 16 && h.capState v == capReading && (h.cap v).outs.isEmpty && !(h.cap v).releasing then
      (h.fset CAP_FSTAT_0_STATE capFrozen v).raise (848 + v)
    else h))

/-- A writing feed is frozen from outside: SHORT if it was TRIGGERED (R227). -/
def Half.capStop (h : Half) (v : Nat) : Half :=
  if h.capWriting v then h.capFreeze v (h.capState v == capTriggered) else h

/-- R228: clearing RUN freezes every writing feed at the next spectrum boundary: inputs that have still to write the highest y-spectrum
written do so. (DEDUCED, log 27) -/
def Half.capRunStop (h : Half) : Half :=
  (h.fset CAP_CTL_RUN 0).fold (List.range 16) (fun h v =>
    if !h.capWriting v then h
    else match (h.cap v).lastSpec.map (·.2) with
      | [] => h.capStop v
      | xs => let m := xs.foldl max 0; (h.setCap v (fun c => { c with stopAt := some m })).capSettle v m)

/-- R228. -/
def execCapRunClear (i : HalfId) (s : State) : Host.Outcome State Fault Refusal := done (s.onMain i (fun h => h.capRunStop))

/-- The tick at which a TRIGGERED feed freezes whatever it holds (R223). -/
def Half.capBound (h : Half) (v sigma : Nat) : Nat := (sigma + h.capPosts v - 1) / h.fspec + h.depth + 1

/-- R223: a TRIGGERED feed reaches its freeze tick. -/
def execCapFreezeBound (i : HalfId) (v : Nat) (s : State) : Host.Outcome State Fault Refusal :=
  done (s.onMain i (fun h =>
    match (h.cap v).trig with
    | some sigma =>
      if v < 16 && h.capState v == capTriggered && h.capBound v sigma ≤ h.frame then h.capFreeze v (!h.capMet v sigma) else h
    | none => h))

/-- Feeds at tick `k`: those that RUN has stopped freeze (R228); in STREAMING packets whose last record's y-frame has passed are released
(R226). -/
def Half.capTick (h : Half) (k : Nat) : Half :=
  h.fold (h.caps.map (·.1)) (fun h v =>
    let h := if (h.cap v).stopAt.isSome then h.capStop v else h
    match (h.cap v).recs.getLast? with
    | some r => if r.spec / h.fspec < k then h.capStream (h.cap v).recs.length v true else h
    | none => h)

/-- R232: an engine has moved a ring's datagram into the lane FIFO, writes the records due and releases the ring. -/
def execDatagramDone (i : HalfId) (r : Nat) (s : State) : Host.Outcome State Fault Refusal :=
  done (s.onMain i (fun h =>
    match (h.eng r).held with
    | none => h
    | some d =>
      let h := (h.gramDone r d).countBusy.countOut
      if d.status = 2 || d.status = 3 then h
      else h.fold ((d.descs.map (·.src)).filter (headerStage ≤ ·)) Half.capMoved))

end Sys2Proof.Machine
end

