-- ==== Sys2Proof/Machine/Hbm.lean ====
section
/-! DEFINITION. The HBM controllers (R273 to R293): queues and their order, page policy, refresh and row disturbance,
outcomes of reads, fencing, re-lay, and the responses that go back through the Roundabout (R296). -/

namespace Sys2Proof.Machine

/-! ### Transactions in flight (R296) -/

/-- The whole transaction completes towards its unit, or towards the other half's flight that it serves (R294, R304). -/
def State.completeHere (s : State) (i : HalfId) (seq : Nat) (data : List Byte) (poisoned err : Bool) : State :=
  match (s.half i).rdb.flights.find? (fun f => f.seq == seq) with
  | none => s
  | some f => s.setHalf i (((s.half i).landFlight f).emit (.completion f.master f.id data poisoned err))

def State.complete (s : State) (i : HalfId) (seq : Nat) (data : List Byte) (poisoned err : Bool) : State :=
  match (s.half i).rdb.flights.find? (fun f => f.seq == seq) with
  | none => s
  | some f =>
    match f.origin with
    | none => s.completeHere i seq data poisoned err
    | some o => (s.setHalf i ((s.half i).landFlight f)).completeHere i.other o data poisoned err

/-- One unit or one part of a transaction comes back; a response with no flight is discarded (R305). -/
def State.respond (s : State) (i : HalfId) (seq key : Nat) (data : List Byte) (poisoned : Bool) : State :=
  match (s.half i).rdb.flights.find? (fun f => f.seq == seq) with
  | none => s
  | some f =>
    let f := { f with left := f.left - 1, got := if f.req.write then f.got else SMap.insert f.got key data, bad := f.bad || poisoned }
    if f.left = 0 then s.complete i seq (f.got.flatMap (·.2)) f.bad false
    else s.setHalf i ((s.half i).modRdb (fun r => { r with flights := r.flights.map (fun g => if g.seq == seq then f else g) }))

/-- Responses in turn. -/
def State.responds (s : State) (i : HalfId) (rs : List (Nat × Nat × List Byte × Bool)) : State :=
  rs.foldl (fun s r => s.respond i r.1 r.2.1 r.2.2.1 r.2.2.2) s

/-! ### Queues, banks and pages (R274, R279, R280) -/

def Half.pcQueue (h : Half) (p : Nat) : List QTxn := SMap.getD h.hbm.queue p []

/-- INFLIGHT follows the queue (Table HBM-10). -/
def Half.setQueue (h : Half) (p : Nat) (q : List QTxn) : Half :=
  (h.modHbm (fun m => { m with queue := if q.isEmpty then SMap.erase m.queue p else SMap.insert m.queue p q })).fset
    HBM_PC_1_INFLIGHT q.length p

/-- Bank and row of a local byte (R274): 1 KiB pages, banks below the row. -/
def bankOf (lbyte : Nat) : Nat := lbyte / 1024 % (Config.hbmBanks + 1)
def rowOf (lbyte : Nat) : Nat := lbyte / 1024 / (Config.hbmBanks + 1)

/-- Key of a bank. -/
def bankKey (p bank : Nat) : Nat := p * 2 ^ 16 + bank

/-- The transaction hits the open row of its bank. -/
def Half.rowHit (h : Half) (p : Nat) (x : QTxn) : Bool :=
  SMap.find? h.hbm.rows (bankKey p (bankOf x.lbyte)) == some (rowOf x.lbyte)

/-- The activate table after an activate of a row (R283). -/
def actTable (t : List (Nat × Nat)) (row : Nat) : List (Nat × Nat) :=
  match t.findIdx? (fun e => e.1 == row) with
  | some n => t.modify n (fun e => (e.1, e.2 + 1))
  | none =>
    if t.length < 16 then t ++ [(row, 1)]
    else
      let least := t.foldl (fun m e => min m e.2) (t.headD (0, 0)).2
      match t.findIdx? (fun e => e.2 == least) with
      | some n => t.modify n (fun e => (row, e.2 + 1))
      | none => t

/-- The RFM that an entry at THRESH calls for before the next activate (R283). -/
def Half.rfm (h : Half) (p bank : Nat) : Half :=
  let key := bankKey p bank
  let t := SMap.getD h.hbm.acts key []
  match t.findIdx? (fun e => h.fget HBM_RH_CFG_THRESH ≤ e.2) with
  | none => h
  | some n =>
    let k := SMap.getD h.hbm.rfms key 0 + 1
    let h := h.modHbm (fun m => { m with acts := SMap.insert m.acts key (t.modify n (fun e => (e.1, 0))), rfms := SMap.insert m.rfms key k })
    let h := (h.bumpWord HBM_PC_7 1 p).emit (.bankOp p bank 1)
    if h.fget HBM_RH_CFG_RFM_MAX < k then h.log errHBM_RFM_STORM p else h

/-- A transaction is issued to the DRAM: its row is activated unless open, and closed again as POLICY says (R280, R283). -/
def Half.issue (h : Half) (p : Nat) (x : QTxn) : Half :=
  let bank := bankOf x.lbyte
  let key := bankKey p bank
  let h := if h.rowHit p x then h
    else
      let h := h.rfm p bank
      h.modHbm (fun m => { m with acts := SMap.modify m.acts key [] (fun t => actTable t (rowOf x.lbyte)), rows := SMap.insert m.rows key (rowOf x.lbyte) })
  if h.fget HBM_PC_0_POLICY p = 1 && !x.hint then h.modHbm (fun m => { m with rows := SMap.erase m.rows key }) else h

/-- All bytes of a unit enabled. -/
def beAll : Nat := 2 ^ 64 - 1

/-- Two accesses overlap (R281): same copy of the same unit, with a byte in common. -/
def QTxn.overlaps (x y : QTxn) : Bool := x.unit == y.unit && x.copy == y.copy && x.be &&& y.be != 0

/-- The transaction at place `n` must wait for an older one of the queue (R281). -/
def blockedAt (q : List QTxn) (n : Nat) : Bool :=
  match q[n]? with
  | none => true
  | some x => (q.take n).any (fun y => y.write != x.write && x.overlaps y)

/-- Older than the age limit (R279). -/
def QTxn.aged (x : QTxn) (h : Half) (p now : Nat) : Bool := max 1 (h.fget HBM_PC_0_AGE p) * 64 < now - x.since

/-- The read that is issued next (R279): one past its age, else a row hit, else any, the oldest of each. (DEDUCED, log 30) -/
def Half.nextRead (h : Half) (p now : Nat) : Option Nat :=
  let q := h.pcQueue p
  let free := (List.range q.length).filter (fun n => !blockedAt q n && !(q[n]?).any (·.write))
  match free.find? (fun n => (q[n]?).any (fun x => x.aged h p now)) with
  | some n => some n
  | none =>
    match free.find? (fun n => (q[n]?).any (h.rowHit p)) with
    | some n => some n
    | none => free.head?

/-- Issue the writes that go before the next read (R279): past their age and older than any aged read, in a batch from 48
down to 16, or all while no read waits. -/
def Half.drainWrites (now p : Nat) : Nat → Half → Half
  | 0, h => h
  | fuel + 1, h =>
    let q := h.pcQueue p
    let writes := (q.filter (·.write)).length
    let batch := if 48 ≤ writes then true else if writes ≤ 16 then false else h.hbm.batch.contains p
    let h := h.modHbm (fun m => { m with batch := if batch then p :: m.batch.filter (· != p) else m.batch.filter (· != p) })
    let ready := (List.range q.length).filter (fun n => !blockedAt q n && (q[n]?).any (·.write))
    let aged := (List.range q.length).find? (fun n => !blockedAt q n && (q[n]?).any (fun x => x.aged h p now))
    let pick := match aged with
      | some n => if (q[n]?).any (·.write) then some n else none
      | none => if batch || (h.nextRead p now).isNone then ready.head? else none
    match pick with
    | none => h
    | some n =>
      match q[n]? with
      | none => h
      | some x => Half.drainWrites now p fuel ((h.issue p x).setQueue p (q.eraseIdx n))

/-- What the controller of pseudo-channel `p` issues of its own accord by `now`. -/
def Half.settleQueue (h : Half) (p now : Nat) : Half := Half.drainWrites now p ((h.pcQueue p).length + 1) h

/-! ### Arrival at a controller (R276, R281, R288) -/

/-- Bytes of memory at a unit. -/
def Half.unitBytes (h : Half) (u : Nat) : List Byte := memBytes h.hbm.mem (u * 64) 64

/-- Write the enabled bytes of a unit of copy `c`; a unit written whole holds a good word again. (DEDUCED, log 30) -/
def Half.unitWrite (h : Half) (u c be : Nat) (data : List Byte) : Half :=
  let old := h.unitBytes u
  let new := (List.range 64).map (fun j => if bit be j then data.getD j 0 else old.getD j 0)
  h.modHbm (fun m => { m with mem := SMap.putRun unwrittenByte m.mem (u * 64) new
                              lost := if be = beAll then m.lost.filter (· != u) else m.lost
                              poison := if be = beAll then m.poison.filter (· != 2 * u + c) else m.poison })

/-- Local byte of an address on copy `c` of its region (R274, R275). -/
def Half.localByte (h : Half) (a c : Nat) : Nat :=
  match h.regionOf a with
  | none => a
  | some r =>
    let o := a - h.getN HBM_REGION_1 r * 4096
    let n := (SMap.getD h.hbm.lays r []).length
    h.fget HBM_REGION_3_PCBASE r * 4096 + c * h.fget HBM_REGION_4_EXT r * 2048 + o / 256 / n * 256 + o % 256

/-- One unit arrives at live pseudo-channel `p`, as copy `c`; the answer lists responses due at once. A read that a queued
write covers whole is forwarded, one that overlaps queued writes waits for them (R281). (DEDUCED, log 30) -/
def Half.arrive (h : Half) (flight p c u be now : Nat) (write hint : Bool) (data : List Byte) : Half × List (Nat × Nat × List Byte × Bool) :=
  let q := h.pcQueue p
  let x : QTxn := ⟨flight, write, u, if write then be else beAll, h.localByte (u * 64) c, c,
    if write then data else h.unitBytes u, h.hbm.poison.contains (2 * u + c) || h.hbm.lost.contains u, hint, now⟩
  if write then
    ((((h.unitWrite u c x.be data).setQueue p (q ++ [x])).settleQueue p now), [(flight, u, [], false)])
  else
    match (q.filter (fun y => y.write && x.overlaps y)).getLast? with
    | some y =>
      if y.be = beAll then (h.bumpWord HBM_PC_5 1 p, [(flight, u, x.data, x.poison)])
      else (((h.bumpWord HBM_PC_6 1 p).setQueue p (q ++ [x])).settleQueue p now, [])
    | none => ((h.setQueue p (q ++ [x])).settleQueue p now, [])

/-- The bytes, enables and address of beat `k` of a burst. -/
def beatOf (x : Txn) (k : Nat) : Nat × Nat × List Byte := (x.addr / 64 + k, x.be / 2 ^ (64 * k) % 2 ^ 64, slice x.data (64 * k) 64)

/-- A burst reaches the controller of pseudo-channel `p`: a fenced one discards writes and answers reads poisoned (R288). -/
def State.hbmAccept (s : State) (i : HalfId) (p now : Nat) (r : Req) : State :=
  (List.range r.req.beats).foldl (fun s k =>
    let h := s.half i
    let b := beatOf r.req k
    let c := if (h.addrPcs (b.1 * 64)).head? == some p then 0 else 1
    if h.pcLive p then
      let a := h.arrive r.flight p c b.1 b.2.1 now r.req.write r.req.hint b.2.2
      (s.setHalf i a.1).responds i (if r.req.write then [] else a.2)
    else if r.req.write then s
    else s.respond i r.flight b.1 (List.replicate 64 0) true) s
  |> fun s => if r.req.write then s.respond i r.flight p [] false else s

/-- Room for a burst in a pseudo-channel's queue (R279). -/
def Half.pcRoom (h : Half) (p beats : Nat) : Bool := (h.pcQueue p).length + beats ≤ 256

/-! ### Bursts of a master (R274 to R276, R295) -/

/-- Cut a burst at 256-byte granules (R295): first beat and beats of each part. -/
def burstParts (addr beats : Nat) : List (Nat × Nat) :=
  (granules addr (beats * 64)).map (fun g => ((g.1 - addr) / 64, cdiv g.2 64))

def partOf (x : Txn) (b n : Nat) : Txn :=
  { x with addr := x.addr + 64 * b, beats := n, be := x.be / 2 ^ (64 * b) % 2 ^ (64 * n), data := slice x.data (64 * b) (64 * n) }

/-- The ports to which a burst inside one granule goes: a mirrored write to both copies, a read of a fenced first copy to the
second (R275). -/
def Half.burstPorts (h : Half) (x : Txn) : List Nat :=
  match h.addrPcs x.addr with
  | p :: q :: _ => if x.write then [p, q] else if h.pcLive p then [p] else [q]
  | ps => ps

/-- The second copy, where it is live, serves reads of a fenced first copy, unit by unit (R275). -/
def Half.countMirror (h : Half) (x : Txn) : Half :=
  match h.addrPcs x.addr with
  | p :: q :: _ => if x.write || h.pcLive p || !h.pcLive q then h else h.fold (List.range x.beats) (fun h _ => h.mirrorFix p)
  | _ => h

/-- The hint that a master's transaction carries: the management cores, PCIe and the bridge always send 0 (R280). The other masters give it
with the transaction. (DEDUCED, log 30) -/
def hintOf (master : Nat) (hint : Bool) : Bool := master < 5 && hint

/-- A burst inside one granule is issued: to its ports, or answered at once where its address is unmapped (R276). -/
def State.hbmIssue (s : State) (i : HalfId) (master qos since ready : Nat) (origin : Option Nat) (x : Txn) : State :=
  let x := { x with hint := hintOf master x.hint }
  let h := s.half i
  let seq := h.rdb.next
  let ports := h.burstPorts x
  let f : Flight := ⟨seq, master, 0, x, false, origin, if x.write then max 1 ports.length else x.beats, [], false⟩
  let reqs := ports.map (fun p => (⟨seq, p, master, qos, since, ready, x⟩ : Req))
  let h := ((h.countMirror x).modRdb (fun r => { r with next := seq + 1 })).launch f reqs
  if ports.isEmpty then
    (s.setHalf i h.noRegion).complete i seq (if x.write then [] else List.replicate (64 * x.beats) 0) (!x.write) false
  else s.setHalf i h

/-! ### Fencing (R287 to R289) -/

/-- The queue of a fenced pseudo-channel empties: reads complete poisoned, or go to the second copy where there is one; writes are
discarded (R288, R275). -/
def State.flushQueue (s : State) (i : HalfId) (p : Nat) : State :=
  let h := s.half i
  let q := h.pcQueue p
  (q.filter (fun x => !x.write)).foldl (fun s x =>
    match (s.half i).addrPcs (x.unit * 64) with
    | a :: b :: _ =>
      if a == p && x.copy == 0 && (s.half i).pcLive b then
        let r := ((s.half i).mirrorFix p).arrive x.flight b 1 x.unit beAll x.since false x.hint []
        (s.setHalf i r.1).responds i r.2
      else s.respond i x.flight x.unit (List.replicate 64 0) true
    | _ => s.respond i x.flight x.unit (List.replicate 64 0) true) (s.setHalf i (h.setQueue p []))

/-- Pseudo-channels that are not live and still hold a queue answer it (R288). -/
def State.flushDead (s : State) (i : HalfId) : State :=
  (((s.half i).hbm.queue.map (·.1)).filter (fun p => !(s.half i).pcLive p)).foldl (fun s p => s.flushQueue i p) s

/-- A fence, and the queues that it empties (R288). -/
def State.fence (s : State) (i : HalfId) (p cause : Nat) (inWindow : Bool) : State :=
  (s.setHalf i ((s.half i).fence p cause inWindow)).flushDead i

/-- A fault that fences where AUTO_FENCE is 1 (R287). -/
def State.autoFence (s : State) (i : HalfId) (p cause : Nat) (inWindow : Bool) : State :=
  (s.setHalf i ((s.half i).autoFence p cause inWindow)).flushDead i

/-! ### Outcomes of reads (R284, R285) -/

/-- An uncorrectable read at `now` ns, and the queues of what it fences (R287). -/
def State.uncorrectable (s : State) (i : HalfId) (p now a : Nat) (inWindow : Bool) : State :=
  (s.setHalf i ((s.half i).uncRead p a now inWindow)).flushDead i

/-- Counters and logs of an outcome; whether the data is good (Table HBM-3). `a` is the HBM address, `mark` the unit's place in the
list of uncorrectable words. (DEDUCED, log 30) -/
def State.outcome (s : State) (i : HalfId) (p now a : Nat) (mark : Option Nat) (out : ReadOutcome) (inWindow : Bool) : State × Bool :=
  let h := s.half i
  let marked := mark.any h.hbm.poison.contains
  let dead (s : State) : State × Bool := (s.uncorrectable i p now a inWindow, false)
  match out with
  | .double => dead (s.setHalf i (h.modHbm (fun m => { m with poison := mark.toList.filter (fun n => !m.poison.contains n) ++ m.poison })))
  | .clean => if marked then dead s else (s, true)
  | .onDie => if marked then dead s else (s.setHalf i (h.bump HBM_PC_4_ODE 1 p), true)
  | .single => if marked then dead s else (s.setHalf i ((h.bumpWord HBM_PC_2 1 p).log errHBM_CORR p), true)
  | .parity n =>
    let s := s.setHalf i ((h.bump HBM_PC_4_PARITY (min n 4) p).log errHBM_PARITY p)
    if 4 ≤ n then (s.autoFence i p 2 inWindow, false) else if marked then dead s else (s, true)

/-- A poisoned read of a first copy is made again at the second (R275). -/
def State.retrySecond (s : State) (i : HalfId) (p now : Nat) (x : QTxn) : State :=
  let h := s.half i
  match h.addrPcs (x.unit * 64) with
  | a :: b :: _ =>
    if a == p && x.copy == 0 && h.pcLive b then
      let r := (h.mirrorFix p).arrive x.flight b 1 x.unit beAll now false x.hint []
      (s.setHalf i r.1).responds i r.2
    else s.respond i x.flight x.unit x.data true
  | _ => s.respond i x.flight x.unit x.data true

/-! ### Commands -/

/-- Parity errors of a write's command or data (Table HBM-3): each retry counts, the fourth failure fences. They are counted on the first
live pseudo-channel of the write. (DEDUCED, log 30) -/
def State.writeParity (s : State) (i : HalfId) (x : Txn) (n : Nat) (inWindow : Bool) : State :=
  match ((s.half i).burstPorts x).find? (s.half i).pcLive with
  | none => s
  | some p =>
    if n = 0 || !x.write then s
    else
      let s := s.setHalf i (((s.half i).bump HBM_PC_4_PARITY (min n 4) p).log errHBM_PARITY p)
      if 4 ≤ n then s.autoFence i p 2 inWindow else s

def State.hbmTransaction (s : State) (i : HalfId) (now : Nat) (x : Txn) : State :=
  let s := s.flushDead i
  let s := s.setHalf i ((s.half i).modRdb (fun r => { r with clock := max r.clock now }))
  (burstParts x.addr x.beats).foldl (fun s b =>
    let part := partOf x b.1 b.2
    let seq := (s.half i).rdb.next
    let s := s.hbmIssue i x.master ((s.half i).fget RDB_QOS_QOS x.master) now now none part
    let mine := (s.half i).rdb.waiting.filter (fun r => r.flight == seq)
    mine.foldl (fun s r =>
      if (s.half i).pcRoom r.port r.req.beats && !(s.half i).rdb.waiting.any (fun q => q.port == r.port && q.flight != seq) then
        (s.setHalf i ((s.half i).modRdb (fun d => { d with waiting := d.waiting.filter (fun q => !(q.flight == seq && q.port == r.port)) }))).hbmAccept i r.port now r
      else s) s) s

/-- HBM_TRANSACTION (R279): a burst enters the queues of its pseudo-channels, or waits at the Roundabout while they are full. -/
def execHbmTransaction (i : HalfId) (now : Nat) (a : HbmAccess) (s : State) : Host.Outcome State Fault Refusal :=
  let x := a.txn
  done (if (s.half i).mainUp && x.master < 8 && 0 < x.beats && x.beats ≤ 16 && x.addr % 64 == 0 then
      s.onBoth (fun s => (s.hbmTransaction i now x).writeParity i x a.parity a.inWindow)
    else s)

/-- HBM_READ_RESULT (R284): the read issued next completes. -/
def execHbmReadResult (i : HalfId) (p now : Nat) (out : ReadOutcome) (inWindow : Bool) (s : State) : Host.Outcome State Fault Refusal :=
  done (if !(s.half i).mainUp || 128 ≤ p || !(s.half i).pcLive p then s
    else s.onBoth (fun s =>
      let s := s.flushDead i
      let h := (s.half i).settleQueue p now
      let q := h.pcQueue p
      match (h.nextRead p now).bind (fun n => (q[n]?).map (fun x => (n, x))) with
      | none => ((s.setHalf i h).outcome i p now 0 none out inWindow).1
      | some (n, x) =>
        let h := (h.issue p x).setQueue p (q.eraseIdx n)
        let r := (s.setHalf i h).outcome i p now (x.unit * 64) (some (2 * x.unit + x.copy)) out inWindow
        let s := if r.2 then r.1.respond i x.flight x.unit x.data (x.poison && (s.half i).hbm.lost.contains x.unit) else r.1.retrySecond i p now x
        s.setHalf i ((s.half i).settleQueue p now)))

/-- REFRESH_DUE (R282): postponed up to eight times while row hits wait, pulled in up to eight ahead while the bank is idle. (DEDUCED, log 30) -/
def Half.refreshDue (h : Half) (p bank : Nat) : Half :=
  let key := bankKey p bank
  let q := (h.pcQueue p).filter (fun x => bankOf x.lbyte == bank)
  let owed := SMap.getD h.hbm.owed key 0
  let set (h : Half) (n : Int) : Half := h.modHbm (fun m => { m with owed := SMap.put 0 m.owed key n })
  let run (h : Half) (n : Nat) : Half :=
    (h.emits (List.replicate n (.bankOp p bank 0))).modHbm (fun m => if n = 0 then m else { m with rows := SMap.erase m.rows key })
  if q.isEmpty then set (run h (owed + 9).toNat) (-8)
  else if q.any (h.rowHit p) then
    if owed < 8 then set h (owed + 1) else run h 1
  else if owed < 0 then set h (owed + 1)
  else set (run h (owed + 1).toNat) 0

def execRefreshDue (i : HalfId) (p bank : Nat) (s : State) : Host.Outcome State Fault Refusal :=
  done (s.onMain i (fun h => if p < 128 && bank ≤ Config.hbmBanks && h.pcLive p then h.refreshDue p bank else h))

/-- REFRESH_WINDOW_END (R283): every activate table of the stack is cleared. -/
def execRefreshWindowEnd (i : HalfId) (stack : Nat) (s : State) : Host.Outcome State Fault Refusal :=
  done (s.onMain i (fun h => h.modHbm (fun m =>
    { m with acts := m.acts.filter (fun e => e.1 / 2 ^ 16 / 32 != stack), rfms := m.rfms.filter (fun e => e.1 / 2 ^ 16 / 32 != stack) })))

/-- The HBM address and copy at local byte `b` of pseudo-channel `p`, where a region lies there (R274, R275). -/
def Half.addressAt (h : Half) (p b : Nat) : Option (Nat × Nat) :=
  (List.range 16).findSome? (fun r =>
    let l := SMap.getD h.hbm.lays r []
    let n := l.length
    let base := h.fget HBM_REGION_3_PCBASE r * 4096
    let ext := h.fget HBM_REGION_4_EXT r * 4096
    match l.findIdx? (· == p) with
    | none => none
    | some k =>
      if !h.flag HBM_REGION_0_EN r || b < base || base + ext ≤ b then none
      else
        let o := b - base
        let mirror := h.flag HBM_REGION_0_MIRROR r
        let c := if mirror && ext / 2 ≤ o then 1 else 0
        let o := o - c * (ext / 2)
        let j := if c = 0 then k else (k + n - cdiv n 2) % n
        let a := (o / 256 * n + j) * 256 + o % 256
        if a < h.getN HBM_REGION_2 r * 4096 then some (h.getN HBM_REGION_1 r * 4096 + a, c) else none)

/-- Access units of a pseudo-channel (Table HBM-1). -/
def pcUnits : Nat := 768 * 2 ^ 20 / 64

/-- SCRUB_READ (R286): the patrol reads its next local unit and delivers its data nowhere; its activate counts like any other (R283). -/
def execScrubRead (i : HalfId) (p now : Nat) (out : ReadOutcome) (inWindow : Bool) (s : State) : Host.Outcome State Fault Refusal :=
  let h := s.half i
  done (if !h.mainUp || 128 ≤ p || !h.pcLive p || !h.flag HBM_CTL_SCRUB_EN then s
    else s.onBoth (fun s =>
      let h := s.half i
      let u := SMap.getD h.hbm.scrub p 0
      let read : QTxn := ⟨h.rdb.next, false, u, beAll, u * 64, 0, [], false, false, now⟩
      let s := s.setHalf i ((h.modHbm (fun m => { m with scrub := SMap.insert m.scrub p ((u + 1) % pcUnits) })).issue p read)
      let at_ := h.addressAt p (u * 64)
      (s.outcome i p now ((at_.map (·.1)).getD (u * 64)) (at_.map (fun a => 2 * (a.1 / 64) + a.2)) out inWindow).1))

/-- HBM_RETRAIN (R291): a retraining that fails fences. -/
def execHbmRetrain (i : HalfId) (p : Nat) (ok inWindow : Bool) (s : State) : Host.Outcome State Fault Refusal :=
  done (if (s.half i).mainUp && !ok then s.onBoth (fun s => s.autoFence i p 4 inWindow) else s)

/-- The refresh rate of a temperature, with 2 °C of hysteresis (R282). -/
def refreshRate (old : Nat) (t : Int) : Nat :=
  let up := if 95 < t then 2 else if 85 < t then 1 else 0
  let keep := if 93 < t then 2 else if 83 < t then 1 else 0
  max up (min old keep)

/-- HBM_TEMP_READ (R292). -/
def Half.tempRead (h : Half) (st : Nat) (t : Int) : Half :=
  let hot := (h.fget HBM_THERM_HOT : Int)
  let was := h.flag HBM_TEMP_HOT st
  let now := hot ≤ t || (was && hot - 3 < t)
  let rate := refreshRate (h.fget HBM_TEMP_REFMUL st) t
  let h := ((h.fset HBM_TEMP_TEMP (wrapBits 8 t) st).fset HBM_TEMP_REFMUL rate st).fset HBM_TEMP_HOT (b2n now) st
  if now && !was then h.log errHBM_HOT (32 * st) else h

def execHbmTempRead (i : HalfId) (stack : Nat) (temp : Int) (s : State) : Host.Outcome State Fault Refusal :=
  done (s.onMain i (fun h => if stack < 4 then h.tempRead stack temp else h))

/-- Training ends (R290): a pseudo-channel that failed is FAILED and counts as fenced. (DEDUCED, log 39) -/
def Half.trained (h : Half) (failed : List Nat) : Half :=
  let h := h.fold ((List.range 128).filter failed.contains) (fun h p =>
    let h := (h.fset HBM_PC_1_STATE 3 p).fset HBM_PC_1_CAUSE 3 p
    let h := h.putN HBM_FENCED (setBits (h.getN HBM_FENCED (p / 32)) (p % 32) (p % 32) 1) (p / 32)
    (h.raise (256 + p)).log errHBM_TRAIN_FAIL p)
  h.fset HBM_CTL_READY 1

/-- HBM_PC_FENCE (R287): a fence by HBM_PC[p].FENCE, whatever AUTO_FENCE holds. -/
def execHbmPcFence (i : HalfId) (p : Nat) (inWindow : Bool) (s : State) : Host.Outcome State Fault Refusal :=
  done (if (s.half i).mainUp then s.onBoth (fun s => s.fence i p 5 inWindow) else s)

/-! ### Region table at a tick (R277) -/

/-- Two ranges overlap. -/
def rangesMeet (a n b m : Nat) : Bool := 0 < n && 0 < m && a < b + m && b < a + n

/-- The entry passes the checks against the others of `h` (R277). -/
def Half.regionOk (h : Half) (r : Nat) : Bool :=
  let base := h.fget HBM_REGION_3_PCBASE r
  let ext := h.fget HBM_REGION_4_EXT r
  let set := h.fget HBM_REGION_0_SET r
  base + ext ≤ 196608
  && !(h.flag HBM_REGION_0_MIRROR r && ((List.range 4).filter (fun st => bits set (4 * st + 3) (4 * st) != 0)).length < 2)
  && (!h.flag HBM_REGION_0_EN r || (List.range 16).all (fun t => t == r || !h.flag HBM_REGION_0_EN t
    || (!rangesMeet (h.getN HBM_REGION_1 r) (h.getN HBM_REGION_2 r) (h.getN HBM_REGION_1 t) (h.getN HBM_REGION_2 t)
      && (set &&& h.fget HBM_REGION_0_SET t == 0
        || !rangesMeet base ext (h.fget HBM_REGION_3_PCBASE t) (h.fget HBM_REGION_4_EXT t)))))

/-- The five words of a region entry. -/
def Half.regionWords (h : Half) (r : Nat) : List Word :=
  [h.get HBM_REGION_0 r, h.get HBM_REGION_1 r, h.get HBM_REGION_2 r, h.get HBM_REGION_3 r, h.get HBM_REGION_4 r]

def Half.putRegion (h : Half) (r : Nat) (ws : List Word) : Half :=
  ((((h.put HBM_REGION_0 (ws.getD 0 0) r).put HBM_REGION_1 (ws.getD 1 0) r).put HBM_REGION_2 (ws.getD 2 0) r).put
    HBM_REGION_3 (ws.getD 3 0) r).put HBM_REGION_4 (ws.getD 4 0) r

/-- Bytes of HBM from `lo` below `hi` are gone. -/
def Half.eraseSpan (h : Half) (lo hi : Nat) : Half :=
  h.modHbm (fun m => { m with mem := m.mem.filter (fun e => e.1 < lo || hi ≤ e.1)
                              poison := m.poison.filter (fun u => u / 2 * 64 < lo || hi ≤ u / 2 * 64) })

/-- Bytes of region `r` are gone. -/
def Half.eraseRegion (h : Half) (r : Nat) : Half :=
  let lo := h.getN HBM_REGION_1 r * 4096
  h.eraseSpan lo (lo + h.getN HBM_REGION_2 r * 4096)

/-- Lay region `r` over the live pseudo-channels of its groups (R274). -/
def Half.layRegion (h : Half) (r : Nat) : Half :=
  let l := if h.flag HBM_REGION_0_EN r then h.livePcs (h.fget HBM_REGION_0_SET r) else []
  (h.modHbm (fun m => { m with lays := SMap.put [] m.lays r l })).fset HBM_REGION_5_LIVE l.length r

/-- What is kept beside the bytes of region `r` goes with them: row-valid bits, landing maps (R277, Table HBM-4). -/
def Half.forgetRegion (h : Half) (r : Nat) : Half :=
  if r = regionDelay || r = regionFlags then { h with front := { h.front with store := [] } }
  else if r = regionCorner then { h with xch := { h.xch with ct0 := [], ct1 := [] } } else h

/-- The region entries handed over at this tick are checked, entry by entry, against the table with the failing ones put back
(R277). -/
def Half.checkRegions (old new : Half) : Half :=
  let changed := (List.range 16).filter (fun r => old.regionWords r != new.regionWords r)
  new.fold changed (fun h r =>
    if h.regionOk r then
      let lo := old.getN HBM_REGION_1 r * 4096
      (((h.eraseSpan lo (lo + old.getN HBM_REGION_2 r * 4096)).eraseRegion r).forgetRegion r).layRegion r
    else (h.putRegion r (old.regionWords r)).log errHBM_CFG_RANGE)

/-! ### Re-lay at a tick (R289, Table HBM-4) -/

/-- Every packet that waits in the outbound buffer and that no engine has taken is dropped with its records (R29): it leaves its ring, its
block counts once in DROPPED, and what follows of its dump is incomplete. (DEDUCED, log 23) -/
def Half.dropOutbound (h : Half) : Half :=
  let taken := h.trw.eng.flatMap (fun e => match e.2.held with | some d => d.descs.map (·.src) | none => [])
  let gone := (h.trw.outHeld.map (·.1)).filter (fun a => !taken.contains a)
  let tags := ((h.trw.outTag.filter (fun e => gone.contains e.1)).map (·.2)).eraseDups
  let h := h.fold (h.exy.rings.filter (fun (x : RingRec) => ctxOwner (h.ctx x.ring))) (fun h x => h.cutChain x.ring gone)
  let h := (h.freeOut gone).countOut
  let h := h.modLta (fun x => { x with integs := x.integs.map (fun g =>
    if tags.any (fun t => t.take 3 == [0, g.v, g.first]) then { g with lossy := true } else g) })
  h.ovr 3 (h.frame - h.delta) tags.length

/-- Losses of a re-laid region (Table HBM-4). -/
def Half.regionLost (h : Half) (r : Nat) : Half :=
  let lo := h.getN HBM_REGION_1 r * 4096
  let hi := lo + h.getN HBM_REGION_2 r * 4096
  let h := (h.eraseRegion r).forgetRegion r
  if r = regionDelay || r = regionFlags then { h with front := { h.front with voidBelow := h.frame } }
  else if r = regionCorner then { h with xch := { h.xch with void := if h.frame < h.delta then none else some (h.frame - h.delta) } }
  else if r = regionL48 then { h with lta := { h.lta with stale := [] } }
  else if r = regionSpill then
    let open_ := h.arc.spills
    { h with lta := { h.lta with blocks := h.lta.blocks.map (fun b => { b with spillLost := b.spillLost || !b.spilled.isEmpty }) }
             arc := { h.arc with spills := open_.map (fun x => (x.1, x.2.1, x.2.2.1, 2 ^ 20)) ++ open_ } }
  else if r = regionOut then h.dropOutbound
  else h.fold ((List.range 16).filter (fun v => h.capState v != 0 && lo < h.capBase v + h.capSize v && h.capBase v < hi)) (fun h v => h.capReleaseCmd v)

/-- One plain region is laid again over its remaining pseudo-channels. -/
def Half.relay (h : Half) (r : Nat) : Half :=
  let h := (h.layRegion r).regionLost r
  let n := (SMap.getD h.hbm.lays r []).length
  if n = 0 || h.fget HBM_REGION_4_EXT r < cdiv (h.getN HBM_REGION_2 r) n then h.log errHBM_NO_EXT else h

/-- The first tick after a fence: FENCING becomes FENCED, and the plain regions that lose a pseudo-channel are re-laid. -/
def Half.hbmTick (h : Half) : Half :=
  let now := (List.range 128).filter (fun p => h.fget HBM_PC_1_STATE p == 1 && !h.hbm.lateFence.contains p)
  let late := h.hbm.lateFence
  let h := h.modHbm (fun m => { m with lateFence := [], grpFenced := m.grpFenced.filter (fun g => late.any (fun p => p / 8 == g)) })
  if now.isEmpty then h
  else
    let h := h.fold now (fun h p => ((h.fset HBM_PC_1_STATE 2 p).raise (256 + p)).log errHBM_RELAY p)
    let hit := (List.range 16).filter (fun r => h.flag HBM_REGION_0_EN r && !h.flag HBM_REGION_0_MIRROR r
      && (SMap.getD h.hbm.lays r []).any now.contains)
    h.fold hit Half.relay

end Sys2Proof.Machine
end

