-- ==== Sys2Proof/Machine/Lease.lean ====
section
/-! DEFINITION. The lease, the role and the half states (17_halves_failover.md). -/

namespace Sys2Proof.Machine

/-! ### Building blocks -/

/-- The island's view of LSE_STAT's LEASE: 0 HELD, 1 SOLE, 2 PARTITION; entering or leaving PARTITION raises
source 66 and entering it logs PARTITION (Tables LSE-7, LSE-10, LSE-11). -/
def Half.setLease (h : Half) (v : Nat) : Half :=
  let old := h.fget LSE_STAT_LEASE
  let h := h.fset LSE_STAT_LEASE v
  let h := if old != v && (old == 2 || v == 2) then h.raise 66 else h
  if old != 2 && v == 2 then h.log errPARTITION else h

/-- A half is hot (R337). (DEDUCED, log 34) -/
def Half.hot (h : Half) : Bool :=
  h.running && h.isl.copyFresh && h.isl.imageOk && h.fget LSE_STAT_ROLE != 3

/-- DEV_STATE as the primary publishes it (R422): PRIMARY, VALID, both half states, GEN. -/
def Half.publish (h : Half) : Half :=
  let own := h.own
  let oth := h.fget LSE_STAT_OTHER
  let (n, so, p) := match h.id with | .north => (own, oth, 0) | .south => (oth, own, 1)
  let gen := (h.fget DEV_STATE_GEN + 1) % 65536
  h.putN DEV_STATE (p * 2 ^ 31 + 2 ^ 30 + n * 2 ^ 26 + so * 2 ^ 24 + gen)

/-- The heartbeat a half sends now (R328). -/
def Half.heartbeatNow (h : Half) : Heartbeat :=
  { epoch := h.getN LSE_EPOCH
    role := h.fget LSE_STAT_ROLE
    hstate := h.own
    hot := h.hot
    seq := h.isl.hbSeq
    echo := h.isl.hbIn
    drec := if h.fget LSE_STAT_ROLE = 2 then (List.range 64).map (fun w => h.get LSE_DREC w) else []
    devState := h.get DEV_STATE }

/-- Send a heartbeat on both paths; the primary publishes DEV_STATE with it (R328, R422). -/
def Half.sendHeartbeat (h : Half) : Half :=
  let h := h.modIsl (fun x => { x with hbSeq := x.hbSeq + 1 })
  let h := if h.fget LSE_STAT_ROLE = 2 then h.publish else h
  h.emits [.heartbeat .bridge h.heartbeatNow, .heartbeat .sideband h.heartbeatNow]

/-- Take the role (R331): epoch one above the fence, drivers on, heartbeats at once. With the fence at its top, or
in DOWN (Table LSE-1), no role is taken. (DEDUCED, log 34) -/
def Half.takeRole (h : Half) : Half :=
  if h.getN LSE_FENCE = 2 ^ 32 - 1 || !h.mainUp then h
  else
    let e := h.getN LSE_FENCE + 1
    let h := (h.putN LSE_EPOCH e).putN LSE_FENCE e
    let h := ((h.fset LSE_STAT_DRIVE 1).setRole 2).setLease 0
    (h.modIsl (fun x => { x with guard := false })).sendHeartbeat

/-- Whether a role was taken by `takeRole`. -/
def Half.isPrimary (h : Half) : Bool := h.fget LSE_STAT_ROLE == 2

/-- A half that drops the role to a better claim (R333). (DEDUCED, log 34) -/
def Half.dropRole (h : Half) (epoch : Nat) : Half :=
  let h := (h.fset LSE_STAT_DRIVE 0).setRole 1
  let h := h.putN LSE_FENCE (max (h.getN LSE_FENCE) epoch)
  h.log errLSE_DISAGREE

/-- The products whose integration holds the frame of a cold change are incomplete (Table LSE-4). -/
def Half.coldTakeover (h : Half) : Half :=
  { h.log errLSE_COLD_TAKEOVER with lta := { h.lta with markInc := h.frame :: h.lta.markInc } }

/-- Takeover after silence (R330): the witness is deasserted, so the role is taken. -/
def Half.takeover (h : Half) : Half :=
  let t := h.takeRole
  if t.isPrimary then
    ((t.log errLSE_TAKEOVER).bump LSE_SW_CNT_TAKEOVERS).modIsl (fun x => { x with takingUp := true })
  else t

/-- The secondary after its guard (R330): takeover where the witness is deasserted, PARTITION where asserted. -/
def Half.guardAct (h : Half) (witness : Bool) : Half :=
  let h := h.modIsl (fun x => { x with guard := false })
  if witness then h.setLease 2 else h.takeover

/-! ### Power-up -/

/-- What an island does 9 ms after power-up (R334). -/
def Half.listenEnd (h : Half) (witness : Bool) : Half :=
  let heard := h.isl.heardAny
  let heardP := h.isl.heardPrimary
  let h := h.modIsl (fun x => { x with listening := false })
  let h := if h.fget LSE_STAT_ROLE = 0 && h.mainUp then h.setRole 1 else h
  match h.id with
  | .north => if !heardP && (!witness || heard) then h.takeRole else h
  | .south => if !heard && !witness then h.takeRole else h

def State.onLeaseListenEnd (s : State) (h : HalfId)  : State :=
  (if (s.half h).isl.listening then s.onIsland h (fun x => x.listenEnd (s.witness h)) else s)

/-! ### Heartbeats -/

def execHeartbeatSend (h : HalfId) (s : State) : Host.Outcome State Fault Refusal :=
  done (s.onIsland h (fun x =>
    if x.isl.ready && x.fget LSE_STAT_ROLE != 3 then (x.sendHeartbeat).modIsl (fun y => { y with copyFresh := false }) else x))

/-- The path bits of LSE_STAT; source 65 at each change (Table LSE-10). -/
def Half.setPath (h : Half) (p : HbPath) (v : Nat) : Half :=
  let f := match p with | .bridge => LSE_STAT_BRIDGE_HB | .sideband => LSE_STAT_SIDE_HB
  if h.fget f = v then h else (h.fset f v).raise 65

/-- The view of the other half's state; source 67 at each change. -/
def Half.setOther (h : Half) (v : Nat) : Half :=
  if h.fget LSE_STAT_OTHER = v then h else (h.fset LSE_STAT_OTHER v).raise 67

/-- A heartbeat arrives (R328, R329, R330, R333, R335, R422). -/
def Half.heartbeatIn (h : Half) (p : HbPath) (hb : Heartbeat) : Half :=
  let h := h.setPath p 1
  let h := h.modIsl (fun x => { x with
    heardAny := true, heardPrimary := x.heardPrimary || hb.role == 2,
    hbIn := hb.seq, guard := x.guard && hb.role != 2, aliveOff := false })
  let h := (h.setOther hb.hstate).fset LSE_STAT_OTHER_HOT (b2n hb.hot)
  let h := h.putN LSE_PEER hb.epoch
  let better := hb.epoch > h.getN LSE_EPOCH || (hb.epoch == h.getN LSE_EPOCH && h.id == .south)
  let h := if hb.role == 2 && h.isPrimary && better then h.dropRole hb.epoch else h
  let h := h.putN LSE_FENCE (max (h.getN LSE_FENCE) hb.epoch)
  -- a die drives only while its island's epoch is its fence epoch (R332)
  let h := if h.getN LSE_EPOCH < h.getN LSE_FENCE then h.fset LSE_STAT_DRIVE 0 else h
  -- the device record and the device state follow the primary's heartbeat
  let h := if hb.role == 2 && !h.isPrimary then
      (h.fold (List.range hb.drec.length) (fun h w => if w < 64 then h.put LSE_DREC (hb.drec.getD w 0) w else h)).put DEV_STATE hb.devState
    else h
  -- the lease
  let h := if h.isPrimary && hb.echo > h.isl.hbEchoed && hb.echo ≤ h.isl.hbSeq then
      (h.setLease 0).modIsl (fun x => { x with hbEchoed := hb.echo })
    else h
  if !h.isPrimary && h.fget LSE_STAT_LEASE != 0 then h.setLease 0 else h

def State.onHeartbeatReceived (s : State) (h : HalfId) (path : HbPath) (hb : Heartbeat)  :
    State :=
  (s.onIsland h (fun x =>
    if x.isl.ready && x.fget LSE_STAT_ROLE != 3 then x.heartbeatIn path hb else x))

/-- A path silent for 8 ms (R328); with both silent and the witness deasserted the other half is ABSENT
(Table LSE-1). -/
def Half.pathSilent (h : Half) (p : HbPath) (witness : Bool) : Half :=
  let h := match p with
    | .bridge => h.bump LSE_HB_CNT_BRIDGE_MISS
    | .sideband => h.bump LSE_HB_CNT_SIDE_MISS
  let h := (h.setPath p 0).log errLSE_PATH_LOST
  if h.fget LSE_STAT_BRIDGE_HB = 0 && h.fget LSE_STAT_SIDE_HB = 0 && !witness then h.setOther 3 else h

def execPathSilent (h : HalfId) (path : HbPath) (s : State) : Host.Outcome State Fault Refusal :=
  done (s.onIsland h (fun x => if x.isl.ready then x.pathSilent path (s.witness h) else x))

/-! ### Lapses, guard, witness -/

/-- The primary's lease has lapsed (R329). -/
def Half.primaryLapse (h : Half) (witness : Bool) : Half :=
  if h.isPrimary then h.setLease (if witness then 2 else 1) else h

def execPrimaryLeaseLapse (h : HalfId) (s : State) : Host.Outcome State Fault Refusal :=
  done (s.onIsland h (fun x => x.primaryLapse (s.witness h)))

/-- The secondary's view of the lease has lapsed: the guard starts (R330). -/
def Half.secondaryLapse (h : Half) : Half :=
  if h.fget LSE_STAT_ROLE = 1 && !h.isl.listening then h.modIsl (fun x => { x with guard := true }) else h

def execSecondaryLeaseLapse (h : HalfId) (s : State) : Host.Outcome State Fault Refusal :=
  done (s.onIsland h Half.secondaryLapse)

def State.onGuardExpiry (s : State) (h : HalfId)  : State :=
  (s.onIsland h (fun x => if x.isl.guard && x.fget LSE_STAT_ROLE == 1 then x.guardAct (s.witness h) else x))

/-- The witness falls: a half in PARTITION acts at once (R329, R330). -/
def Half.witnessFall (h : Half) : Half :=
  if h.fget LSE_STAT_LEASE = 2 then (if h.isPrimary then h.setLease 1 else h.guardAct false) else h

def State.onWitnessFall (s : State) (h : HalfId)  : State :=
  (s.onIsland h (fun x => if s.witness h then x else x.witnessFall))

def execWitnessLoopFault (h : HalfId) (s : State) : Host.Outcome State Fault Refusal :=
  done (s.onIsland h (fun x =>
    if x.flag LSE_STAT_WIT_FAULT then x
    else ((x.fset LSE_STAT_WIT_FAULT 1).raise 70).log errLSE_WITNESS_FAULT))

def State.onWitnessLoopFaultClear (s : State) (h : HalfId)  : State :=
  (s.onIsland h (fun x =>
    if x.flag LSE_STAT_WIT_FAULT then
      let y := (x.fset LSE_STAT_WIT_FAULT 0).raise 70
      if (s.half h.other).aliveDrive then y else y.witnessFall
    else x))

/-! ### Switch-over -/

/-- The first copy of RELINQUISH makes the secondary take the role, hot or not (R338). -/
def Half.relinquished (h : Half) : Half :=
  let hot := h.hot
  let t := if h.fget LSE_STAT_ROLE = 1 then h.takeRole else h
  if t.isPrimary && !h.isPrimary then
    let t := (t.bump LSE_SW_CNT_SWITCHOVERS).modIsl (fun x => { x with takingUp := true })
    if hot then t else t.coldTakeover
  else t

def State.onRelinquishReceived (s : State) (h : HalfId) (path : HbPath)  : State :=
  (s.onIsland h (fun x => match path with
    | .bridge => x.relinquished
    | .sideband => x.relinquished))

/-- LSE_CTL.HANDOVER: ignored on a secondary, and while the secondary is not hot (R338). (DEDUCED, log 34) -/
def Half.handover (h : Half) : Half :=
  if h.isPrimary && h.flag LSE_STAT_OTHER_HOT then h.relinquish 1 else h

def execLseHandover (h : HalfId) (s : State) : Host.Outcome State Fault Refusal :=
  done (s.onIsland h Half.handover)

def execDeviceRecordTakenUp (h : HalfId) (s : State) : Host.Outcome State Fault Refusal :=
  done (s.onIsland h (fun x => x.modIsl (fun y => { y with takingUp := false })))

/-! ### UNSURE (R335) -/

def Half.unsure (h : Half) : Half :=
  if h.fget LSE_STAT_ROLE = 3 then h
  else
    let r := h.fget LSE_STAT_ROLE
    (((h.modIsl (fun x => { x with roleKept := r })).setRole 3).raise 69 |>.log errLSE_UNSURE).emits
      [.leaseQuery .bridge, .leaseQuery .sideband]

def execUnsureEntry (h : HalfId) (s : State) : Host.Outcome State Fault Refusal :=
  done (s.onIsland h Half.unsure)

def execLeaseQueryReceived (h : HalfId) (path : HbPath) (s : State) : Host.Outcome State Fault Refusal :=
  done (s.onIsland h (fun x =>
    if x.fget LSE_STAT_ROLE = 3 then x
    else x.emit (.leaseAnswer path (x.getN LSE_EPOCH) (x.fget LSE_STAT_ROLE))))

/-- The answer gives the other island's epoch and role: an UNSURE island takes the primary role it held back where
the other is not primary, and is secondary otherwise; the fence follows the epoch. -/
def Half.leaseAnswer (h : Half) (epoch role : Nat) : Half :=
  if h.fget LSE_STAT_ROLE = 3 then
    let h := h.putN LSE_FENCE (max (h.getN LSE_FENCE) epoch)
    if role = 2 || h.isl.roleKept != 2 then (h.fset LSE_STAT_DRIVE 0).setRole 1
    else ((h.putN LSE_EPOCH (h.getN LSE_FENCE)).fset LSE_STAT_DRIVE 1).setRole 2
  else h

def State.onLeaseQueryAnswer (s : State) (h : HalfId) (epoch role : Nat)  : State :=
  (s.onIsland h (fun x => x.leaseAnswer epoch role))

def execUnsureTimeout (h : HalfId) (s : State) : Host.Outcome State Fault Refusal :=
  done (s.onIsland h (fun x =>
    if x.fget LSE_STAT_ROLE = 3 then
      ((x.fset LSE_STAT_DRIVE 0).setRole 1).modIsl (fun y => { y with aliveOff := true })
    else x))

/-! ### The watchdog (R326) -/

/-- The watchdog expires: source 71, LSE_WD_EXPIRED, and the half enters DOWN with cause 5. -/
def Half.watchdog (h : Half) : Half :=
  if h.flag LSE_CTL_WD_EN then (h.raise 71).logFatal errLSE_WD_EXPIRED 5 else h

def execWatchdogExpiry (h : HalfId) (s : State) : Host.Outcome State Fault Refusal :=
  done (s.onMain h Half.watchdog)

/-- A KICK restarts the watchdog; its count is time, which the state does not hold. -/
def execLseWdKick (h : HalfId) (s : State) : Host.Outcome State Fault Refusal :=
  done (s.onIsland h (fun x => x))

end Sys2Proof.Machine
end

