-- ==== Sys2Proof/Machine/Supply.lean ====
section
/-! DEFINITION. Island supplies, main rails, power fail and brown-out, the housekeeping ADC, thermal alert
and trip (19_supervision_power.md, 24_electrical_package.md R452). -/

namespace Sys2Proof.Machine

/-! ### Main rails -/

/-- MAIN of SUP_STAT; source 0 at each change (Table SUP-8). -/
def Half.setMain (h : Half) (v : Nat) : Half :=
  if h.fget SUP_STAT_MAIN = v then h else (h.fset SUP_STAT_MAIN v).raise 0

/-- PMBus commands the island uses (R364). -/
def pmbOperation : Nat := 0x01
def pmbClearFaults : Nat := 0x03
def pmbVoutCommand : Nat := 0x21
def pmbStatusWord : Nat := 0x79

/-- The command voltage of a rail: VNOM, or for rail 6 the AVS command while AVS_EN is 1 (Table SUP-5). -/
def Half.railCommand (h : Half) (r : Nat) : Nat :=
  if r = 6 && h.flag SUP_CTL_AVS_EN then h.isl.vddArc else h.fget SUP_RAIL_0_VNOM r

/-- The window of a rail in mV, bottom and top: for rail 6 under AVS, 4 % about the command, united with that of the
command before the last change (R367). -/
def Half.railWindow (h : Half) (r : Nat) : Nat × Nat :=
  if r = 6 && h.flag SUP_CTL_AVS_EN then
    let lo := min h.isl.vddArc h.isl.vddPrev
    let hi := max h.isl.vddArc h.isl.vddPrev
    (lo - lo * 4 / 100, hi + hi * 4 / 100)
  else (h.fget SUP_RAIL_1_WLO r, h.fget SUP_RAIL_1_WHI r)

/-- Start the switch-up step of the first enabled rail from `r`; with none left the rails are on (R366). -/
def Half.stepUp (h : Half) (r : Nat) : Half :=
  match (List.range 9).find? (fun q => r ≤ q && h.flag SUP_RAIL_0_EN q) with
  | some q =>
    ((h.setMain 1).modIsl (fun x => { x with seq := .up q })).emits
      [.pmbus q pmbVoutCommand (h.railCommand q), .pmbus q pmbClearFaults 0, .pmbus q pmbOperation 0x80]
  | none => ((h.setMain 2).modIsl (fun x => { x with seq := .idle })).fset NVM_BOOT_STAGE 3

/-- The main domain starts (R380 step 2): the half is BOOTING, secondary unless it holds a role, and the rails are
switched up. -/
def Half.startMain (h : Half) : Half :=
  if h.isl.powered && h.isl.ready && !h.isl.fatalF && h.own == 0 then
    let h := (h.fset LSE_STAT_OWN 1).fset NVM_BOOT_STAGE 2
    let h := if h.fget LSE_STAT_ROLE = 0 && !h.isl.listening then h.setRole 1 else h
    h.stepUp 0
  else h

/-- Every rail is down: a restart, a retry or rest follows (R366, R370). -/
def Half.stepDownEnd (h : Half) : Half :=
  let next := h.isl.downThen
  let h := (h.setMain 0).modIsl (fun x => { x with seq := .idle, downThen := 0 })
  if next = 2 then h.startMain
  else if next = 1 then
    if 0 < h.isl.retries then h.modIsl (fun x => { x with seq := .retryWait }) else h.setMain 5
  else h

/-- Start the switch-down step of the last enabled rail below `n`, or finish the switch-down (R366). -/
def Half.stepDown (h : Half) (n : Nat) : Half :=
  match ((List.range n).reverse).find? (fun q => h.flag SUP_RAIL_0_EN q) with
  | some q => ((h.setMain 4).modIsl (fun x => { x with seq := .down q })).emit (.pmbus q pmbOperation 0)
  | none => h.stepDownEnd

/-- Switch the rails down from the top, and then do `next`. -/
def Half.switchDown (h : Half) (next : Nat) : Half :=
  (h.modIsl (fun x => { x with downThen := next })).stepDown 9

/-- Power good of a rail (R366): its STATUS_WORD reports no fault, its output is read, and the next step starts. (DESIGN CHOICE, log 36) -/
def Half.railGood (h : Half) (r vout iout : Nat) : Half :=
  if h.isl.seq = .up r then
    (((h.fset SUP_RAIL_2_VOUT vout r).fset SUP_RAIL_2_IOUT iout r).fset SUP_RAIL_3_STATUS 0 r).stepUp (r + 1)
  else h

def execRailPowerGood (h : HalfId) (r : RailReading) (s : State) : Host.Outcome State Fault Refusal :=
  done (s.onIsland h (fun x => x.railGood r.rail r.vout r.iout))

/-- A rail step without power good in 5 ms, or whose transaction failed four times (R364, R366): SUP_SEQ_FAIL takes the half DOWN with
cause 4 and the rails on are switched off. -/
def Half.railTimeout (h : Half) (r : Nat) (pmbFail : Bool) : Half :=
  if h.isl.seq = .up r then
    let h := if pmbFail then h.log errSUP_PMB_FAIL else h
    let h := (h.raise 8).logFatal errSUP_SEQ_FAIL 4
    (h.modIsl (fun x => { x with downThen := 1 })).stepDown (r + 1)
  else h

def execRailStepTimeout (h : HalfId) (r : RailFailure) (s : State) : Host.Outcome State Fault Refusal :=
  done (s.onIsland h (fun x => x.railTimeout r.rail r.pmbFail))

def execSeqRetryTimer (h : HalfId) (s : State) : Host.Outcome State Fault Refusal :=
  done (s.onIsland h (fun x =>
    if x.isl.seq = .retryWait && 0 < x.isl.retries then
      (x.modIsl (fun y => { y with retries := y.retries - 1, seq := .idle })).startMain
    else x))

def execRailDownStepDone (h : HalfId) (r : Nat) (s : State) : Host.Outcome State Fault Refusal :=
  done (s.onIsland h (fun x => if x.isl.seq = .down r then x.stepDown r else x))

/-! ### The island -/

/-- The island powers up (R361): every island register at its reset value. -/
def Half.islandUp (h : Half) : Half :=
  { h with
    regs := h.regs.filter (fun e => !islandAddr e.1)
    isl := { Island.reset with powered := true } }

def execIslandPowerUp (h : HalfId) (s : State) : Host.Outcome State Fault Refusal :=
  done (if (s.half h).isl.powered then s else s.on h Half.islandUp)

/-- 5 ms later the island is ready and listens (R334, R361); with RESET_N high the main domain starts (R380). -/
def Half.islandReady (h : Half) (resetN : Bool) : Half :=
  if h.isl.powered && !h.isl.ready then
    let h := (h.modIsl (fun x => { x with ready := true, listening := true })).fset NVM_BOOT_STAGE 1
    let h := h.modIsl (fun x => { x with retries := h.fget SUP_BO_SEQ_RETRY })
    if resetN then h.startMain else h
  else h

def execIslandReady (h : HalfId) (s : State) : Host.Outcome State Fault Refusal :=
  done (s.onIsland h (fun x => x.islandReady s.board.resetN))

/-- Both feeds are lost (R361): the island loses power and its main domain is off. No relinquish is sent (R338). -/
def Half.islandLost (h : Half) : Half := { Half.reset h.id with out := h.out }

def execIslandPowerLost (h : HalfId) (s : State) : Host.Outcome State Fault Refusal :=
  done (s.onIsland h Half.islandLost)

/-! ### Feeds (R362, R363) -/

/-- A feed reading as in Table SUP-3: 0 good, 1 low, 2 FAULT, 3 absent. (DESIGN CHOICE, log 36) -/
def feedState (f : Feed) (v : Nat) : Nat :=
  if f.fault then 2 else if v = 0 then 3 else if v * 6000 < 2650 * 4096 then 1 else 0

def Half.setFeedA (h : Half) (v : Nat) : Half :=
  if h.fget SUP_STAT_FEED_A = v then h else (h.fset SUP_STAT_FEED_A v).raise 1

def Half.setFeedB (h : Half) (v : Nat) : Half :=
  if h.fget SUP_STAT_FEED_B = v then h else (h.fset SUP_STAT_FEED_B v).raise 2

/-- One sample of a feed: the counts towards FAULT, its end, and preference. -/
def feedStep (f : Feed) (v i ioc retV retMs : Nat) : Feed :=
  let overI := if ioc * 4096 < i * 1000 then f.overI + 1 else 0
  let overV := if 5600 * 4096 < v * 6000 then f.overV + 1 else 0
  let okRun := if 2700 * 4096 ≤ v * 6000 && v * 6000 ≤ 5500 * 4096 then f.okRun + 1 else 0
  let fault := if 10 ≤ overI || 2 ≤ overV then true else if f.fault && retMs * 10 ≤ okRun then false else f.fault
  let retRun := if retV * 100 * 4096 ≤ v * 6000 && !fault then f.retRun + 1 else 0
  { f with overI := overI, overV := overV, okRun := okRun, fault := fault, retRun := retRun }

/-- Which diodes are held off: the other one under a good preferred feed, and a FAULT feed's while the other is
good (R362, R363). -/
def Half.steerFeeds (h : Half) : Half :=
  let a := h.isl.feedA
  let b := h.isl.feedB
  let mode := h.fget SUP_FEED_MODE
  let prefB := mode == 2 && h.isl.prefGood
  let prefA := mode == 1 && h.isl.prefGood
  let offA := (prefB && !b.fault) || (a.fault && !b.fault && h.fget SUP_STAT_FEED_B == 0)
  let offB := (prefA && !a.fault) || (b.fault && !a.fault && h.fget SUP_STAT_FEED_A == 0)
  h.modIsl (fun x => { x with feedA := { x.feedA with heldOff := offA }, feedB := { x.feedB with heldOff := offB } })

/-- The preferred feed falls below 2.65 V (R362). -/
def Half.feedComparator (h : Half) : Half :=
  match h.fget SUP_FEED_MODE with
  | 1 => ((h.modIsl (fun x => { x with prefGood := false, feedA := { x.feedA with retRun := 0 } })).setFeedA (if h.isl.feedA.fault then 2 else 1)).steerFeeds
  | 2 => ((h.modIsl (fun x => { x with prefGood := false, feedB := { x.feedB with retRun := 0 } })).setFeedB (if h.isl.feedB.fault then 2 else 1)).steerFeeds
  | _ => h

def execFeedComparator (h : HalfId) (s : State) : Host.Outcome State Fault Refusal :=
  done (s.onIsland h Half.feedComparator)

/-- A calibrated result of converter `c` (R375). -/
def Half.calibrate (h : Half) (c : Nat) (raw : Int) : Nat :=
  let off := sext 16 (h.fget HKA_CAL_OFFSET c)
  (clamp 0 4095 (rneDiv ((raw - off) * h.fget HKA_CAL_GAIN c) (2 ^ 14))).toNat

/-- A result enters HKA_RES with FRESH set (R372). (DESIGN CHOICE, log 36) -/
def Half.hkaResult (h : Half) (ch code : Nat) : Half :=
  (h.fset HKA_RES_CODE code ch).fset HKA_RES_FRESH 1 ch

/-- A feed sample (R363, R372). -/
def Half.feedSample (h : Half) (va ia vb ib : Nat) : Half :=
  let va := h.calibrate 0 va
  let ia := h.calibrate 1 ia
  let vb := h.calibrate 2 vb
  let ib := h.calibrate 3 ib
  let h := (((h.hkaResult 0 va).hkaResult 16 ia).hkaResult 32 vb).hkaResult 48 ib
  let ioc := h.fget SUP_FEED_IOC
  let retV := h.fget SUP_FEED_RET_V
  let retMs := h.fget SUP_FEED_RET_MS
  let a := feedStep h.isl.feedA va ia ioc retV retMs
  let b := feedStep h.isl.feedB vb ib ioc retV retMs
  let newFaults := b2n (a.fault && !h.isl.feedA.fault) + b2n (b.fault && !h.isl.feedB.fault)
  let p := if h.fget SUP_FEED_MODE = 2 then b else a
  let good := if h.isl.prefGood then !p.fault else retMs * 10 ≤ p.retRun && !p.fault
  let h := h.modIsl (fun x => { x with feedA := a, feedB := b, prefGood := good })
  let h := ((h.setFeedA (feedState a va)).setFeedB (feedState b vb)).steerFeeds
  h.fold (List.range newFaults) (fun h _ => h.log errSUP_FEED_FAULT)

def execFeedSample (h : HalfId) (va ia vb ib : Nat) (s : State) : Host.Outcome State Fault Refusal :=
  done (s.onIsland h (fun x => x.feedSample va ia vb ib))

/-! ### PMBus alert and AVS (R367, R368) -/

/-- STATUS_WORD of every rail is read: a word, or none where the transaction failed four times (R364, R368). (DESIGN CHOICE, log 36) -/
def Half.pmbAlert (h : Half) (words : List (Option Nat)) : Half :=
  (h.raise 12).fold (List.range 9) (fun h r =>
    let h := h.emit (.pmbus r pmbStatusWord 0)
    match words.getD r none with
    | none => h.log errSUP_PMB_FAIL
    | some w =>
      let h := h.fset SUP_RAIL_3_STATUS w r
      if w % 65536 != 0 then h.log errSUP_REG_FAULT else h)

def execPmbAlert (h : HalfId) (words : List (Option Nat)) (s : State) : Host.Outcome State Fault Refusal :=
  done (s.onIsland h (fun x => x.pmbAlert words))

/-- Command VDD_ARC to `v` mV. -/
def Half.setVddArc (h : Half) (v : Nat) : Half :=
  (h.modIsl (fun x => { x with vddPrev := x.vddArc, vddArc := v })).emit (.pmbus 6 pmbVoutCommand v)

/-- Raise VDD_ARC by `d` mV; a raise above 800 mV is not made but reported (R367). (DESIGN CHOICE, log 36) -/
def Half.raiseVddArc (h : Half) (d : Nat) : Half :=
  if h.isl.vddArc + d ≤ 800 then h.setVddArc (h.isl.vddArc + d)
  else ((h.fset SUP_AVS_LIMIT 1).raise 7).log errSUP_AVS_LIMIT

/-- The monitors are read (R367). A PMBus failure freezes VDD_ARC. -/
def Half.avsMonitor (h : Half) (margin : Nat) (pmbOk : Bool) : Half :=
  if !h.flag SUP_CTL_AVS_EN then h
  else
    let h := h.modIsl (fun x => { x with vddPrev := x.vddArc })
    if !pmbOk then h.log errSUP_PMB_FAIL
    else if h.fget SUP_AVS_AVS_HI < margin then
      (if h.fget SUP_AVS_AVS_MIN + 5 ≤ h.isl.vddArc then h.setVddArc (h.isl.vddArc - 5) else h)
    else if margin < h.fget SUP_AVS_AVS_LO then h.raiseVddArc 5
    else h

def execAvsMonitor (h : HalfId) (margin : Nat) (pmbOk : Bool) (s : State) : Host.Outcome State Fault Refusal :=
  done (s.onMain h (fun x => x.avsMonitor margin pmbOk))

def Half.avsViolation (h : Half) (pmbOk : Bool) : Half :=
  if !h.flag SUP_CTL_AVS_EN then h
  else if !pmbOk then h.log errSUP_PMB_FAIL
  else h.raiseVddArc 25

def execAvsViolation (h : HalfId) (pmbOk : Bool) (s : State) : Host.Outcome State Fault Refusal :=
  done (s.onMain h (fun x => x.avsViolation pmbOk))

/-! ### Brown-out (R370, R373, R374) -/

def Half.urgentRequest (h : Half) (r : Nat) : Half :=
  if h.fget HKA_STAT_STATE = 3 then h.bump HKA_STAT_MERGED
  else
    let old := h.fget HKA_STAT_STATE
    ((h.modIsl (fun x => { x with urgentRail := some r, hkaPrev := old })).fset HKA_STAT_STATE 3).raise 11

def execUrgentRequest (h : HalfId) (r : Nat) (s : State) : Host.Outcome State Fault Refusal :=
  done (s.onIsland h (fun x => if r < 9 then x.urgentRequest r else x))

/-- A sample of a rail sense lies outside the rail's window. -/
def Half.outside (h : Half) (r code : Nat) : Bool :=
  let (lo, hi) := h.railWindow r
  code * 2000 < lo * 4096 || hi * 4096 < code * 2000

/-- The burst ends (R373, R374): the results go to HKA_URG, and the droop is confirmed or counted as a glitch. A
confirmed droop takes the half DOWN with cause 2. -/
def Half.urgentEnd (h : Half) (samples : List (List Nat)) : Half :=
  match h.isl.urgentRail with
  | none => h
  | some r =>
    let code (c j : Nat) : Nat := h.calibrate c ((samples.getD c []).getD j 0)
    let h' := h.fold (List.range 4) (fun g c => (g.fset HKA_URG_S3 (code c 3) c).fset HKA_URG_S2 (code c 2) c)
    let h' := (h'.fset HKA_STAT_STATE h.isl.hkaPrev).modIsl (fun x => { x with urgentRail := none })
    if h.outside r (code 0 2) && h.outside r (code 0 3) then
      let h' := h'.raise 4
      if h'.mainUp then { h'.modIsl (fun x => { x with boWait := true }) with fatal := some 2 } else h'
    else h'.bump HKA_STAT_GLITCH

def execUrgentBurstEnd (h : HalfId) (samples : List (List Nat)) (s : State) : Host.Outcome State Fault Refusal :=
  done (s.onIsland h (fun x => x.urgentEnd samples))

/-- At BO_HOLD (R370): the rails are cycled if the senses are back, and switched off with SUP_RAIL_LOST if not. -/
def Half.boHold (h : Half) (back : Bool) : Half :=
  if h.isl.boWait then
    let h := h.modIsl (fun x => { x with boWait := false, retries := h.fget SUP_BO_SEQ_RETRY })
    if back then h.switchDown 2 else (h.log errSUP_RAIL_LOST).switchDown 0
  else h

def execBoHoldExpiry (h : HalfId) (sensesBack : Bool) (s : State) : Host.Outcome State Fault Refusal :=
  done (s.onIsland h (fun x => x.boHold sensesBack))

/-! ### Thermal alert and trip (R376, R377, R452) -/

/-- The channels of the 16 die sensors (Table SUP-2). -/
def dieChannels : List Nat := [10, 11, 12, 13, 17, 18, 19, 20, 33, 34, 35, 36, 49, 50, 51, 52]

/-- A temperature code at or above `t` °C. -/
def atLeast (code t : Nat) : Bool := (t + 64) * 16 ≤ code

/-- THERM_N as this half pulls it: from T_ALERT up, until every die temperature is 2 °C below (R376). -/
def Half.thermPull (h : Half) : Half :=
  let hot (t : Nat) : Bool := dieChannels.any (fun c => atLeast (h.fget HKA_RES_CODE c) t)
  let pulled := h.flag SUP_STAT_THERM
  let t := h.fget SUP_THERM_T_ALERT
  let above2 := dieChannels.any (fun c => (t + 62) * 16 < h.fget HKA_RES_CODE c)
  let v := hot t || (pulled && above2)
  h.fset SUP_STAT_THERM (b2n v)

/-- THERM_N reads low: either half or the board controller pulls it. -/
def State.thermLow (s : State) : Bool :=
  s.board.thermPull || s.north.flag SUP_STAT_THERM || s.south.flag SUP_STAT_THERM

/-- Both halves see a change of THERM_N (source 5). -/
def State.thermChange (old new : State) : State :=
  if old.thermLow == new.thermLow then new
  else { new with north := new.north.raise 5, south := new.south.raise 5 }

def Half.thermalTrip (h : Half) : Half :=
  let h := (h.raise 6).modIsl (fun x => { x with tripped := true })
  let h := h.logFatal errSUP_THERM_TRIP 3
  h.switchDown 0

def execThermalTrip (h : HalfId) (sensor : Nat) (s : State) : Host.Outcome State Fault Refusal :=
  done (s.onMain h (fun x => if sensor < 16 then x.thermalTrip else x))

/-- Every sensor reads at least 15 °C below T_TRIP (R377). -/
def Half.cooled (h : Half) : Bool :=
  dieChannels.all (fun c => h.fget HKA_RES_CODE c ≤ (h.fget SUP_THERM_T_TRIP - 15 + 64) * 16)

/-- A restart would be ignored (R377, R432). -/
def Half.restartBarred (h : Half) : Bool := h.isl.fatalF || (h.isl.tripped && !h.cooled)

/-- SUP_CTL.RESTART restarts a DOWN half (R370, R377). (DEDUCED, log 38) -/
def Half.supRestart (h : Half) (resetN : Bool) : Half :=
  if h.own != 0 || !resetN then h
  else if h.isl.tripped && !h.cooled then h.log errSUP_CFG_RANGE
  else (h.modIsl (fun x => { x with tripped := false, boWait := false, retries := h.fget SUP_BO_SEQ_RETRY })).startMain

def execSupRestart (h : HalfId) (s : State) : Host.Outcome State Fault Refusal :=
  done (s.onIsland h (fun x => x.supRestart s.board.resetN))

def execThrottleStart (s : State) : Host.Outcome State Fault Refusal :=
  done { s with board := { s.board with throttled := true } }

def execThrottleEnd (s : State) : Host.Outcome State Fault Refusal :=
  done { s with board := { s.board with throttled := false } }

/-! ### The housekeeping converters (R372, R375) -/

/-- An entry ends: means calibrated and stored, then the next entry, a repetition, or the end (R372). -/
def Half.hkaEntryEnd (h : Half) (sums : List Nat) : Half :=
  if h.fget HKA_STAT_STATE != 1 then h
  else
    let e := h.fget HKA_STAT_ENTRY
    let n := 2 ^ h.fget HKA_SEQ_AVG e
    let ins := h.fget HKA_SEQ_IN e
    let h := h.fold (List.range 4) (fun h c =>
      let ch := 16 * c + bits ins (4 * c + 3) (4 * c)
      h.hkaResult ch (h.calibrate c (rneDiv (sums.getD c 0) n)))
    let h := h.thermPull
    if e + 1 < h.fget HKA_CTL_LEN then h.fset HKA_STAT_ENTRY (e + 1)
    else if h.flag HKA_CTL_REPEAT then h.fset HKA_STAT_ENTRY 0
    else ((h.fset HKA_STAT_STATE 0).fset HKA_STAT_ENTRY 0).raise 9

def execHkaEntryEnd (h : HalfId) (sums : List Nat) (s : State) : Host.Outcome State Fault Refusal :=
  done (s.thermChange (s.onIsland h (fun x => x.hkaEntryEnd sums)))

/-- HKA_CTL.GO (R372): ignored with HKA_CFG_RANGE on a LEN outside 1 to 32, with HKA_BUSY while running; during an urgent burst the
sequence starts when the burst ends. (DESIGN CHOICE, log 36) -/
def Half.hkaGo (h : Half) : Half :=
  let len := h.fget HKA_CTL_LEN
  if len = 0 || 32 < len then h.log errHKA_CFG_RANGE
  else if h.fget HKA_STAT_STATE = 3 && h.isl.hkaPrev = 0 then (h.modIsl (fun x => { x with hkaPrev := 1 })).fset HKA_STAT_ENTRY 0
  else if h.fget HKA_STAT_STATE != 0 then h.log errHKA_BUSY
  else (h.fset HKA_STAT_STATE 1).fset HKA_STAT_ENTRY 0

def execHkaGo (h : HalfId) (s : State) : Host.Outcome State Fault Refusal := done (s.onIsland h Half.hkaGo)

/-- HKA_CTL.CAL starts self-calibration; the sequencer does not run during it (R375). -/
def Half.hkaCal (h : Half) : Half :=
  if h.fget HKA_STAT_STATE = 3 then h.modIsl (fun x => { x with hkaPrev := 2 }) else h.fset HKA_STAT_STATE 2

def execHkaCal (h : HalfId) (s : State) : Host.Outcome State Fault Refusal := done (s.onIsland h Half.hkaCal)

/-- The factors of a converter from its 800 samples of ground and of its reference (R375). A reference mean that
does not exceed the ground mean leaves GAIN unstated: `free`. -/
def calFactors (fused ground reference free : Nat) : Nat × Nat :=
  let off := rneDiv ground 800
  let den : Int := reference - 800 * off
  let gain := if den ≤ 0 then (free : Int) else rneDiv (2 ^ 14 * 800 * ((fused : Int) - off)) den.toNat
  (wrapBits 16 gain, wrapBits 16 off)

/-- Calibration ends (R375); `free` gives each converter the value that its gain may need. -/
def Half.hkaCalEnd (h : Half) (ground reference : List Nat) (free : Nat → Nat) : Half :=
  let h := h.fold (List.range 4) (fun h c =>
    let (g, o) := calFactors (Config.fusedRefCode (Fin.ofNat 4 c)).toNat (ground.getD c 0) (reference.getD c 0) (free c)
    (h.fset HKA_CAL_GAIN g c).fset HKA_CAL_OFFSET o c)
  let h := if h.fget HKA_STAT_STATE = 3 then h.modIsl (fun x => { x with hkaPrev := 0 }) else h.fset HKA_STAT_STATE 0
  (h.fset HKA_STAT_CALDONE 1).raise 10

/-- Calibration runs, under an urgent burst or not. -/
def Half.calibrating (h : Half) : Bool :=
  h.fget HKA_STAT_STATE == 2 || (h.fget HKA_STAT_STATE == 3 && h.isl.hkaPrev == 2)

end Sys2Proof.Machine
end

