-- ==== Sys2Proof/Machine/Timing.lean ====
section
/-! DEFINITION. Device time, references, selection, loop states, holdover and the oscillator DAC (R307 to R325). -/

namespace Sys2Proof.Machine

/-- Change the timing unit's state. -/
def Half.modTmg (h : Half) (f : Tmg → Tmg) : Half := { h with tmg := f h.tmg }



/-- Set device time, cycles and fraction. -/
def Half.setTime (h : Half) (t fr : Nat) : Half :=
  ((h.putN TMG_TIME_LO (t % 2 ^ 32)).putN TMG_TIME_HI (t / 2 ^ 32 % 2 ^ 32)).putN TMG_TIME_FR fr

/-- N_k, the device time of tick k (R307). -/
def Half.tickTime (h : Half) (k : Nat) : Nat := cdiv (k * h.fspec * h.lin * 100) (max 1 (h.fget TMG_FS_FS))

/-- The tick that comes next: the one after the last where ticks are placed as they were, else the first that device time has
not passed (R307). -/
def Half.nextTick (h : Half) : Nat :=
  let fs := max 1 (h.fget TMG_FS_FS)
  let len := h.fspec * h.lin
  match h.tmg.due with
  | some (k, l, f) => if l = len && f = fs then k else (h.deviceTime - 1) * fs / (100 * len) + (if h.deviceTime = 0 then 0 else 1)
  | none => (h.deviceTime - 1) * fs / (100 * len) + (if h.deviceTime = 0 then 0 else 1)

/-- A subarray runs in the half (R317). -/
def Half.subRuns (h : Half) : Bool := h.fget DEV_SUBARR_ACT_ACTIVE != 0

/-! ### References (R310 to R314) -/

def Half.ref (h : Half) (r : Nat) : Ref := h.tmg.refs.getD r Ref.reset

def Half.setRef (h : Half) (r : Nat) (f : Ref → Ref) : Half := h.modTmg (fun t => { t with refs := t.refs.modify r f })

/-- Time references (R311). -/
def timeRef (r : Nat) : Bool := r == 2 || r == 3 || r == 5 || r == 6

/-- Ambiguity A_r in ps, 0 for none (Table TMG-1). (DEDUCED, log 33) -/
def Half.ambiguity (h : Half) (r : Nat) : Nat :=
  match r with
  | 0 => if h.flag TMG_REF_0_F100 0 then 10000 else 100000
  | 1 => if h.flag TMG_REF_0_F100 1 then 10000 else 100000
  | 2 => 10 ^ 12
  | 3 => 10 ^ 12
  | 4 => if h.fget LAN_CFG_MODE (h.fget TMG_REF_0_SRC 4) = 0 then 9640 else 19280
  | _ => 0

/-- `x` taken modulo `a` into −a/2 to a/2; as it is where `a` is 0. -/
def wrapAmb (a : Nat) (x : Int) : Int :=
  if a = 0 then x
  else
    let r := x % (a : Int)
    if (a : Int) < 2 * r then r - (a : Int) else r

/-- e_r brought to the present phase of device time. -/
def Half.refErr (h : Half) (r : Nat) : Int := wrapAmb (h.ambiguity r) ((h.ref r).err + (h.tmg.phase - (h.ref r).phaseAt))

/-- ε_r, the steering error in ps (R311). -/
def Half.steerErr (h : Half) (r : Nat) : Int :=
  wrapAmb (h.ambiguity r) (h.refErr r - (if timeRef r then 0 else ((h.ref r).ofs).getD 0))

/-- A signed word. -/
def Half.getI (h : Half) (r : RegDef) (i : Nat := 0) : Int := sext 32 (h.getN r i)

/-- ε_r as TMG_REF_PH shows it. -/
def Half.showEps (h : Half) (r : Nat) : Half :=
  h.putN TMG_REF_PH (wrapBits 32 (clamp (-(2 ^ 31)) (2 ^ 31 - 1) (h.steerErr r))) r

/-- A history bit is set; source 34 + r where it becomes set (R313, R325). -/
def Half.refHist (h : Half) (f : Fld) (r : Nat) : Half := if h.flag f r then h else (h.fset f 1 r).raise (34 + r)

/-- Seconds a reference needs to qualify (R314). -/
def Half.qualNeed (h : Half) (r : Nat) : Nat := if (h.ref r).lost then h.fget TMG_QUAL_WTR_S else max 1 (h.fget TMG_QUAL_QUAL_S)

/-- TIMER (Table TMG-16). -/
def Half.showTimer (h : Half) (r : Nat) : Half :=
  h.fset TMG_REF_5_TIMER (if h.flag TMG_REF_5_QUAL r || !(h.ref r).en then 0 else h.qualNeed r - (h.ref r).clean) r

/-- A reference loses qualification, where it holds it (Table TMG-2). (DEDUCED, log 33) -/
def Half.refUnqual (h : Half) (r : Nat) : Half :=
  if h.flag TMG_REF_5_QUAL r then (((h.fset TMG_REF_5_QUAL 0 r).raise (34 + r)).refHist TMG_REF_6_DISQUALIFIED r).log errREF_LOST else h

/-- A condition ends qualification and restarts the count (R314). -/
def Half.refCondition (h : Half) (f : Fld) (r : Nat) : Half :=
  let h := h.refHist f r
  let was := h.flag TMG_REF_5_QUAL r
  ((h.setRef r (fun x => { x with clean := 0, dirty := true, lost := x.lost || was })).refUnqual r).showTimer r

/-- FOFS_r out of its window (Table TMG-2). -/
def Half.freqOut (h : Half) (r : Nat) : Bool := h.getN TMG_REF_2 r < (h.getI TMG_REF_7 r).natAbs

/-- A reference event with its raw phase in ps, at device time `now` (R310, R313). (DEDUCED, log 33) -/
def Half.refEvent (h : Half) (r : Nat) (obs : Int) (now : Nat) : Half :=
  let a := h.ambiguity r
  let x := h.ref r
  let e := wrapAmb a (obs - h.getI TMG_REF_4 r)
  let jump := match x.seenAt with
    | none => false
    | some t =>
      let expected := rneDiv (h.getI TMG_REF_7 r * ((now - t) * 10000 : Nat)) (10 ^ 12)
      h.fget TMG_REF_3_PJ_THR r * 1000 < (wrapAmb a (e - x.err - expected)).natAbs
  let h := h.setRef r (fun x => { x with err := e, phaseAt := h.tmg.phase, seenAt := some now })
  let h := if jump then (h.refCondition TMG_REF_6_PHASE_JUMP r).setRef r (fun x => { x with recapture := true }) else h
  h.showEps r

/-- The first PTP sample after reset sets the TAI second while TIME_VALID is 0 and a subarray runs (R323). -/
def Half.ptpSecond (h : Half) (tai : Nat) : Half :=
  let first := !h.tmg.ptpSeen
  let h := h.modTmg (fun t => { t with ptpSeen := true })
  if first && !h.flag TMG_STAT_TIME_VALID && h.subRuns then
    (h.putN TMG_TSET_0 (tai % 2 ^ 32)).fset TMG_TSET_1_SEC_HI (tai / 2 ^ 32) else h

/-- REFERENCE_EVENT (R310): an edge, a TICK block (θ as R116 measured it) or a PTP offset sample. -/
def execReferenceEvent (i : HalfId) (r : Nat) (obs : Int) (now tai : Nat) (s : State) : Host.Outcome State Fault Refusal :=
  done (s.onMain i (fun h =>
    if 7 ≤ r || !h.flag TMG_REF_0_EN r then h
    else if r = 5 then h.refEvent 5 (h.link (h.fget TMG_REF_0_SRC 5)).theta now
    else if r = 6 then (h.ptpSecond tai).refEvent 6 obs now
    else h.refEvent r obs now))

/-- LOS of a reference: as measured for edges and PTP, from the lane or the link group otherwise (Table TMG-2). -/
def Half.losNow (h : Half) (r los : Nat) : Bool :=
  match r with
  | 4 => !h.laneUp (h.fget TMG_REF_0_SRC 4)
  | 5 =>
    let p := h.fget TMG_REF_0_SRC 5
    !h.linkInService p || (match (h.link p).tickAt with | none => true | some k => k + 2 ≤ h.frame)
  | _ => bit los r

/-- One reference at a selection cycle: configuration, monitors, qualification (R314, R315). -/
def Half.refCycle (h : Half) (r los : Nat) : Half :=
  let x := h.ref r
  if !h.flag TMG_REF_0_EN r then
    if x.en then
      ((h.setRef r (fun _ => Ref.reset)).refUnqual r).showTimer r
    else h
  else
    let h := if x.en then h else h.setRef r (fun x => { x with en := true, clean := 0, dirty := true, ofs := none })
    let down := h.losNow r los
    let h := h.setRef r (fun x => { x with los := down })
    let h := if down then h.refCondition TMG_REF_6_LOS r else h
    let h := if h.freqOut r then h.refCondition TMG_REF_6_FREQ_RANGE r else h
    let x := h.ref r
    let h :=
      if !h.flag TMG_REF_5_QUAL r && !x.dirty && h.qualNeed r ≤ x.clean then
        let h := (h.fset TMG_REF_5_QUAL 1 r).raise (34 + r)
        if x.ofs.isNone || x.recapture then h.setRef r (fun y => { y with ofs := some (h.refErr r), recapture := false }) else h
      else h
    (h.showTimer r).showEps r

/-- SECOND_UPDATE (R312, R314): FOFS as measured over each window; counts advance over clean seconds. -/
def Half.secondUpdate (h : Half) (fofs : List Int) : Half :=
  let h := h.modTmg (fun t => { t with secs := t.secs + 1 })
  h.fold (List.range 7) (fun h r =>
    if !h.flag TMG_REF_0_EN r then h
    else
      let h := match fofs[r]? with
        | some f => h.putN TMG_REF_7 (wrapBits 32 (clamp (-(2 ^ 31)) (2 ^ 31 - 1) f)) r
        | none => h
      let bad := (h.ref r).los || h.freqOut r
      (h.setRef r (fun x =>
        if bad then { x with clean := 0, dirty := true }
        else if x.dirty then { x with dirty := false }
        else { x with clean := x.clean + 1 })).showTimer r)

def execSecondUpdate (i : HalfId) (fofs : List Int) (s : State) : Host.Outcome State Fault Refusal :=
  done (s.onMain i (fun h => h.secondUpdate fofs))

/-! ### Holdover model (R319, R320) -/

/-- The least-squares line through the means: n, Σt, Σy, Σ(n·t − Σt)², Σ(n·t − Σt)·(n·y − Σy), each over times counted from the
oldest mean. -/
structure Line where
  n : Nat
  t0 : Nat
  st : Int
  sy : Int
  sxx : Int
  sxy : Int
  deriving DecidableEq, Repr

def lineOf (ms : List (Nat × Int)) : Line :=
  let n := ms.length
  let t0 := (ms.getLast?.map (·.1)).getD 0
  let ts : List (Int × Int) := ms.map (fun m => (((m.1 - t0 : Nat) : Int), m.2))
  let st := (ts.map (·.1)).sum
  let sy := (ts.map (·.2)).sum
  let c := ts.map (fun p => ((n : Int) * p.1 - st, (n : Int) * p.2 - sy))
  ⟨n, t0, st, sy, (c.map (fun p => p.1 * p.1)).sum, (c.map (fun p => p.1 * p.2)).sum⟩

/-- The line's value at second `t`, as numerator and positive denominator. -/
def Line.at (l : Line) (t : Nat) : Int × Nat :=
  if l.sxx = 0 then (l.sy, max 1 l.n)
  else (l.sy * l.sxx + l.sxy * ((l.n : Int) * ((t : Int) - (l.t0 : Int)) - l.st), max 1 l.n * l.sxx.toNat)

/-- The correction that the model gives at second `t`, in 10^-15. -/
def Line.value (l : Line) (t : Nat) : Int := rneDiv (l.at t).1 (l.at t).2

/-- Sum of squared residuals times n·(n²·sxx)² … as a ratio: numerator and denominator of Σr². -/
def Line.resid (l : Line) (ms : List (Nat × Int)) : Nat × Nat :=
  let d := (l.at 0).2
  ((ms.map (fun m => ((m.2 * (d : Int) - (l.at m.1).1).natAbs) ^ 2)).sum, d * d)

/-- Scaled square root of a ratio: √(num/den)·2^16, rounded down. -/
def ratioSqrt (num den : Nat) : Nat := isqrt (num * 2 ^ 32 / max 1 den)

/-- The rms residual of the means about the line, in 2^-16·10^-15. -/
def Line.rms (l : Line) (ms : List (Nat × Int)) : Nat := ratioSqrt (l.resid ms).1 ((l.resid ms).2 * max 1 l.n)

/-- The standard error of the slope, in 2^-16·10^-18 per second. -/
def Line.slopeErr (l : Line) (ms : List (Nat × Int)) : Nat :=
  if l.n ≤ 2 || l.sxx = 0 then 0
  else ratioSqrt ((l.resid ms).1 * 10 ^ 6 * l.n ^ 2) ((l.resid ms).2 * (l.n - 2) * l.sxx.toNat)

/-- TE(t) in ns, times 2^17·10^9 (R320). -/
def Half.teScaled (h : Half) : Nat :=
  let l := lineOf h.tmg.means
  let y := max (h.getN HO_Y * 2 ^ 16) (l.rms h.tmg.means)
  let q := max (h.getN HO_Q * 2 ^ 16) (l.slopeErr h.tmg.means)
  let t := h.tmg.hoSecs
  h.tmg.hoE0 * 2 ^ 17 * 10 ^ 6 + 2 * y * t * 10 ^ 3 + q * t * t

/-- Means kept, mean and standing of the model (R319). (DEDUCED, log 33) -/
def Half.storeMean (h : Half) : Half :=
  let t := h.tmg
  let h := if h.fget TMG_STAT_STATE = 2 && t.cntCorr != 0 then
      h.modTmg (fun t => { t with means := ((t.secs, rneDiv t.sumCorr t.cntCorr) :: t.means).take 1024 })
    else h
  let h := h.modTmg (fun t => { t with sumCorr := 0, cntCorr := 0 })
  if 8 ≤ h.tmg.means.length then h.fset TMG_STAT_MODEL_VALID 1 else h

/-- HOLDOVER_MEAN_STORE (R319). -/
def execHoldoverMeanStore (i : HalfId) (s : State) : Host.Outcome State Fault Refusal :=
  done (s.onMain i (fun h => if h.fget LSE_STAT_ROLE = 1 then h else h.storeMean))

/-! ### States (R316, R317, R318) -/

/-- A change of state raises source 32 and shows in TMG_STAT. -/
def Half.tmgEnter (h : Half) (st : Nat) : Half :=
  let h := (h.fset TMG_STAT_STATE st).raise 32
  let h := h.modTmg (fun t => { t with within := 0 })
  if st = 4 then h.log errHOLDOVER_ENTERED else if st = 5 then h.log errHOLDOVER_EXPIRED else h

/-- SEL changes (Table TMG-17); a switch between references is logged. -/
def Half.tmgSelect (h : Half) (pick : Option Nat) : Half :=
  let old := h.fget TMG_STAT_SEL
  let new := pick.getD 0xF
  let h := h.fold (List.range 7) (fun h r => h.fset TMG_REF_5_SELECTED (b2n (pick == some r)) r)
  if old = new then h
  else
    let h := (h.fset TMG_STAT_SEL new).raise 33
    if old != 0xF && new != 0xF then h.log errREF_SWITCH else h

/-- ACQUIRE begins: the correction is set to −FOFS (R317). -/
def Half.acquire (h : Half) (r : Nat) : Half := (h.tmgEnter 1).modTmg (fun t => { t with corr := -(1000 * h.getI TMG_REF_7 r) })

/-- SWITCHING begins: a slew removes ε of the new pick from the present phase (R318). -/
def Half.switching (h : Half) (r : Nat) : Half := (h.tmgEnter 3).modTmg (fun t => { t with slew := h.steerErr r })

/-- The pick is none: HOLDOVER where the model is valid, FREERUN where not. `e0` is the loop's filtered |ε|, which the spec does
not give. -/
def Half.unpicked (h : Half) (e0 : Nat) : Half :=
  if h.flag TMG_STAT_MODEL_VALID then (h.tmgEnter 4).modTmg (fun t => { t with hoSecs := 0, hoE0 := e0, slew := 0 })
  else (h.tmgEnter 0).modTmg (fun t => { t with corr := 0, slew := 0 })

/-- Table TMG-4. -/
def Half.tmgStates (h : Half) (pick : Option Nat) (e0 : Nat) : Half :=
  let st := h.fget TMG_STAT_STATE
  let sel := h.fget TMG_STAT_SEL
  let h := h.tmgSelect pick
  match pick with
  | none => if st = 1 || st = 2 || st = 3 then h.unpicked e0 else h
  | some r =>
    let near := (h.steerErr r).natAbs ≤ h.fget TMG_LOCK_LOCK_THR * 1000
    if st = 0 then h.acquire r
    else if st = 4 || st = 5 then h.switching r
    else if sel != r then (if st = 1 then h.acquire r else h.switching r)
    else if st = 1 then
      let h := h.modTmg (fun t => { t with within := if near then t.within + 1 else 0 })
      if near && h.fget TMG_LOCK_LOCK_S * 1000 ≤ h.tmg.within then h.tmgEnter 2 else h
    else if st = 3 then (if h.tmg.slew = 0 && near then h.tmgEnter 2 else h)
    else h

/-- One cycle of the slew: SLEW ns/s is SLEW ps in 1 ms (R318). -/
def Half.slewOn (h : Half) : Half :=
  let n : Int := h.fget TMG_SLEW_SLEW
  let d := clamp (-n) n h.tmg.slew
  h.modTmg (fun t => { t with slew := t.slew - d, phase := t.phase - d })

/-- The step of R317: ε of the best time reference becomes zero, once; `runs` tells whether a subarray runs in the other half. A slew in
progress has what ε is left of its reference, none for a frequency reference, which captures its offset again. (DEDUCED, log 33) -/
def Half.stepTime (h : Half) (runs : Bool) : Half :=
  let cand := (List.range 7).filter (fun r => timeRef r && h.flag TMG_REF_0_EN r && h.flag TMG_REF_5_QUAL r)
  if h.flag TMG_STAT_TIME_VALID || !h.flag TMG_CTL_STEP_EN || h.subRuns || runs then h
  else
    match cand with
    | [] => h
    | c :: _ =>
      let best := cand.foldl (fun b r => if h.fget TMG_REF_0_RANK r < h.fget TMG_REF_0_RANK b then r else b) c
      let e := h.steerErr best
      let t : Int := ((h.deviceTime * 2 ^ 32 + h.getN TMG_TIME_FR : Nat) : Int) - rneDiv (e * 2 ^ 32) 10000
      let n := wrapBits 96 t
      let h := (h.setTime (n / 2 ^ 32) (n % 2 ^ 32)).fset TMG_STAT_TIME_VALID 1
      let h := h.modTmg (fun t => { t with
        phase := t.phase - e, traced := true, due := none
        refs := t.refs.map (fun x => { x with recapture := x.ofs.isSome }) })
      let sel := h.fget TMG_STAT_SEL
      h.modTmg (fun t => { t with slew := if t.slew != 0 && timeRef sel then h.steerErr sel else 0 })

/-- Offsets asked to be captured again are captured (R317). -/
def Half.recaptureAll (h : Half) : Half :=
  h.fold (List.range 7) (fun h r =>
    let x := h.ref r
    if !timeRef r && x.recapture && h.flag TMG_REF_5_QUAL r then h.setRef r (fun y => { y with ofs := some (h.refErr r), recapture := false })
    else h)

/-- The pick of R315, with whether the disagreement of equal ranks holds. -/
def Half.tmgPick (h : Half) : Option Nat × Bool :=
  let force := h.fget TMG_CTL_FORCE
  let qual (r : Nat) : Bool := h.flag TMG_REF_0_EN r && h.flag TMG_REF_5_QUAL r
  if h.flag TMG_CTL_HOLD then (none, false)
  else if force ≤ 6 then (if qual force then some force else none, false)
  else
    let all := (List.range 7).filter qual
    let rank := all.foldl (fun m r => min m (h.fget TMG_REF_0_RANK r)) 7
    let cand := all.filter (fun r => h.fget TMG_REF_0_RANK r == rank)
    let sel := h.fget TMG_STAT_SEL
    let thr := h.getN TMG_DIS_THR
    let fofs (r : Nat) : Int := h.getI TMG_REF_7 r
    let close (a b : Int) : Bool := (a - b).natAbs ≤ thr
    if cand.isEmpty then (none, false)
    else if cand.all (fun a => cand.all (fun b => close (fofs a) (fofs b))) then
      (if cand.contains sel then some sel else cand.head?, false)
    else if cand.contains sel then (some sel, false)
    else
      let y := (lineOf h.tmg.means).at h.tmg.secs
      let agree := if h.flag TMG_STAT_MODEL_VALID then
          cand.filter (fun r => (fofs r * 1000 * (y.2 : Int) + y.1).natAbs ≤ thr * 1000 * y.2) else []
      (agree.head?, agree.isEmpty)

/-- The disagreement shows in TMG_STAT, and is logged when it begins and once for each tick interval (R315). -/
def Half.disagree (h : Half) (now : Bool) : Half :=
  let was := h.flag TMG_STAT_DISAGREE
  let h := h.fset TMG_STAT_DISAGREE (b2n now)
  if now && (!was || !h.once.contains 41) then ((h.raise 41).log errREF_DISAGREE |> fun x => { x with once := 41 :: x.once }) else h

/-- TRACE: LOCKED or SWITCHING to a time reference, or to a frequency reference since one was followed. -/
def Half.showTrace (h : Half) : Half :=
  let st := h.fget TMG_STAT_STATE
  let on := st == 2 || st == 3
  let h := h.modTmg (fun t => { t with traced := t.traced || (on && timeRef (h.fget TMG_STAT_SEL)) })
  h.fset TMG_STAT_TRACE (b2n (on && h.tmg.traced))

/-! ### The DAC (R321) -/

/-- The code of a correction, before clamping; `q` stands for the quotient where GAIN is 0. -/
def Half.dacRaw (h : Half) (q : Int) : Int :=
  let g := h.getN TMG_DAC_GAIN
  let d := if g = 0 then q else rneDiv h.tmg.corr g
  (h.fget TMG_DAC_INIT_DAC_INIT : Int) + (if h.flag TMG_DAC_CFG_INVERT then -d else d)

/-- The primary sends a frame every selection cycle. -/
def Half.dacSend (h : Half) (q : Int) : Half :=
  if h.fget LSE_STAT_DRIVE = 0 then h
  else
    let w := h.fget TMG_DAC_CFG_WIDTH
    let raw := h.dacRaw q
    let code := (clamp 0 (2 ^ w - 1) raw).toNat
    let limited := raw != (code : Int)
    let h := (h.fset TMG_DAC_CODE_CODE code).fset TMG_STAT_DAC_LIMIT (b2n limited)
    let h := if limited then (h.raise 43).log errTMG_DAC_LIMIT else h
    let plen := h.fget TMG_DAC_CFG_PLEN
    h.emit (.dacFrame (plen + w) (h.fget TMG_DAC_CFG_PREFIX % 2 ^ plen * 2 ^ w + code))

/-- A free value as an integer of either sign. -/
def signedFree (n : Nat) : Int := if n % 2 = 0 then ((n / 2 : Nat) : Int) else -(((n + 1) / 2 : Nat) : Int)

/-- The correction of this cycle: the model's in holdover, none in FREERUN, −FOFS where ACQUIRE has just begun, else what the
loop filter `loop` gives, which the spec leaves open. -/
def Half.correct (h : Half) (fresh : Bool) (loop : Int) : Half :=
  let st := h.fget TMG_STAT_STATE
  let h := h.modTmg (fun t => { t with corr :=
    if st = 0 then 0
    else if st = 4 || st = 5 then (lineOf t.means).value t.secs
    else if st = 1 && fresh then t.corr else loop })
  if st = 2 then h.modTmg (fun t => { t with sumCorr := t.sumCorr + t.corr, cntCorr := t.cntCorr + 1 }) else h

/-- SELECTION_CYCLE (R315, R316): device time advances by 100,000 TCLK cycles; monitors, pick, states, correction. The secondary
only monitors and qualifies (R309). (DEDUCED, log 33) -/
def Half.selectionCycle (h : Half) (los e0 loop q : Nat) (runs : Bool := false) : Half :=
  let h := h.setTime (h.deviceTime + 100000) (h.getN TMG_TIME_FR)
  let asked := h.tmg.refs.map (·.recapture)
  let h := h.fold (List.range 7) (fun h r => h.refCycle r los)
  if h.fget LSE_STAT_ROLE = 1 then h
  else
    let h := if asked.any (fun b => b) then h.recaptureAll else h
    let h := h.slewOn
    let pick := h.tmgPick
    let st := h.fget TMG_STAT_STATE
    let sel := h.fget TMG_STAT_SEL
    let h := (h.disagree pick.2).tmgStates pick.1 e0
    let h := h.stepTime runs
    let fresh := h.fget TMG_STAT_STATE == 1 && (st != 1 || sel != h.fget TMG_STAT_SEL)
    let h := (h.correct fresh (signedFree loop)).showTrace
    (h.fold (List.range 7) (fun h r => if h.flag TMG_REF_0_EN r then h.showEps r else h)).dacSend (signedFree q)

def execSelectionCycle (i : HalfId) (los : Nat) (s : State) : Host.Outcome State Fault Refusal :=
  if (s.half i).mainUp then
    let (e0, s) := s.free
    let (loop, s) := s.free
    let (q, s) := s.free
    done (s.onMain i (fun h => h.selectionCycle los e0 loop q (s.half i.other).subRuns))
  else done s

/-- HO_TE_UPDATE (R320): each second in holdover; above HO_THR the holdover expires. (DEDUCED, log 33) -/
def Half.hoUpdate (h : Half) : Half :=
  let st := h.fget TMG_STAT_STATE
  if (st != 4 && st != 5) || h.fget LSE_STAT_ROLE = 1 then h
  else
    let h := h.modTmg (fun t => { t with hoSecs := t.hoSecs + 1 })
    let te := h.teScaled
    let h := h.putN HO_TE (min (te / (2 ^ 17 * 10 ^ 9)) (2 ^ 32 - 1))
    if st = 4 && h.getN HO_THR * (2 ^ 17 * 10 ^ 9) < te then h.tmgEnter 5 else h

def execHoTeUpdate (i : HalfId) (s : State) : Host.Outcome State Fault Refusal :=
  done (s.onMain i (fun h => h.hoUpdate))

/-- TIME_COPY (R309): the secondary takes the primary's device time, loop state and DAC code. -/
def Half.copyTime (h o : Half) : Half :=
  let h := h.setTime o.deviceTime (o.getN TMG_TIME_FR)
  let own := h.fget TMG_STAT_PRIMARY
  let h := ((h.putN TMG_STAT (o.getN TMG_STAT)).fset TMG_STAT_PRIMARY own).put TMG_DAC_CODE (o.get TMG_DAC_CODE)
  let h := h.put HO_TE (o.get HO_TE)
  let h := h.modTmg (fun t => { o.tmg with refs := t.refs, secs := o.tmg.secs })
  h.modIsl (fun x => { x with copyFresh := true })

def execTimeCopy (i : HalfId) (s : State) : Host.Outcome State Fault Refusal :=
  done (if (s.half i.other).mainUp && (s.half i.other).fget LSE_STAT_ROLE = 2 then
    s.onMain i (fun h => if h.fget LSE_STAT_ROLE = 1 then h.copyTime (s.half i.other) else h) else s)

/-- PTP_TIMESTAMP (R323). -/
def execPtpTimestamp (i : HalfId) (s : State) : Host.Outcome State Fault Refusal := done (s.onMain i (fun h => h.raise 44))

/-- TSET_GO (R317, Table TMG-12): the next PPS edge is SEC; ignored while a subarray runs. (DEDUCED, log 33) -/
def Half.tsetGo (h : Half) (runs : Bool) : Half :=
  if h.subRuns || runs then h.log errTMG_CFG_RANGE
  else
    let sec : Nat := h.fget TMG_TSET_1_SEC_HI * 2 ^ 32 + h.getN TMG_TSET_0
    let epoch : Nat := h.fget TMG_EPOCH_HI_EPOCH_HI * 2 ^ 32 + h.getN TMG_EPOCH_LO
    let t : Int := ((sec : Int) - (epoch : Int) - 1) * 10 ^ 8 + ((h.deviceTime % 10 ^ 8 : Nat) : Int)
    let moved : Int := t - (h.deviceTime : Int)
    let h := (h.setTime (wrapBits 64 t) (h.getN TMG_TIME_FR)).fset TMG_STAT_TIME_VALID 1
    h.modTmg (fun t => { t with due := none, phase := t.phase + moved * 10000 })

def execTsetGo (i : HalfId) (s : State) : Host.Outcome State Fault Refusal :=
  done (s.onMain i (fun h => h.tsetGo (s.half i.other).subRuns))

/-- A PPS edge falls in a half (R308, R322). -/
def Half.ppsEdge (h : Half) (sec : Nat) : Half :=
  let h := h.setTime (sec * 10 ^ 8 % 2 ^ 64) (h.getN TMG_TIME_FR)
  if h.fget LSE_STAT_DRIVE = 1 && h.flag TMG_OUT_PPS_EN then h.emit (.ppsOut sec (max 1 (h.fget TMG_OUT_PPS_W))) else h

/-- PPS_EDGE (R308): device time reaches `sec` whole seconds in every half that keeps it. -/
def execPpsEdge (sec : Nat) (s : State) : Host.Outcome State Fault Refusal :=
  done ((s.onMain .north (fun h => h.ppsEdge sec)).onMain .south (fun h => h.ppsEdge sec))

/-- The check of device time against ingest at a tick (R324). -/
def Half.timebaseCheck (h : Half) : Half :=
  let outside (q : Nat) : Bool :=
    bit (h.getN TMG_CHK_MASK (q / 32)) (q % 32) && h.getN ING_SKEW q != 0x80000000
      && (SMap.getD h.front.inputs q Inp.reset).got
      && (h.getI ING_SKEW q < h.getI TMG_SKEW_LO || h.getI TMG_SKEW_HI < h.getI ING_SKEW q)
  let bad := (List.range 256).filter outside
  let h := (h.fset TMG_CHK_STAT_COUNT bad.length).fset TMG_CHK_STAT_FIRST (bad.headD 0)
  let n := h.fget TMG_CHK_MIS_CNT
  if n != 0 && n ≤ bad.length then (h.raise 42).log errTIMEBASE_MISMATCH else h

end Sys2Proof.Machine
end

