-- ==== Sys2Proof/Machine/Access.lean ====
section
/-! DEFINITION. Register access (R3 to R8, R31, R413 to R425): the word that a read of each register returns, what a write of each
does, and which accesses reach a half. -/

namespace Sys2Proof.Machine

/-! ### Finding a register (R416) -/

/-- The register word at a window offset, and its instance. -/
def findReg (a : Nat) : Option (RegDef × Nat) :=
  allRegs.findSome? (fun r =>
    if a < r.base then none
    else if r.count = 1 then (if a = r.base then some (r, 0) else none)
    else if (a - r.base) % r.stride = 0 && (a - r.base) / r.stride < r.count then some (r, (a - r.base) / r.stride) else none)

/-- The unit whose block holds an offset (Table REG-1). -/
def blockUnit (a : Nat) : Nat :=
  if a < 0x100000 then 1 else if a < 0x140000 then 2 else if a < 0x180000 then 3 else if a < 0x200000 then 4
  else if a < 0x240000 then 5 else if a < 0x280000 then 6 else if a < 0x300000 then 7 else if a < 0x400000 then 8
  else if a < 0x500000 then 9 else if a < 0x600000 then 10 else if a < 0x700000 then 11 else if a < 0x800000 then 12
  else if a < 0x900000 then 13 else if a < 0x980000 then 14 else if a < 0xA00000 then 15 else if a < 0xB00000 then 16
  else if a < 0xC00000 then 17 else if a < 0xD00000 then 18 else if a < 0xE00000 then 19 else if a < 0x1000000 then 20
  else if a < 0x1400000 then 21 else if a < 0x1500000 then 22 else 23

/-- Bits of the fields that satisfy `p`, as a mask. -/
def fieldMask (r : RegDef) (p : FSpec → Bool) : Nat :=
  (r.fields.filter p).foldl (fun m f => m ||| (2 ^ (f.hi + 1) - 2 ^ f.lo)) 0

/-- Masks of a register word by class and access code. -/
def tickMask (r : RegDef) : Nat := fieldMask r (fun f => f.acc == .rw && f.cls == .tick)
def lockMask (r : RegDef) : Nat := fieldMask r (fun f => f.acc == .rw && f.cls == .locked)
def liveMask (r : RegDef) : Nat := fieldMask r (fun f => f.acc == .rw && (f.cls == .live || f.cls == .none))
def w1cMask (r : RegDef) : Nat := fieldMask r (fun f => f.acc == .w1c)
def rcMask (r : RegDef) : Nat := fieldMask r (fun f => f.acc == .rc)
def readMask (r : RegDef) : Nat := fieldMask r (fun f => f.acc != .wo)

/-- `a` with the bits of `m` taken from `b`. -/
def mixBits (m a b : Nat) : Nat := (a &&& (2 ^ 32 - 1 - m)) ||| (b &&& m)

/-- The LOCKED fields of the register are locked now (Table REG-1). -/
def Half.regLocked (h : Half) (r : RegDef) (i : Nat) : Bool :=
  match blockUnit r.base with
  | 1 => h.subRuns
  | 4 => h.subRuns
  | 8 => if r == ING_LANE_CFG then h.flag ING_LANE_CFG_EN i else h.flag ING_CTL_RUN
  | 9 => h.flag CHN_CTL_RUN
  | 10 => h.flag DLY_CTL_RUN
  | 11 => if r == XCH_LANE_CFG then h.flag XCH_LANE_CFG_EN i else h.flag XCH_CTL_RUN
  | 12 => h.flag ARC_CTL_RUN
  | 13 => h.flag ARC_CTL_RUN
  | 14 => h.flag ARC_CTL_RUN
  | 15 => h.flag LTA_CTL_RUN
  | 16 => h.flag BMF_CTL_RUN
  | 17 => h.capState i != capIdle
  | 18 => h.flag TRW_CTL_RUN
  | 19 => h.flag OUT_CTL_RUN
  | 20 => h.flag LAN_CFG_EN i
  | _ => false

/-! ### Reads -/

/-- KiB that open records hold in the detection store (R213, Table BMF-8). -/
def Half.detStore (h : Half) : Nat := cdiv ((h.bmf.recs.map (fun r => if r.sums.length ≤ 1 then 16 else 48)).sum) 1024

/-- EVC_TGT words that follow the target's state (Table EVC-5). -/
def Half.tgtWord1 (h : Half) (t : Nat) : Nat :=
  let x := h.tgt t
  (h.getN EVC_TGT_1 t &&& 2 ^ 31) + (if x.sleep then 2 ^ 30 else 0)
    + (match x.offer with | some n => 2 ^ 29 + n | none => 0)

def Half.tgtInsvc (h : Half) (t : Nat) : Nat :=
  match (h.tgt t).insvc with
  | none => 0
  | some n => 2 ^ 31 + (if sourceLevel n then (if h.level n then 2 ^ 30 else 0) + 2 ^ 29 else 0) + n

/-- Classes that the queue holds, and its length (Table ERR-7). -/
def Half.errStat (h : Half) : Nat :=
  h.fget ERR_STAT_OVERFLOW * 2 ^ 16 + bitmap ((List.range 4).filter (fun c => h.errq.recs.any (fun r => codeClass r.code == c))) * 2 ^ 12
    + h.errq.recs.length

/-- The value of a register word as hardware shows it; `o` is the other half and `wit` the witness as this half reads it. (DESIGN CHOICE, log 4) -/
def Half.readRaw (h o : Half) (wit : Bool) (r : RegDef) (i : Nat) : Nat :=
  if r == ING_LOCK then h.ingLock
  else if r == CHN_COEF_DATA then wrapBits 18 (SMap.getD h.front.coef (h.fget CHN_COEF_ADDR_ADDR) 0)
  else if r == DLY_RDPTR_LO then h.front.rp % 2 ^ 32
  else if r == DLY_RDPTR_HI then h.front.rp / 2 ^ 32 % 2 ^ 32
  else if r == DLY_GAIN_DATA then
    let a := h.getN DLY_GAIN_ADDR % 2 ^ 18
    (match SMap.find? h.front.gainLate a with
      | some w => w.toNat
      | none => (SMap.getD h.front.gainShadow a (SMap.getD h.front.gain a 0x1000)).toNat)
  else if r == XCH_LINK_STAT_0 && i == h.ord then (if h.running && o.running then xlInService else 0)
  else if (r == XCH_LINK_STAT_1 || r == XCH_LINK_STAT_2) && i == h.ord then 0
  else if r == ARC_PROG_DATA then (SMap.getD h.arc.prog (h.fget ARC_PROG_ADDR_ADDR) 0).toNat
  else if r == CY_INFO_DATA then
    let n := h.fget CY_INFO_ADDR_SLOT
    b2n (h.slotSuspect n) * 2 ^ 31 + b2n (h.slotHeld n) * 2 ^ 30 + SMap.getD h.arc.tags n 0 * 2 ^ 27 + min (h.slotPending n) 65535
  else if r == CY_SUSPECT then bitmap ((List.range 32).filter (fun k => h.slotSuspect (32 * i + k)))
  else if r == CY_WIN then h.cyWord (h.fget CY_WIN_SLOT_SLOT * slotWords + i)
  else if r == BMF_TDATA then h.readTable.toNat
  else if r == BMF_SDATA then h.readScale
  else if r == BMF_DSTATE then h.detStore
  else if r == TRW_CTX_DATA then
    (if ringHalf (h.fget TRW_CTX_SEL_RING) == h.id then (h.ctxReadWord (h.fget TRW_CTX_SEL_RING) i).toNat else 0)
  else if r == TMG_STAT then setBits (h.getN r) 19 19 (h.fget LSE_STAT_DRIVE)
  else if r == LSE_STAT then setBits (setBits (setBits (h.getN r) 23 23 (b2n h.hot)) 19 19 (b2n wit)) 18 18 (b2n h.aliveDrive)
  else if r == EVC_PENDING then bitmap ((List.range 32).filter (fun j => h.pendingSrc (32 * i + j)))
  else if r == EVC_KIND then bitmap ((List.range 32).filter (fun j => sourceLevel (32 * i + j)))
  else if r == EVC_TGT_1 then h.tgtWord1 i
  else if r == EVC_TGT_4 then h.tgtInsvc i
  else if r == ERR_STAT then h.errStat
  else if r == RDB_STAT then setBits (h.getN r) 31 31 (h.fget RDB_STAT_BRIDGE_UP)
  else h.getN r i

/-- Words that a read of a low word latches (R420). (DEDUCED, log 48) -/
def latchedBy (r : RegDef) : List RegDef :=
  if r == DEV_FRM_IDX_LO then [DEV_FRM_IDX_HI]
  else if r == DEV_SERIAL_LO then [DEV_SERIAL_HI]
  else if r == DLY_RDPTR_LO then [DLY_RDPTR_HI]
  else if r == DLY_RQ_STAT_1 then [DLY_RQ_STAT_2]
  else if r == CAP_FSTAT_3 then [CAP_FSTAT_4]
  else if r == HBM_ERR_ADDR_LO then [HBM_ERR_ADDR_HI]
  else if r == RDB_TMO_ADDR_LO then [RDB_TMO_ADDR_HI]
  else if r == TMG_TIME_LO then [TMG_TIME_HI, TMG_TIME_FR]
  else []

/-- What `inc` adds to each RC field of `n`, at its place in the word: the part of the field that came in the cycle of the read (R7). -/
def addedRc (r : RegDef) (n inc : Nat) : Nat :=
  (r.fields.filter (fun f => f.acc == .rc)).foldl (fun m f => m + min (bits n f.hi f.lo) (bits inc f.hi f.lo) * 2 ^ f.lo) 0

/-- Read a register word: the value returned, and the half with RC fields cleared (R419) and words latched (R420). What hardware added
in the cycle of the read is not returned and stays (R7). (DEDUCED, log 48) -/
def Half.regRead (h o : Half) (wit : Bool) (a : Nat) (inc : Nat := 0) : Word × Half :=
  match findReg a with
  | none => (0, h)
  | some (r, i) =>
    if r == EVC_TGT_2 then h.claimRead i (inc != 0)
    else if r == ERR_HEAD_0 then h.headRead
    else
      let raw := match SMap.find? h.latch a with
        | some w => w.toNat
        | none => h.readRaw o wit r i
      let v := mixBits (tickMask r) raw (if r == DLY_GAIN_DATA || r == BMF_TDATA || r == BMF_SDATA then raw else (h.getShadow r i).toNat)
      let h := (latchedBy r).foldl (fun h x => { h with latch := SMap.insert h.latch (x.at i) (BitVec.ofNat 32 (h.readRaw o wit x i)) }) h
      let rc := rcMask r
      let add := addedRc r (h.getN r i) inc
      let h := if rc = 0 then h else h.putN r (mixBits rc (h.getN r i) add) i
      (BitVec.ofNat 32 ((v &&& readMask r) - add), h)

/-! ### Writes -/

/-- MODE is permitted for a serial lane (Table LAN-1). -/
def laneModeFits (lam mode : Nat) : Bool := if lam < 32 then mode < 2 else if lam < 48 then mode == 0 else if lam < 53 then mode == 1 else mode == 2

/-- Bandwidth range of a reference, units of 10^-4 Hz (Table TMG-1). -/
def bwRange (r : Nat) : Nat × Nat :=
  match r with
  | 0 => (10, 10000)
  | 1 => (10, 10000)
  | 2 => (10, 1000)
  | 3 => (10, 1000)
  | 6 => (1, 100)
  | _ => (10000, 1000000)

/-- A beam-product entry word that R215 refuses, judged with the other words as they read. (DEDUCED, log 48) -/
def Half.beamEntryBad (h : Half) (r : RegDef) (i n : Nat) : Bool :=
  let w (k : RegDef) : Nat := if r == k then n else (h.getShadow k i).toNat
  24 < bits (w BMF_PROD_2) 12 8
    || 14 < bits (w BMF_PROD_2) 3 0 || h.ownChans < 2 ^ bits (w BMF_PROD_2) 3 0
    || 4096 < bits (w BMF_PROD_2) 28 16 || 23 < bits (w BMF_PROD_0) 4 0
    || (bit (w BMF_PROD_0) 8 && bit (w BMF_PROD_0) 7 && (bits (w BMF_PROD_1) 26 16 % 2 == 1 || bits (w BMF_PROD_1) 9 0 % 2 == 1))

/-- A write that the owning chapter ignores as a whole: the code it logs, 0 for none. (DEDUCED, log 48) -/
def Half.regReject (h : Half) (r : RegDef) (i n : Nat) (locked : Bool) : Option Nat :=
  let when_ (c : Bool) (code : Nat) : Option Nat := if c then some code else none
  if r == DEV_FRM_CFG then when_ (!locked && (4 < bits n 2 0 || 16384 / (1024 * 2 ^ bits n 2 0) < bits n 18 4)) 0
  else if r == ING_CTL then
    when_ (!locked && (bits n 2 1 == 3 || (bits n 2 1 == 1 && (List.range 32).any (fun k => h.flag ING_LANE_CFG_FRAMING k)))) 0
  else if r == ING_LANE_CFG then when_ (!locked && bit n 2 && h.pmode == 1) 0
  else if r == ING_FDLY then when_ (h.lin ≤ bits n 15 0) errFDLY_RANGE
  else if r == CHN_CFG then
    when_ (bits n 9 8 == 3 || bits n 5 4 == 3 || bits n 2 0 == 7 || 262144 < 4 * 2 ^ bits n 5 4 * (1024 * 2 ^ bits n 2 0)) errCHN_CFG_RANGE
  else if r == CHN_PWR_CFG then when_ (!locked && bits n 19 16 < 4) 0
  else if r == CHN_PWR_BAND then when_ (!locked && bits n 31 16 < bits n 15 0) 0
  else if r == DLY_RQ_CFG then when_ (23 < bits n 4 0) errDLY_CFG_RANGE
  else if r == XCH_CFG then when_ (!locked && (4 < bits n 2 0 || 2 ^ bits n 2 0 ≤ bits n 11 8)) 0
  else if r == ARC_SUB_PROG then when_ (4096 < bits n 11 0 + bits n 27 16) 0
  else if r == TAL_SPILL_CFG then when_ (!locked && 16384 < bits n 13 0 + bits n 29 16) 0
  else if r == LTA_VIS_0 then when_ (8 < bits n 15 12) errLTA_CFG_RANGE
  else if r == LTA_VIS_1 then when_ (bits n 23 0 == 0) errLTA_CFG_RANGE
  else if r == BMF_PROD_0 || r == BMF_PROD_1 || r == BMF_PROD_2 then when_ (h.beamEntryBad r i n) errBMF_CFG_RANGE
  else if r == LAN_CFG then when_ (!laneModeFits i (bits n 9 8)) errLAN_CFG_RANGE
  else if r == LAN_TIME then when_ (bits n 31 16 == 0 || bits n 15 0 == 0) errLAN_CFG_RANGE
  else if r == LAN_DEG then when_ (bits n 15 0 < bits n 31 16) errLAN_CFG_RANGE
  else if r == HBM_RH_CFG then when_ (bits n 15 0 < 256) errHBM_CFG_RANGE
  else if r == TMG_FS then when_ (bits n 11 0 == 0 || 3200 < bits n 11 0) errTMG_CFG_RANGE
  else if r == TMG_SLEW then when_ (bits n 9 0 == 0 || 1000 < bits n 9 0) errTMG_CFG_RANGE
  else if r == TMG_DAC_CFG then when_ (bits n 4 0 < 16 || 24 < bits n 4 0) errTMG_CFG_RANGE
  else if r == TMG_PTP_CFG then when_ (bits n 9 8 == 3) 0
  else if r == TMG_REF_1 then when_ (bits n 19 0 < (bwRange i).1 || (bwRange i).2 < bits n 19 0) errTMG_CFG_RANGE
  else if r == EVC_HV then when_ (bits n 1 0 == 3) errEVC_CFG_RANGE
  else if r == SUP_FEED then when_ (bits n 31 30 == 3) errSUP_CFG_RANGE
  else if r == SUP_AVS then when_ (bits n 11 0 < 650) errSUP_CFG_RANGE
  else if r == SUP_THERM then when_ (bits n 15 8 < 100 || 125 < bits n 15 8) errSUP_CFG_RANGE
  else if r == NVM_XSPI then when_ (bits n 7 0 < 25 || 200 < bits n 7 0) errNVM_CFG_RANGE
  else if r == RDB_QOS then when_ (i == 7) 0
  else none

/-- Put bytes into the words of a register array. -/
def Half.putBytes (h : Half) (r : RegDef) (bs : List Byte) : Half := h.fold (toWords bs).zipIdx (fun h e => h.put r e.1 e.2)

/-- A reply waits while RSP_VALID is 1; BUSY ends when it is written (R398). -/
def Half.mbxFlush (h : Half) : Half :=
  match h.exy.mbxReply with
  | none => h
  | some bs =>
    if h.flag DEV_MBX_CTL_RSP_VALID then h
    else ((({ h with exy := { h.exy with mbxReply := none } } : Half).putBytes DEV_MBX_RSP bs).fset DEV_MBX_CTL_RSP_VALID 1).fset DEV_MBX_CTL_BUSY 0

/-- A write of DEV_MBX_CTL (R398, R411): REQ_GO submits, or sets OVR while BUSY. -/
def Half.mbxGo (h : Half) : Half := if h.flag DEV_MBX_CTL_BUSY then h.fset DEV_MBX_CTL_OVR 1 else h.fset DEV_MBX_CTL_BUSY 1

/-- Windows and commands in place of storage; none where the register is stored by its fields. -/
def Half.regSpecial (h : Half) (r : RegDef) (i : Nat) (w : Word) (late locked : Bool) : Option Half :=
  let n := w.toNat
  if r == CHN_COEF_DATA then some (h.coefWrite w)
  else if r == DLY_GAIN_DATA then some (h.gainWrite w late)
  else if r == DLY_MODEL_12 then some (h.armModel i w late)
  else if r == ARC_PROG_DATA then some (h.progWrite w)
  else if r == ARC_DBG then some (h.dbgWrite w)
  else if r == CY_WIN then
    let a := h.fget CY_WIN_SLOT_SLOT * slotWords + i
    some (if !locked then h.cyPut a n else if h.cyWord a = n then h else h.logErr (errLockedWrite 13))
  else if r == BMF_TDATA then some (h.tdataWrite w late)
  else if r == BMF_SDATA then some (h.sdataWrite w late)
  else if r == TRW_DOORBELL then some (h.doorbell n)
  else if r == TRW_RING_CMD then
    some (if n / 2 ^ 28 = 1 then h.stopRingCmd n else if n / 2 ^ 28 = 2 then h.startRingCmd n else h)
  else if r == TRW_CTX_DATA then some (h.ctxDataWrite i w)
  else if r == EVC_SWSET then some (h.evcSwset (n % 1024))
  else if r == EVC_PENDING then some (h.evcPendingClear i w)
  else if r == EVC_TGT_3 then some (h.evcComplete i (n % 1024))
  else if r == ERR_CTL then some (if bit n 1 then h.errClear else if bit n 0 then h.errPop else h)
  else if r == LAN_TEST then some (h.laneTestWrite i w)
  else if r == LAN_INJ && bit n 31 then some (h.injGo i w)
  else none

/-- Store a word by its fields (R6, R8, R417): LIVE at once, TICK to the shadow, LOCKED unless locked, W1C cleared by ones but for the
bits `same` that hardware set in the cycle of the write (R7). HOLD counts for the tick as it stands at the start of the hand-over window
(R32). (DEDUCED, log 15) -/
def Half.regStore (h : Half) (r : RegDef) (i : Nat) (w : Word) (late locked : Bool) (same : Nat := 0) : Half :=
  let n := w.toNat
  let old := h.getN r i
  let lk := lockMask r
  let v := mixBits (liveMask r ||| (if locked then 0 else lk)) old n
  let v := v &&& (2 ^ 32 - 1 - ((n &&& w1cMask r) &&& (2 ^ 32 - 1 - same)))
  let h := h.putN r v i
  let h := if locked && (n &&& lk) != (old &&& lk) then h.logErr (errLockedWrite (blockUnit r.base)) else h
  let h := if r == DEV_SHDW_CTL && !late then { h with holdSample := h.flag DEV_SHDW_CTL_HOLD } else h
  if tickMask r = 0 then h else h.putShadow (r.at i) (BitVec.ofNat 32 (n &&& tickMask r)) late

/-- Spectrum boundary of the tick timeline that follows the present device time (R307). (DEDUCED, log 48) -/
def Half.nextBoundary (h : Half) : Nat := h.deviceTime * max 1 (h.fget TMG_FS_FS) / (h.lin * 100) + 1

/-- What follows from a stored word in the half itself: `old` is the half before the write. -/
def Half.regEffect (old h o : Half) (r : RegDef) (i : Nat) (w : Word) : Half :=
  let n := w.toNat
  let rose (f : Fld) : Bool := !old.flag f i && h.flag f i
  let fell (f : Fld) : Bool := old.flag f i && !h.flag f i
  let back (f : Fld) : Half := h.fset f (old.fget f i) i
  if r == ING_CTL then (if rose ING_CTL_RUN then h.ingRunSet else h)
  else if r == CHN_CTL then
    (if rose CHN_CTL_RUN then (back CHN_CTL_RUN).chnRunSet o
     else if fell CHN_CTL_RUN then (back CHN_CTL_RUN).chnRunClear h.nextBoundary else h)
  else if r == DLY_CTL then (if fell DLY_CTL_RUN then h.dlyStop else h)
  else if r == XCH_CTL then (if fell XCH_CTL_RUN then h.xchStop else if rose XCH_CTL_RUN then h.linksSync else h)
  else if r == XCH_CFG then (h.fset DEV_HALF_ORD h.ord).lanesIdle.linksSync
  else if r == XCH_LANE_CFG then h.lanesIdle.linksSync
  else if r == ARC_CTL then (if fell ARC_CTL_RUN then (back ARC_CTL_RUN).arcStop else h.arcSettle)
  else if r == LTA_CTL then (if fell LTA_CTL_RUN then (back LTA_CTL_RUN).ltaStop.arcSettle else h)
  else if r == BMF_CTL then (if fell BMF_CTL_RUN then (back BMF_CTL_RUN).bmfStop.arcSettle else h)
  else if r == CAP_CTL then (if fell CAP_CTL_RUN then h.capRunStop else h)
  else if r == TRW_CTL then (if fell TRW_CTL_RUN then h.trwStop else h)
  else if r == OUT_CTL then (if fell OUT_CTL_RUN then h.outStop else h)
  else if r == LAN_CFG then
    (if rose LAN_CFG_EN then (back LAN_CFG_EN).laneEnable i else if fell LAN_CFG_EN then (back LAN_CFG_EN).laneDisable i else h)
  else if r == TMG_TSET_1 then (if bit n 31 then h.tsetGo o.subRuns else h)
  else if r == EVC_ENABLE then
    h.fold (List.range 32) (fun h j =>
      let k := 32 * i + j
      if bit n j && !old.srcEnabled k && h.pendingSrc k then h.wake k else h)
  else if r == MSIX_3 then (if old.flag MSIX_3_VMASK i && !h.flag MSIX_3_VMASK i then h.msixMaskClear (some i) else h)
  else if r == HKA_CTL then
    let h := if bit n 30 then h.hkaCal else h
    if bit n 31 then h.hkaGo else h
  else if r == SUP_THERM then h.thermPull
  else if r == SUP_RAIL_0 then (if i == 6 && h.flag SUP_CTL_AVS_EN then h.fset SUP_RAIL_0_VNOM (old.fget SUP_RAIL_0_VNOM 6) 6 else h)
  else if r == LSE_CTL then (if bit n 0 then h.handover else h)
  else if r == DEV_MBX_CTL then (if bit n 31 then h.mbxGo else h).mbxFlush
  else h

/-- The commands of a CAP_CMD word, in their order (R221); `free` is the value that TRIG may need. -/
def Half.capCmds (h : Half) (v n free : Nat) : Half :=
  let h := if bit n 4 then h.capReleaseCmd v else h
  let h := if bit n 0 then h.capArm v else h
  let h := if bit n 1 then h.capTrigCmd v free else h
  let h := if bit n 2 then h.capFreezeCmd v else h
  if bit n 3 then h.capReadCmd v else h

/-- Bits of a word of EVC_ENABLE whose sources exist: those of reserved sources ignore writes (R344). -/
def enableMask (w : Nat) : Nat := bitmap ((List.range 32).filter (fun j => !sourceReserved (32 * w + j)))

/-- A write of the device record is accepted from the primary `v` whose epoch the island's fence does not exceed (R332). (DEDUCED, log 35) -/
def State.recordFenced (s : State) (v t : HalfId) : Bool :=
  let wr := s.half v
  wr.fget LSE_STAT_ROLE != 2 || wr.getN LSE_EPOCH < (s.half t).getN LSE_FENCE

/-- A write by a master of half `v` to a register word of half `t`; a pending bit that is set in the cycle of the write stays set (R7). -/
def State.regWrite (s : State) (v t : HalfId) (a : Nat) (w : Word) (late : Bool) (same : Nat := 0) : State :=
  match findReg a with
  | none => s
  | some (r, i) =>
    let h := s.half t
    let w := if r == EVC_ENABLE then w &&& BitVec.ofNat 32 (enableMask i) else if r == EVC_PENDING then w &&& ~~~ BitVec.ofNat 32 same else w
    let locked := h.regLocked r i
    if r == LSE_DREC && s.recordFenced v t then s.onIsland t (fun h => (h.raise 68).log errLSE_STALE_EPOCH)
    else match h.regReject r i w.toNat locked with
    | some code =>
      if code = 0 then s
      else s.onIsland t (fun h => (if code = errFDLY_RANGE then h.raiseOnce 806 else h).log code (if blockUnit r.base == 20 then i else 0xFFFF))
    | none =>
      let o := s.half t.other
      if r == CAP_CMD then
        let (x, s) := s.free
        s.onMain t (fun h => h.capCmds i w.toNat x)
      else
        let new := s.onIsland t (fun h =>
          match h.regSpecial r i w late locked with
          | some h => h
          | none => Half.regEffect h (h.regStore r i w late locked same) o r i w)
        let new := if blockUnit r.base == 11 || blockUnit r.base == 20 then s.peerWatch new else new
        let new := if r == SUP_THERM then s.thermChange new else new
        if r == HBM_PC_0 && bit w.toNat 31 then new.onBoth (fun s => s.fence t i 5 late)
        else if r == SUP_CTL && bit w.toNat 2 then new.onIsland t (fun h => h.supRestart s.board.resetN)
        else new

/-! ### Which accesses reach a half (R378, R413 to R415, R424) -/

/-- Offsets that the package sideband reaches (R424). -/
def sidebandReach (a : Nat) : Bool :=
  (0x100000 ≤ a && a < 0x180000) || (0x1500000 ≤ a && a < 0x1600000) || a == 0x280008 || a == 0x28000C || a < 0x20

/-- How an access through half `v` fares: it reaches the half's register, it ends under R304, or it gets no answer. -/
inductive Reach where
  | served | errored | none_
  deriving DecidableEq, Repr

/-- An access by an endpoint or a core of half `v` to a window offset of half `t`. -/
def State.reach (s : State) (v t : HalfId) (a : Nat) : Reach :=
  if !(s.half v).mainUp then .none_
  else if v == t then .served
  else if s.board.bridgeUp && (s.half t).mainUp then .served
  else if (s.half t).isl.powered && sidebandReach a then .served
  else .errored

/-- The half and the window offset of an address of the register space (R413). -/
def windowOf (addr : Nat) : HalfId × Nat := if addr < 0x4000000 then (.north, addr) else (.south, addr - 0x4000000)

/-- A read by a master of half `v`: the word, if the access is answered. A narrower or misaligned access reads 0 and has no effect (R4). -/
def State.busRead (s : State) (v : HalfId) (addr : Nat) (narrow : Bool := false) (inc : Nat := 0) : Option Word × State :=
  let (t, a) := windowOf (addr % 0x8000000)
  match s.reach v t a with
  | .none_ => (none, s)
  | .errored => (some 0xFFFFFFFF, s)
  | .served =>
    if narrow || addr % 4 != 0 then (some 0, s)
    else
      let r := (s.half t).regRead (s.half t.other) (s.witness t) a inc
      (some r.1, s.onIsland t (fun _ => r.2))

/-- A write by a master of half `v`; a narrower or misaligned one has no effect (R4). -/
def State.busWrite (s : State) (v : HalfId) (addr : Nat) (w : Word) (late : Bool) (narrow : Bool := false) (same : Nat := 0) : State :=
  let (t, a) := windowOf (addr % 0x8000000)
  match s.reach v t a with
  | .served => if narrow || addr % 4 != 0 then s else s.regWrite v t a w late same
  | _ => s

/-- A read whose word goes back to the master of half `v`. -/
def State.busReadOut (s : State) (v : HalfId) (addr : Nat) (narrow : Bool) (inc : Nat := 0) : State :=
  match s.busRead v addr narrow inc with
  | (some w, s) => s.onIsland v (fun h => h.emit (.value w))
  | (none, s) => s

/-- REGISTER_WRITE (R8, R417): a 32-bit write by a master of half `v`. -/
def execRegisterWrite (v : HalfId) (addr : Nat) (w : Word) (marks : WriteMarks) (s : State) : Host.Outcome State Fault Refusal :=
  done (s.busWrite v addr w marks.inWindow marks.narrow marks.same.toNat)

/-- RC_READ (R419): a read that returns RC fields clears them. -/
def execRcRead (v : HalfId) (r : RegisterRead) (s : State) : Host.Outcome State Fault Refusal :=
  done (s.busReadOut v r.addr r.narrow r.inc.toNat)

/-- LATCHING_READ (R420): a read of a low word latches the rest of its value. -/
def execLatchingRead (v : HalfId) (r : LowWordRead) (s : State) : Host.Outcome State Fault Refusal :=
  done (s.busReadOut v r.addr r.narrow)

/-- MBX_REQ_GO (R398): the frame in DEV_MBX_REQ is submitted, or OVR set while BUSY. -/
def execMbxReqGo (i : HalfId) (s : State) : Host.Outcome State Fault Refusal := done (s.onMain i (fun h => h.mbxGo))

/-- MBX_RSP_VALID_CLEAR (R398). -/
def execMbxRspValidClear (i : HalfId) (s : State) : Host.Outcome State Fault Refusal :=
  done (s.onMain i (fun h => (h.fset DEV_MBX_CTL_RSP_VALID 0).mbxFlush))

/-- FUNCTION_LEVEL_RESET (R414): DEV_MBX_CTL clears and an unaccepted mailbox frame is abandoned. -/
def execFunctionLevelReset (i : HalfId) (s : State) : Host.Outcome State Fault Refusal :=
  done (s.onMain i (fun h => (h.putN DEV_MBX_CTL 0).mbxFlush))

/-! ### The SMBus target (R378) -/

/-- The half is RUNNING, or the offset lies in what the island serves at any time. -/
def Half.smbusReach (h : Half) (a : Nat) : Bool :=
  h.running || (0x100000 ≤ a && a < 0x180000) || (0x1500000 ≤ a && a < 0x1600000) || a < 0x20

/-- One SMBus write of a register by the target of half `i`. -/
def State.smbusWrite (s : State) (i : HalfId) (addr : Nat) (w : Word) (late : Bool) : State :=
  let (t, a) := windowOf (addr % 0x8000000)
  if addr % 4 != 0 then s
  else if t == i then (if (s.half i).smbusReach a then s.regWrite i i a w late else s)
  else if (s.half i).running then s.busWrite i addr w late else s

/-- SMBUS_REG_WRITE (R378): 4 address and 4 data bytes, least significant first; a bad PEC is NACKed. -/
def execSmbusRegWrite (i : HalfId) (bs : List Byte) (pecOk inWindow : Bool) (s : State) : Host.Outcome State Fault Refusal :=
  let h := s.half i
  done (if !(h.isl.powered && h.isl.ready) then s
    else if !pecOk || bs.length != 8 then s.onIsland i (fun h => h.emit .smbusNack)
    else s.smbusWrite i (fieldAt bs 0 4) (BitVec.ofNat 32 (fieldAt bs 4 4)) inWindow)

/-- SMBUS_SET_ADDRESS (R378). -/
def execSmbusSetAddress (i : HalfId) (bs : List Byte) (pecOk : Bool) (s : State) : Host.Outcome State Fault Refusal :=
  let h := s.half i
  done (if !(h.isl.powered && h.isl.ready) then s
    else if !pecOk || bs.length != 4 then s.onIsland i (fun h => h.emit .smbusNack)
    else s.onIsland i (fun h => h.modIsl (fun x => { x with smbAddr := leNat bs })))

/-- One SMBus read by the target of half `i`. -/
def State.smbusRead (s : State) (i : HalfId) (addr : Nat) : Word × State :=
  let (t, a) := windowOf (addr % 0x8000000)
  if addr % 4 != 0 then (0, s)
  else if t == i then
    (if (s.half i).smbusReach a then
      let r := (s.half i).regRead (s.half i.other) (s.witness i) a
      (r.1, s.onIsland i (fun _ => r.2))
    else (0, s))
  else if (s.half i).running then
    (match s.busRead i addr with | (some w, s) => (w, s) | (none, s) => (0, s))
  else (0, s)

/-- SMBUS_REG_READ (R378): the word at the read address. -/
def execSmbusRegRead (i : HalfId) (s : State) : Host.Outcome State Fault Refusal :=
  let h := s.half i
  done (if !(h.isl.powered && h.isl.ready) then s
    else
      let r := s.smbusRead i h.isl.smbAddr
      r.2.onIsland i (fun h => h.emit (.smbus (leBytes 4 r.1.toNat))))

end Sys2Proof.Machine
end

