-- ==== Sys2Proof/Machine/Roundabout.lean ====
section
/-! DEFINITION. The Roundabout and the die bridge (R294 to R306): requests at target ports, arbitration by effective QoS, order
among one master's transactions, crossing, loss of the bridge, timeouts. -/

namespace Sys2Proof.Machine

/-- Beats per cycle of a target port (Table RDB-2). -/
def portWidth (t : Nat) : Nat := if t = 128 then 16 else if t = 130 then 32 else 1

/-- Target port toward the Courtyard, the register space, the other half. -/
def portCourtyard : Nat := 128
def portRegisters : Nat := 129
def portBridge : Nat := 130

def Half.port (h : Half) (t : Nat) : Port := SMap.getD h.rdb.ports t ⟨7, 0⟩

/-! ### Eligibility (R298) -/

/-- An HBM write of a request's master, before it, that no controller has accepted yet: crossing to the other half, or waiting at
another port. -/
def Half.earlierWrite (h : Half) (r : Req) : Bool :=
  h.rdb.flights.any (fun f => f.master == r.master && f.seq < r.flight && f.req.write && f.req.space == .hbm
    && ((f.req.remote && r.port != portBridge)
      || h.rdb.waiting.any (fun q => q.flight == f.seq && q.port != r.port && q.port < 128)))

/-- The request may be granted now: first of its master at the port, held behind no earlier write, with room at the controller. (DEDUCED, log 31) -/
def Half.mayGo (h : Half) (r : Req) : Bool :=
  !h.rdb.waiting.any (fun q => q.port == r.port && q.master == r.master && q.flight < r.flight)
    && !(r.req.write && r.req.space == .hbm && h.earlierWrite r)
    && (128 ≤ r.port || h.pcRoom r.port r.req.beats)

/-! ### Arbitration (R299, R301) -/

/-- Effective QoS at cycle `g`. -/
def Req.effective (r : Req) (g : Nat) : Nat := min 15 (r.qos + (g - r.since) / 4096)

/-- Cycle of a port's next grant among `rs`: the end of its burst where a request waits by then, else the arrival, one cycle later
for any but the parked master. (DEDUCED, log 31) -/
def Half.grantAt (h : Half) (t : Nat) (rs : List Req) : Nat :=
  let busy := (h.port t).busy
  let at_ (r : Req) : Nat :=
    if r.ready ≤ busy then busy else if r.master = h.fget RDB_PARK_PARK t then r.ready else r.ready + 1
  rs.foldl (fun m r => min m (at_ r)) ((rs.head?.map at_).getD 0)

/-- The request granted at cycle `g`: highest effective QoS, then round robin after the master granted last. (DEDUCED, log 31) -/
def Half.choose (h : Half) (t g : Nat) (rs : List Req) : Option Req :=
  let rs := rs.filter (fun r => r.ready ≤ g)
  let best := rs.foldl (fun m r => max m (r.effective g)) 0
  let top := rs.filter (fun r => r.effective g == best)
  (List.range 8).findSome? (fun k => top.find? (fun r => r.master == ((h.port t).last + 1 + k) % 8))

/-- The next grant of a half: cycle, port and request. -/
def Half.nextGrant (h : Half) : Option (Nat × Req) :=
  let ports := h.rdb.waiting.foldl (fun ps r => if ps.contains r.port then ps else ps ++ [r.port]) []
  ports.foldl (fun best t =>
    let rs := h.rdb.waiting.filter (fun r => r.port == t && h.mayGo r)
    if rs.isEmpty then best
    else
      let g := h.grantAt t rs
      match h.choose t g rs with
      | none => best
      | some r => (match best with | some (b, q) => if b ≤ g then some (b, q) else some (g, r) | none => some (g, r))) none

/-! ### What a grant does -/

/-- A write reaches the Courtyard, or a read comes back from it. -/
def State.courtyardAccess (s : State) (i : HalfId) (r : Req) : State :=
  let h := s.half i
  let a := r.req.addr / 4
  let n := 16 * r.req.beats
  if r.req.write then
    let old := h.cyBytes a n
    let new := (List.range (4 * n)).map (fun j => if bit r.req.be j then r.req.data.getD j 0 else old.getD j 0)
    (s.setHalf i (h.cyWrite a ((List.range n).map (fun k => BitVec.ofNat 32 (fieldAt new (4 * k) 4))))).respond i r.flight 0 [] false
  else s.respond i r.flight 0 (h.cyBytes a n) false

/-- A register access of a master of half `v`, in half `t` (R295, R424); one that is misaligned or does not cover the whole word has no
effect and reads 0 (R4). -/
def State.registerAccess (s : State) (v t : HalfId) (i : HalfId) (r : Req) : State :=
  let a := r.req.addr
  let whole := a % 4 == 0 && r.req.be % 16 == 15
  if r.req.write then
    (if whole then s.regWrite v t a (BitVec.ofNat 32 (leNat (r.req.data.take 4))) r.req.late else s).respond i r.flight 0 [] false
  else if !whole then s.respond i r.flight 0 (leBytes 4 0) false
  else
    let x := (s.half t).regRead (s.half t.other) (s.witness t) a
    (s.setHalf t x.2).respond i r.flight 0 (leBytes 4 x.1.toNat) false

/-- Cycles from the bridge arrival to a target (Table RDB-3). (DESIGN CHOICE, log 32) -/
def arrivalSlices : Space → Nat
  | .hbm => 6
  | .registers => 8
  | .courtyard => 4

/-- A transaction whose target is local waits at its port, under master `m` (R294, R295). -/
def State.requestLocal (s : State) (i : HalfId) (m qos since ready : Nat) (origin : Option Nat) (x : Txn) : State :=
  match x.space with
  | .hbm => s.hbmIssue i m qos since ready origin x
  | sp =>
    let h := s.half i
    let seq := h.rdb.next
    let t := if sp == .courtyard then portCourtyard else portRegisters
    s.setHalf i ((h.modRdb (fun r => { r with next := seq + 1 })).launch ⟨seq, m, 0, x, false, origin, 1, [], false⟩ [⟨seq, t, m, qos, since, ready, x⟩])

/-- A transaction for the other half waits at the bridge port (R294). (DESIGN CHOICE, log 32) -/
def State.requestRemote (s : State) (i : HalfId) (m qos now : Nat) (x : Txn) : State :=
  let h := s.half i
  let seq := h.rdb.next
  s.setHalf i ((h.modRdb (fun r => { r with next := seq + 1 })).launch ⟨seq, m, 0, x, true, none, 1, [], false⟩ [⟨seq, portBridge, m, qos, now, now, x⟩])

/-- A register access across while the bridge is down reaches what the sideband serves (R424); any other transaction completes with
an error (R304). (DESIGN CHOICE, log 32) -/
def State.crossDown (s : State) (i : HalfId) (r : Req) : State :=
  let o := s.half i.other
  if r.req.space == .registers && o.isl.powered && sidebandReach r.req.addr then s.registerAccess i i.other i r
  else
    match (s.half i).rdb.flights.find? (fun f => f.seq == r.flight) with
    | none => s
    | some f => s.setHalf i ((s.half i).failFlight f)

/-- The transaction crosses with its QoS and wait, and enters through master port 7 of the other half (R294, R300). -/
def State.cross (s : State) (i : HalfId) (g : Nat) (r : Req) : State :=
  if !s.board.bridgeUp then s.crossDown i r
  else s.requestLocal i.other 7 r.qos r.since (g + 12 + arrivalSlices r.req.space) (some r.flight) { r.req with remote := false, master := 7 }

/-- A grant: the burst passes the port and goes on to its target. The half that a master's register access comes from is the other
one for master 7. -/
def State.grant (s : State) (i : HalfId) (g : Nat) (r : Req) : State :=
  let h := (s.half i).modRdb (fun d => { d with ports := SMap.insert d.ports r.port ⟨r.master, g + cdiv r.req.beats (portWidth r.port)⟩, waiting := d.waiting.filter (fun q => !(q.flight == r.flight && q.port == r.port)) })
  let s := s.setHalf i h
  if r.port < 128 then s.hbmAccept i r.port g r
  else if r.port = portCourtyard then s.courtyardAccess i r
  else if r.port = portRegisters then s.registerAccess (if r.master = 7 then i.other else i) i i r
  else s.cross i g r

/-- Grants of both halves in time order, up to cycle `now` where one is given. (DEDUCED, log 31) -/
def State.grants (now : Option Nat) : Nat → State → State
  | 0, s => s
  | fuel + 1, s =>
    let pick : Option (HalfId × Nat × Req) :=
      match s.north.nextGrant, s.south.nextGrant with
      | some a, some b => if a.1 ≤ b.1 then some (.north, a) else some (.south, b)
      | some a, none => some (.north, a)
      | none, some b => some (.south, b)
      | none, none => none
    match pick with
    | none => s
    | some (i, g, r) => if now.any (· < g) then s else State.grants now fuel (s.grant i g r)

/-- Requests that wait, here and for an ID. -/
def Half.waitingReqs (h : Half) : Nat := h.rdb.waiting.length + (h.rdb.stalled.map (fun p => p.2.length)).sum

/-- The Roundabout up to cycle `now`, or until nothing more can be granted. -/
def State.roundabout (s : State) (now : Option Nat) : State :=
  let s := (s.flushDead .north).flushDead .south
  s.grants now (2 * (s.north.waitingReqs + s.south.waitingReqs) + 2)

/-! ### Commands -/

/-- The latest MCLK cycle seen. -/
def State.rdbClock (s : State) (now : Nat) : State :=
  { s with north := s.north.modRdb (fun r => { r with clock := max r.clock now })
           south := s.south.modRdb (fun r => { r with clock := max r.clock now }) }

/-- A unit issues a transaction; a burst toward HBM is cut at granules (R295). -/
def State.rdbRequest (s : State) (i : HalfId) (now : Nat) (x : Txn) : State :=
  let s := (s.roundabout (some now)).rdbClock now
  let qos := (s.half i).fget RDB_QOS_QOS x.master
  let parts := if x.space == .hbm then (burstParts x.addr x.beats).map (fun b => partOf x b.1 b.2) else [x]
  let s := parts.foldl (fun s p => if x.remote then s.requestRemote i x.master qos now p else s.requestLocal i x.master qos now now none p) s
  s.roundabout (some now)

/-- A transaction is one that R295 allows: 1 to 16 beats of 64-byte units, or one register word. -/
def txnOk (x : Txn) : Bool :=
  x.master < 7 && (if x.space == .registers then x.beats == 1 else 0 < x.beats && x.beats ≤ 16 && x.addr % 64 == 0)

/-- RDB_REQUEST (R299). -/
def execRdbRequest (i : HalfId) (now : Nat) (x : Txn) (s : State) : Host.Outcome State Fault Refusal :=
  done (if (s.half i).mainUp && txnOk x then s.onBoth (fun s => s.rdbRequest i now x) else s)

/-- BRIDGE_CRC_FAIL (R303): a flit is replayed. -/
def execBridgeCrcFail (i : HalfId) (s : State) : Host.Outcome State Fault Refusal :=
  done (if s.board.bridgeUp then s.onMain i (fun h => (h.bumpWord RDB_BRIDGE_CNT).log errRDB_REPLAY) else s)

/-- BRIDGE_DOWN (R304). -/
def execBridgeDown (s : State) : Host.Outcome State Fault Refusal := done (s.onBoth State.bridgeFall)

/-- BRIDGE_RETRAINED (R304): it returns to service at the next tick. -/
def execBridgeRetrained (s : State) : Host.Outcome State Fault Refusal :=
  done (if s.board.bridgeUp then s else { s with board := { s.board with bridgeReady := true } })

/-- The bridge returns to service at a tick (R304). -/
def State.bridgeTick (s : State) : State :=
  if !s.board.bridgeReady || s.board.bridgeUp || !s.north.mainUp || !s.south.mainUp then s
  else
    let up (h : Half) : Half := (h.fset RDB_STAT_BRIDGE_UP 1).log errRDB_BRIDGE_UP
    { s with board := { s.board with bridgeUp := true, bridgeReady := false }, north := up s.north, south := up s.south }

/-- RDB_TIMEOUT (R305): no response within RDB_CFG.TMO µs. -/
def Half.timeout (h : Half) (f : Flight) : Half :=
  let h := (h.putN RDB_TMO_ADDR_LO (f.req.addr % 2 ^ 32)).putN RDB_TMO_ADDR_HI (f.master * 2 ^ 29 + f.req.addr / 2 ^ 32 % 256)
  (h.failFlight f).log errRDB_TIMEOUT

def execRdbTimeout (i : HalfId) (m n : Nat) (s : State) : Host.Outcome State Fault Refusal :=
  done (s.onMain i (fun h => match (h.inFlight m).find? (fun f => f.id == n) with | some f => h.timeout f | none => h))

end Sys2Proof.Machine
end

