-- ==== Sys2Proof/Machine/Schedule.lean ====
section
/-! DEFINITION. Schedules and admission (R33 to R37, R155, R192, R245, R249, R456 to R459): what a schedule asks of a half, the
checks of Table FRM-11, the budgets of Table FRM-3, and the block program that Exylo builds for a subarray. -/

namespace Sys2Proof.Machine

/-! ### Status codes (Table EXY-5) -/

def stOk : Nat := 0x0000
def stTick : Nat := 0x0001
def stBadOpcode : Nat := 0x0101
def stBadLength : Nat := 0x0102
def stBadCrc : Nat := 0x0103
def stOverBudget : Nat := 0x0201
def stNoMemory : Nat := 0x0202
def stQuota : Nat := 0x0203
def stStaleEpoch : Nat := 0x0301
def stHalfDown : Nat := 0x0302
def stLocked : Nat := 0x0401
def stBusy : Nat := 0x0501
def stAuthFail : Nat := 0x0601

/-- The command was executed or accepted. -/
def stGood (st : Nat) : Bool := st == stOk || st == stTick

/-! ### Schedules -/

def Sched.visSets (x : Sched) : List (Prod × VisSet) :=
  x.prods.filterMap (fun p => match p.set with | .vis v => some (p, v) | _ => none)

def Sched.beamSets (x : Sched) : List (Prod × BeamSet) :=
  x.prods.filterMap (fun p => match p.set with | .beam v => some (p, v) | _ => none)

def Sched.capSets (x : Sched) : List (Prod × CapSet) :=
  x.prods.filterMap (fun p => match p.set with | .cap v => some (p, v) | _ => none)

/-- The schedule in effect for frame `j` (R38). -/
def Sub.at (x : Sub) (j : Nat) : Option Sched := (x.vers.find? (fun v => v.1 ≤ j)).bind (·.2)

/-- The schedules that run in frame `j` or later, newest first. -/
def Sub.liveFrom (x : Sub) (j : Nat) : List Sched :=
  let late := x.vers.takeWhile (fun v => j < v.1)
  (late ++ ((x.vers.drop late.length).head?).toList).filterMap (·.2)

/-- Every schedule that the subarray still has: an old one until no stage uses it, that of a tear-down until it has stopped. -/
def Sub.held (x : Sub) : List Sched := x.vers.filterMap (·.2)

/-- The newest schedule: the subarray exists while there is one (R39). -/
def Sub.latest (x : Sub) : Option Sched := x.vers.head?.bind (·.2)

/-- A schedule without the products that are shed. -/
def Sub.unshed (x : Sub) (s : Sched) : Sched := { s with prods := s.prods.filter (fun p => !x.shed.any (fun q => q.1 == p.num)) }

/-- B_s: one more than the highest beam that a product names. -/
def Sched.beams (x : Sched) : Nat := x.beamSets.foldl (fun m p => max m (p.2.first + p.2.nb)) 0

/-- The shape of the subarray's beam tiles: BT-64 where a product names it. -/
def Sched.beamShape (x : Sched) : Nat := if x.beamSets.any (fun p => p.2.shape == 0) then 2 else 3

/-- The settings that the visibility products share (R458). -/
def Sched.corr (x : Sched) : Option VisSet := x.visSets.head?.map (·.2)

def Sched.x32 (x : Sched) : Bool := (x.corr.map (·.x32)).getD false
def Sched.gcode (x : Sched) : Nat := (x.corr.map (·.gcode)).getD 0

/-- K_s, and the blocks of the tiles: 64-blocks, or 32-blocks for XT-32. -/
def Sched.blocks (x : Sched) : Nat := blocks64 x.inputs
def Sched.tileBlocks (x : Sched) : Nat := if x.x32 then blocks32 x.inputs else x.blocks

/-- T_s, or T32 for XT-32; 0 without a visibility product. -/
def Sched.tiles (x : Sched) : Nat := if x.corr.isNone then 0 else x.tileBlocks * (x.tileBlocks + 1) / 2

def mib : Nat := 2 ^ 20
def gib : Nat := 2 ^ 30

/-- Courtyard bytes (row 5 of Table FRM-3). -/
def courtyardNeed (tp bs ks : Nat) : Nat := 2 * tp * 32768 + 16 * mib + tp * 16384 + bs * 64 * ks * 24 + mib

/-- T_p at a split into `q` groups (R155). -/
def Sched.tpAt (x : Sched) (q : Nat) : Nat :=
  if x.corr.isNone then 0
  else if x.x32 then cdiv x.tiles 4
  else if q = 1 then x.tiles else cdiv x.blocks q ^ 2

/-- Q (R155): the smallest power of two for which row 5 fits. -/
def Sched.split (x : Sched) : Nat :=
  (([1, 2, 4, 8, 16, 32, 64, 128] : List Nat).find? (fun q => courtyardNeed (x.tpAt q) x.beams x.blocks ≤ 256 * mib)).getD 128

def Sched.tp (x : Sched) : Nat := x.tpAt x.split

/-- R_p: how often the Arcade reads a staged block (R155). -/
def Sched.reread (x : Sched) : Nat :=
  if x.corr.isNone then b2n (0 < x.beams) else x.split + b2n (x.split != 1 && 0 < x.beams)

/-- A partition: PART, and its groups as first block and blocks, the second empty on the diagonal. -/
structure Part where
  part : Nat
  a : Nat
  na : Nat
  b : Nat
  nb : Nat
  deriving DecidableEq, Repr

def Part.tiles (p : Part) : Nat := if p.nb = 0 then p.na * (p.na + 1) / 2 else p.na * p.nb

/-- Records of a partition's VIS stream (R188). -/
def Part.records (p : Part) (x32 : Bool) : Nat :=
  let e := tileEdge x32
  if p.nb = 0 then p.na * (e * (e + 1) / 2) + (p.tiles - p.na) * e ^ 2 else p.tiles * e ^ 2

/-- The partitions of a subarray in program order (R155). The last group is padded: it stages and sweeps ⌈K/Q⌉ blocks like the
others; a group without any block of the subarray forms no partition. (DEDUCED, log 53) -/
def Sched.parts (x : Sched) : List Part :=
  if x.corr.isNone then []
  else if x.x32 then [⟨0, 0, x.tileBlocks, 0, 0⟩]
  else
    let q := x.split
    let g := cdiv x.blocks q
    let group (n : Nat) : Nat × Nat := (n * g, if n * g < x.blocks then g else 0)
    ((List.range q).flatMap (fun a => ((List.range q).filter (a ≤ ·)).filterMap (fun b =>
      let ga := group a
      let gb := group b
      if a = b then (if ga.2 = 0 then none else some (⟨a * q + a, ga.1, ga.2, 0, 0⟩ : Part))
      else if ga.2 = 0 || gb.2 = 0 then none else some (⟨a * q + b, ga.1, ga.2, gb.1, gb.2⟩ : Part))))

/-! ### Block programs (R146, R147, R155) -/

/-- SCODE of a stripe over `nblk` staged blocks (R134), and its length. -/
def Half.scode (h : Half) (nblk g : Nat) : Nat :=
  let room := 8 * mib / (64 * nblk * h.bps)
  ((List.range 5).reverse.find? (fun c => 512 * 2 ^ c ≤ room && 512 * 2 ^ c ≤ h.fspec * g)).getD 0

def opW0 (opc sub lo : Nat) : Nat := opc * 2 ^ 28 + sub * 2 ^ 24 + lo

/-- The XT-32 passes: tiles in ascending t(a, b), four to a pass (R139). -/
def quadWords (k : Nat) : List Nat :=
  let ts := (sweep true k 0).map (fun t => 0x80 + t.1 * 16 + t.2 * 2)
  (chunks 4 ts).map (fun c => (List.range 4).foldl (fun w q => w + c.getD q 0 * 2 ^ (8 * q)) 0)

/-- The XT ops of a partition. -/
def xtOps (sub rec0 : Nat) (p : Part) (v : VisSet) : List (List Nat) :=
  let lo := v.amode * 2 ^ 20 + v.k16c * 2 ^ 18 + 0x18000
  if v.x32 then
    (quadWords p.na).zipIdx.map (fun (w, n) => [opW0 3 sub (2 ^ 22 + lo), n, rec0 + n, w])
  else [[opW0 3 sub (lo + (if p.nb = 0 then 0x100 else 0)), 0, p.tiles * 2 ^ 16 + rec0, 0]]

/-- The BT ops of a subarray. -/
def Sched.btOps (x : Sched) (sub : Nat) : List (List Nat) :=
  let sh := x.beamShape
  let nib := if sh = 2 then x.blocks else 4 * cdiv x.blocks 4
  (List.range (cdiv x.beams (beamsPer sh))).map (fun g => [opW0 4 sub (sh * 2 ^ 22), g, nib * 2 ^ 8, 0])

/-- A block: what comes before its loop, the loop over stripes, its CLOSE. -/
def Half.blockOps (h : Half) (sub g part slots : Nat) (open_ : List (List Nat)) (a na b nb : Nat) (body : List (List Nat)) : List (List Nat) :=
  let sc := h.scode (na + nb) g
  open_ ++ [[opW0 9 sub (body.length + 1), h.fspec * g / (512 * 2 ^ sc), 0, 0], [opW0 2 sub (sc * 16), na * 2 ^ 8 + a, nb * 2 ^ 8 + b, 0]]
    ++ body ++ [[opW0 5 sub (0x8000 + part), 0, slots, 0]]

/-- The block program of a subarray; `rec0` is the first tally record of the layout. (DESIGN CHOICE, log 24) -/
def Half.program (h : Half) (sub : Nat) (x : Sched) (rec0 : Nat) : List (List Nat) :=
  let base := firstBlk64 x.inputs
  let g := 2 ^ x.gcode
  let bts := x.btOps sub
  let own := 0 < x.beams && (x.corr.isNone || x.split != 1)
  (match x.corr with
  | none => []
  | some v =>
    let tag := (if v.x32 then 3 else 1) + b2n (v.amode == 2)
    x.parts.flatMap (fun p =>
      let n := if v.x32 then cdiv p.tiles 4 else p.tiles
      let (na, nb) := if v.x32 then (x.blocks, 0) else (p.na, p.nb)
      h.blockOps sub g p.part n [[opW0 1 sub (0x8000 + tag), 0, n, n * 2 ^ 16 + rec0]] (base + p.a) na (if nb = 0 then 0 else base + p.b) nb
        (xtOps sub rec0 p v ++ (if own then [] else bts))))
  ++ (if own then h.blockOps sub g (x.split ^ 2 % 256) 0 [] base x.blocks 0 0 bts else [])

/-! ### What a schedule asks for -/

/-- F·L_in over fs·10^6: t_f in seconds. -/
def Half.tickSec (h : Half) : Rat := (h.fspec * h.lin : Nat) / ((max 1 (h.fget TMG_FS_FS) * 10 ^ 6 : Nat) : Rat)

/-- Bay-cycles per frame (row 1, R458). -/
def Half.bayCycles (h : Half) (x : Sched) : Nat :=
  let fc := h.fspec * h.ownChans
  (match x.corr with
  | none => 0
  | some v =>
    let t := if v.x32 then cdiv x.tiles 4 else x.tiles
    if v.amode = 0 then t * fc / 2 else if v.amode = 1 then t * fc else 2 * t * fc)
  + (if x.beams = 0 then 0
    else if x.beamShape = 2 then cdiv x.beams 64 * x.blocks * fc
    else cdiv x.beams 16 * cdiv x.blocks 4 * fc)

/-- O_h of a schedule's correlation. -/
def Half.outChans (h : Half) (v : VisSet) : Nat := h.ownChans / 2 ^ v.gcode

/-- S_lta of a product (R180). -/
def Half.ltaBytes (h : Half) (x : Sched) (v : VisSet) : Nat := h.outChans v * x.tiles * recSize v.x32

/-- Bytes of packets of a stream of `n` bytes (R192), and how many packets. -/
def streamBytes (n : Nat) : Nat := n + 68 * cdiv n 8192

/-- Bytes of a dump of a visibility product (R192). -/
def Half.dumpBytes (h : Half) (x : Sched) (v : VisSet) : Nat :=
  h.outChans v * ((x.parts.map (fun p => streamBytes (8 * p.records v.x32) + streamBytes (4 * p.records v.x32))).sum
    + (if v.rowstat then streamBytes (16 * x.inputs.length) else 0))

/-- Packets of a dump by flow. -/
def Half.dumpPackets (h : Half) (x : Sched) (v : VisSet) : List (Nat × Nat) :=
  let o := h.outChans v
  [(v.flowVis, o * (x.parts.map (fun p => cdiv (8 * p.records v.x32) 8192)).sum),
   (v.flowCnt, o * (x.parts.map (fun p => cdiv (4 * p.records v.x32) 8192)).sum)]
    ++ (if v.rowstat then [(v.flowRow, o * cdiv (16 * x.inputs.length) 8192)] else [])

/-- Spectra of a detected record after the split of R211. -/
def BeamSet.nsr (v : BeamSet) : Nat := min (2 ^ v.nsCode) (2 ^ 20 / 2 ^ v.ncCode)

/-- Beams, or pairs of beams in full Stokes. -/
def BeamSet.streams (v : BeamSet) : Nat := if v.stokes then v.nb / 2 else v.nb

/-- Packets per frame of a beam product (R207, R212). -/
def Half.beamPackets (h : Half) (v : BeamSet) : Nat :=
  if v.detected then
    let recs := h.ownChans / 2 ^ v.ncCode * cdiv h.fspec v.nsr
    v.streams * cdiv (recs * (if v.stokes then 32 else 16)) 8192
  else v.nb * h.ownChans * (h.fspec / min h.fspec (8192 / (if v.vfmt8 then 2 else 1)))

/-- Bytes per frame of a beam product with headers and trailers (R214). -/
def Half.beamBytes (h : Half) (v : BeamSet) : Nat :=
  (if v.detected then v.streams * (h.ownChans / 2 ^ v.ncCode * cdiv h.fspec v.nsr) * (if v.stokes then 32 else 16)
  else v.nb * h.ownChans * h.fspec * (if v.vfmt8 then 2 else 1)) + 68 * h.beamPackets v

/-- Input q of a Plaza index in this half. -/
def Half.ownQ (h : Half) (i : Nat) : Option Nat := h.qOfPlaza i

/-- Existing inputs of a feed's range, as Plaza indices (R217). -/
def Half.feedInputs (h : Half) (v : CapSet) : List Nat :=
  match h.ownQ v.input with
  | none => []
  | some q => ((List.range v.nq).map (q + ·)).filterMap (fun q => (h.dense q).map h.plazaIndex)

/-- Z of a feed, bytes per frame that it writes and, streaming, sends. -/
def Half.feedZ (h : Half) (v : CapSet) : Nat := cdiv (32 + v.nch * h.bps) 64 * 64
def Half.feedBytes (h : Half) (v : CapSet) : Nat := (h.feedInputs v).length * h.feedZ v * h.fspec
/-- Packets per frame of a streaming capture feed (R226). -/
def Half.feedPackets (h : Half) (v : CapSet) : Nat :=
  let recs := (h.feedInputs v).length * h.fspec
  let z := h.feedZ v
  if !v.stream then 0 else if z ≤ 8192 then cdiv recs (8192 / z) else recs * cdiv z 8192

def Half.feedStream (h : Half) (v : CapSet) : Nat :=
  if !v.stream then 0
  else
    (h.feedInputs v).length * h.fspec * h.feedZ v + 68 * h.feedPackets v

/-- Flows of a schedule, each once. -/
def Sched.flows (x : Sched) : List Nat :=
  (x.prods.flatMap (fun p => match p.set with
    | .vis v => [v.flowVis, v.flowCnt, v.flowRow]
    | .beam v => [v.flow]
    | .cap v => [v.flow])).eraseDups

/-- Packets of each flow that carries something (row 7, R226): per dump, and per frame of beams and streaming feeds. -/
def Half.ringPackets (h : Half) (x : Sched) : List (Nat × Nat) :=
  let all := x.visSets.flatMap (fun p => h.dumpPackets x p.2) ++ x.beamSets.map (fun p => (p.2.flow, h.beamPackets p.2))
    ++ (x.capSets.filter (·.2.stream)).map (fun p => (p.2.flow, h.feedPackets p.2))
  (all.map (·.1)).eraseDups.map (fun r => (r, (all.filter (fun e => e.1 == r)).map (·.2) |>.sum))

/-- Smallest RCODE of a region of `n` bytes: a power of two descriptors of 32 B. -/
def rcodeFor (n : Nat) : Nat := ((List.range 25).find? (fun c => n ≤ 32 * 2 ^ c)).getD 24

/-- Row 7: the region that each ring needs, as RCODE (R249). -/
def Half.ringSizes (h : Half) (x : Sched) : List (Nat × Nat) :=
  (h.ringPackets x).map (fun e => (e.1, max 4 (rcodeFor (32 * e.2 * 2))))

/-- Lanes that carry output (Table FRM-3's P_act): the logical lanes that are not vacant; in PMODE 1 all four, or none from the tick after
the port went down until it has returned (R253). -/
def Half.actLanes (h : Half) : Nat :=
  if h.flag OUT_CTL_PMODE then (if h.trw.portDown then 0 else 4) else h.logicalLanes.length

def Half.ringRec (h : Half) (r : Nat) : Option RingRec := h.exy.rings.find? (fun x => x.ring == r)

/-- Rate of a ring in Mb/s as R245 counts a subarray's use: an unshaped one by the lanes that grant it (R243, R251). -/
def Half.ringUse (h : Half) (r : Nat) : Nat :=
  let c := h.ctx r
  if ctxRate c != 0 then ctxRate c
  else 100000 * (h.logicalLanes.filter (h.ringOnLane (ctxLanes c))).length

/-- Bytes that a subarray alone owns in HBM (R456): L48 records, the two images of its beam table, its capture rings, those of feeds that
are shed until their RELEASE (R227). -/
def Half.ownBytes (h : Half) (sub : Nat) (x : Sched) : Nat :=
  let stays (q : Place) : Bool := q.kind == 2 && q.sub == sub && !x.capSets.any (fun p => p.1.num == q.num)
  (x.visSets.map (fun p => h.ltaBytes x p.2)).sum + 2 * (x.beams * 64 * x.blocks * 24)
    + (x.capSets.map (fun p => 2 ^ (20 + p.2.szCode))).sum + ((h.exy.places.filter stays).map (fun (q : Place) => q.size)).sum

/-- Ring space a subarray holds (R249): region sizes, a reserved one beside the old. -/
def Half.ringHeld (h : Half) (sub : Nat) : Nat :=
  ((h.exy.rings.filter (fun r => ctxSub (h.ctx r.ring) == sub)).map (fun r =>
    32 * 2 ^ r.rcode + (match r.grow with | some g => 32 * 2 ^ g.2.1 | none => 0))).sum

/-- The four uses of a subarray that runs `x`, in the units of Table FRM-8. -/
def Half.uses (h : Half) (sub : Nat) (x : Sched) : List Nat :=
  [cdiv (h.bayCycles x) mib, cdiv (h.ownBytes sub x) mib, cdiv (h.ringHeld sub) 1024,
   ((x.flows.filter (fun r => (h.ringRec r).isSome)).map h.ringUse).sum]

/-- A quota holds a use: all ones sets none (R457). -/
def quotaHolds (quota use : Nat) : Bool := quota == 2 ^ 32 - 1 || use ≤ quota

/-! ### HBM layout (R406, Table HBM-2) -/

/-- Bytes of the shared regions: delay store, flag plane, corner-turn store (R102, R122). -/
def Half.delayBytes (h : Half) : Nat := h.ownInputs * h.chans * h.bps * h.depth * h.fspec
def Half.flagBytes (h : Half) : Nat := h.ownInputs * (h.depth * h.fspec / h.skm) * (h.chans / 8 + h.skm)
def Half.cornerBytes (h : Half) : Nat := 2 * h.plazaInputs * h.ownChans * h.fspec * h.bps

/-- Bytes of the mirrored region that Exylo lays, and of the ring contexts at its start (R231). -/
def mirrorBytes : Nat := 2 * gib
def contextBytes : Nat := 64 * mib

/-- The live pseudo-channels that Exylo lays regions over. -/
def Half.pcsLaid (h : Half) : Nat := (h.livePcs 0xFFFF).length

/-- EXT of a region of `n` units of 4 KiB (R276). -/
def Half.extOf (h : Half) (mirror : Bool) (n : Nat) : Nat :=
  if mirror then cdiv (2 * n) (max 1 h.pcsLaid) else cdiv n (max 1 (h.pcsLaid - 8))

/-- Sizes of the regions in units of 4 KiB, by region number; L48 records and capture rings share what is left, three parts to
one, or as `l48` and `cap` bytes need. -/
def Half.regionSizes (h : Half) (l48 cap : Nat) : List Nat :=
  let u (n : Nat) : Nat := cdiv n 4096
  let fixed := [u h.delayBytes, u h.flagBytes, u h.cornerBytes, u (96 * mib), u (4 * gib)]
  let used := (fixed.map (h.extOf false)).sum + h.extOf true (u mirrorBytes)
  let left := (196608 - used) * (h.pcsLaid - 8)
  let capU := if u l48 ≤ left * 3 / 4 && u cap ≤ left / 4 then left / 4 else max (u cap) (left - u l48) |> min left
  let capU := if u l48 + u cap ≤ left then (if left * 3 / 4 < u l48 then left - u l48 else if left / 4 < u cap then u cap else left / 4) else capU
  [fixed.getD 0 0, fixed.getD 1 0, fixed.getD 2 0, left - capU, fixed.getD 3 0, fixed.getD 4 0, capU, u mirrorBytes]

/-- One region entry as five words: EN, MIRROR and SET, BASE, SIZE, PCBASE, EXT. (DESIGN CHOICE, log 24) -/
def regionEntry (mirror : Bool) (base size pcbase ext : Nat) : List Word :=
  if size = 0 then List.replicate 5 0
  else [BitVec.ofNat 32 (2 ^ 31 + (if mirror then 2 ^ 30 else 0) + 0xFFFF), BitVec.ofNat 32 base, BitVec.ofNat 32 size, BitVec.ofNat 32 pcbase, BitVec.ofNat 32 ext]

/-- The words of a region entry as they will stand: its shadow where one waits for a tick, else what is in effect (R31, R277). -/
def Half.regionPlan (h : Half) (r : Nat) : List Word :=
  [HBM_REGION_0, HBM_REGION_1, HBM_REGION_2, HBM_REGION_3, HBM_REGION_4].map (fun d => SMap.getD h.shadow (d.at r) (h.get d r))

/-- Write a region entry; it hands over at the next tick (R277). -/
def Half.planRegion (h : Half) (r : Nat) (ws : List Word) : Half :=
  let words := ([HBM_REGION_0, HBM_REGION_1, HBM_REGION_2, HBM_REGION_3, HBM_REGION_4] : List RegDef).zip ws
  { h with shadow := words.foldl (fun m e => SMap.insert m (e.1.at r) e.2) h.shadow }

/-- The region is laid, or will be at the next tick. -/
def Half.regionLaid (h : Half) (r : Nat) : Bool := bit ((h.regionPlan r).getD 0 0).toNat 31

/-- Lay the regions: the mirrored one first in addresses and in the pseudo-channels, then the others in their order. Entries that
stand as they should are left; the others go to the shadow table and hand over at the next tick. (DESIGN CHOICE, log 24) -/
def Half.layHbm (h : Half) (l48 cap : Nat) : Half :=
  let sizes := h.regionSizes l48 cap
  let order := [7, 0, 1, 2, 3, 4, 5, 6]
  let entries := (order.foldl (fun (acc : List (Nat × List Word) × Nat × Nat) r =>
    let n := sizes.getD r 0
    let e := h.extOf (r == 7) n
    (acc.1 ++ [(r, regionEntry (r == 7) acc.2.1 n acc.2.2 e)], acc.2.1 + n, acc.2.2 + e)) ([], 0, 0)).1
  h.fold (entries.filter (fun e => h.regionPlan e.1 != e.2)) (fun h e => h.planRegion e.1 e.2)

/-- First address and bytes of a region as Exylo has laid it. -/
def Half.regionSpan (h : Half) (r : Nat) : Nat × Nat :=
  let ws := h.regionPlan r
  if h.regionLaid r then ((ws.getD 1 0).toNat * 4096, (ws.getD 2 0).toNat * 4096) else (0, 0)

/-- First address for `n` bytes aligned to `al` in `span` beside what is held there. -/
def firstFit (span : Nat × Nat) (held : List (Nat × Nat)) (n al : Nat) : Option Nat :=
  let up (a : Nat) : Nat := cdiv a al * al
  ((span.1 :: held.map (fun e => e.1 + e.2)).map up).filter (fun a =>
    span.1 ≤ a && a + n ≤ span.1 + span.2 && held.all (fun e => !rangesMeet a n e.1 e.2)) |>.min?

/-- What stands in the mirrored region: contexts, ring and completion regions, beam-table images, flash staging. -/
def Half.mirrorHeld (h : Half) : List (Nat × Nat) :=
  let b := (h.regionSpan regionMirror).1
  (b, contextBytes)
    :: h.exy.rings.flatMap (fun r => (r.base, 32 * 2 ^ r.rcode)
        :: (if r.ccode = 0 then [] else [(r.cbase, 16 * 2 ^ r.ccode)])
        ++ (match r.grow with | some g => [(g.1, 32 * 2 ^ g.2.1)] | none => []))
    ++ h.exy.images.flatMap (fun e => if e.2.2.2 = 0 then [] else [(e.2.1, e.2.2.2), (e.2.2.1, e.2.2.2)])
    ++ (if h.exy.upd.state = 1 || h.exy.upd.state = 2 then [(h.exy.upd.base, h.exy.upd.len)] else [])

def Half.mirrorFit (h : Half) (n al : Nat) : Option Nat := firstFit (h.regionSpan regionMirror) h.mirrorHeld n al

/-- Rings of a schedule that must move to a larger region, with their RCODE (R249). -/
def Half.ringGrowth (h : Half) (x : Sched) : List (Nat × Nat) :=
  (h.ringSizes x).filter (fun e => (h.ringRec e.1).any (fun r => r.rcode < e.2 && !r.grow.any (fun g => e.2 ≤ g.2.1)))

/-- Reserve a larger region for each ring that needs one; `tick` is the first at which it may move. -/
def Half.reserveRings (h : Half) (tick : Nat) : List (Nat × Nat) → Option Half
  | [] => some h
  | (r, c) :: rest =>
    match h.mirrorFit (32 * 2 ^ c) (32 * 2 ^ c) with
    | none => none
    | some a =>
      Half.reserveRings { h with exy := { h.exy with rings := h.exy.rings.map (fun x => if x.ring == r then { x with grow := some (a, c, tick) } else x) } } tick rest

/-! ### Admission (R33, R459) -/

/-- A test of a limit. -/
def exceeds (demand limit : Rat) : Bool := limit < demand

/-- XT-32 tiles of a subarray with more than 256 inputs, or of one whose 32-blocks cannot all be numbered 0 to 7 (R36, R139). (DEDUCED, log 25) -/
def Sched.x32Bad (x : Sched) : Bool :=
  x.visSets.any (fun p => p.2.x32 && (256 < x.inputs.length || 8 < blocks32 x.inputs))

/-- Visibility products that differ in a setting that they share (R458). -/
def Sched.corrDiffers (x : Sched) : Bool :=
  x.visSets.any (fun p => x.corr.any (fun v => p.2.gcode != v.gcode || p.2.amode != v.amode || p.2.k16c != v.k16c || p.2.x32 != v.x32))

/-- Cells that the folder visits per frame (R192): 4,096 for each of the T_s tiles of 64-blocks, at XT-32 too. -/
def Half.foldCells (h : Half) (x : Sched) (v : VisSet) : Nat := h.outChans v * (x.blocks * (x.blocks + 1) / 2) * 4096

/-- Lanes to the peer half with the fewest (Table FRM-3, row 3); none in a single-device Plaza (R130). -/
def Half.peerLanes (h : Half) : Option Nat :=
  (((List.range h.devices).filter (· != h.ord)).map (fun p => (h.groupLanes p).length)).min?

/-- Checks 1 to 8 of Table FRM-11, which the draft `x` meets or not by itself, the shed products in it too. (DEDUCED, log 25) -/
def Half.checkShape (h : Half) (x : Sched) : Option Nat :=
  let ch := h.ownChans
  let fg (v : VisSet) : Nat := h.fspec * 2 ^ v.gcode
  let vis := x.visSets.map (·.2)
  if x.inputs.length < 32 || x.inputs.any (h.plazaInputs ≤ ·) || x.x32Bad then some stBadLength
  else if x.corrDiffers then some stBadLength
  else if x.capSets.any (fun p => (h.feedInputs p.2).any (fun i => !x.inputs.contains i)) then some stBusy
  else if h.depth = 0 then some stOverBudget
  else if vis.any (fun v => ch < 2 ^ v.gcode) then some stOverBudget
  else if h.fmt8 && vis.any (fun v => 65536 < fg v) then some stOverBudget
  else if vis.any (fun v => 4294967295 < v.tInt * fg v) then some stOverBudget
  else if !x.beamSets.isEmpty && (h.fmt8 || 4096 < x.inputs.length) then some stOverBudget
  else none

/-- Checks 9 to 16 of Table FRM-11, over the products that run in one frame. (DEDUCED, log 25) -/
def Half.checkLoads (h : Half) (all : List (Nat × Sched)) : Option Nat :=
  let vis := all.flatMap (fun s => s.2.visSets.map (fun p => (s.2, p.2)))
  let beams := all.flatMap (fun s => s.2.beamSets.map (·.2))
  let caps := all.flatMap (fun s => s.2.capSets.map (·.2))
  let tf := h.tickSec
  let ch := h.ownChans
  let store := ((beams.filter (·.detected)).map (fun v =>
    v.streams * (if v.nsr < h.fspec then h.fspec / v.nsr else ch / 2 ^ v.ncCode) * (if v.stokes then 48 else 16))).sum
  if h.peerLanes.any (fun n => exceeds ((h.devInputs * ch * h.fspec * h.bps : Nat) * 4132 / (4096 * (n : Rat))) (995 / 1000 * (194 * 10 ^ 9 / 8) * tf)) then some stOverBudget
  else if exceeds ((vis.map (fun p => h.foldCells p.1 p.2)).sum : Nat) (15 / 16 * 32 * (18 * 10 ^ 8) * tf) then some stOverBudget
  else if all.any (fun s => 0 < s.2.beams)
    && exceeds (((all.map (fun s => s.2.beams * 64 * s.2.blocks * 24)).sum : Nat) / (256 * 10 ^ 9) + (h.getN XCH_WIN : Rat) / (100 * 10 ^ 6)) (tf / 16) then some stOverBudget
  else if exceeds ((all.map (fun s => s.2.beams * h.fspec * ch)).sum : Nat) (15 / 16 * 128 * (18 * 10 ^ 8) * tf) then some stOverBudget
  else if exceeds ((caps.map h.feedBytes).sum : Nat) (256 * 10 ^ 9 * tf) then some stOverBudget
  else if 32 * gib < h.plazaInputs * ch * h.fspec * h.bps then some stNoMemory
  else if 1024 < ((beams.filter (fun v => !v.detected)).map (·.nb)).sum then some stNoMemory
  else if 4 * mib < store then some stNoMemory
  else none

/-- Live pseudo-channels that carry a region's bytes: those it was laid over, or where it has not been laid, all of them. -/
def Half.regionPcs (h : Half) (r : Nat) : List Nat :=
  match (SMap.getD h.hbm.lays r []).filter h.pcLive with
  | [] => h.livePcs 0xFFFF
  | l => l

/-- Row 2 of Table FRM-3: some group of pseudo-channels is asked for more than it moves (R278). The regions of these terms are plain; what goes to
mirrored regions lies in the fixed allowance. -/
def Half.groupsExceed (h : Half) (parts : List (Nat × Rat)) (fixed : Rat) (tf : Rat) : Bool :=
  let live := h.livePcs 0xFFFF
  (List.range 16).any (fun g =>
    let inGroup (l : List Nat) : Nat := (l.filter (fun p => p / 8 == g)).length
    let share (l : List Nat) : Rat := (inGroup l : Rat) / (max 1 l.length : Nat)
    exceeds ((parts.map (fun p => p.2 * share (h.regionPcs p.1))).sum + fixed * share live) (7 / 10 * inGroup live * (384 * 10 ^ 8) * tf))

/-- Flows of a schedule that packets go to frame by frame: FLOW_ROW only with ROWSTAT, a capture feed's only where it streams. -/
def Sched.sendFlows (x : Sched) : List Nat :=
  (x.prods.flatMap (fun p => match p.set with
    | .vis v => [v.flowVis, v.flowCnt] ++ (if v.rowstat then [v.flowRow] else [])
    | .beam v => [v.flow]
    | .cap v => if v.stream then [v.flow] else [])).eraseDups

/-- Rows 1 to 5 of Table FRM-3 over the products that run in one frame: the first row that fails. While a port of PMODE 1 is down no product
fits (R253). (DEDUCED, log 25) -/
def Half.rowFails (h : Half) (all : List (Nat × Sched)) (row : Nat) : Bool :=
  let vis := all.flatMap (fun s => s.2.visSets.map (fun p => (s.2, p.2)))
  let beams := all.flatMap (fun s => s.2.beamSets.map (·.2))
  let caps := all.flatMap (fun s => s.2.capSets.map (·.2))
  let tf := h.tickSec
  let fcb := h.ownChans * h.fspec * h.bps
  let lta := (vis.map (fun p => h.ltaBytes p.1 p.2)).sum
  let dump := vis.map (fun p => (h.dumpBytes p.1 p.2, p.2.tInt))
  let out : Rat := (dump.map (fun d => (d.1 : Rat) / (max 1 d.2 : Nat))).sum + ((beams.map h.beamBytes).sum + (caps.map h.feedStream).sum : Nat)
  let lanes : Rat := (h.actLanes : Rat) * (984 * 10 ^ 8) / 8
  match row with
  | 1 => exceeds ((all.map (fun s => h.bayCycles s.2)).sum : Nat) (15 / 16 * h.activeBays * (18 * 10 ^ 8) * tf)
  | 2 =>
    let reads := (all.map (fun s => s.2.reread * 64 * s.2.blocks * fcb)).sum
    h.groupsExceed [(regionDelay, ((2 * h.ownInputs * h.chans * h.fspec * h.bps : Nat) : Rat)), (regionCorner, ((h.plazaInputs * fcb + reads : Nat) : Rat)),
      (regionL48, ((2 * lta : Nat) : Rat)), (regionOut, 2 * out), (regionCap, (((caps.map h.feedBytes).sum : Nat) : Rat))] (96 * 10 ^ 9 * tf) tf
  | 3 => h.peerLanes.any (fun n => exceeds (h.devInputs * fcb : Nat) (n * (194 * 10 ^ 9) / 8 * tf))
  | 4 =>
    let flows := (all.flatMap (fun s => s.2.sendFlows)).eraseDups
    let unshaped := flows.any (fun r => (h.ringRec r).isNone || ctxRate (h.ctx r) == 0)
    let flowSum : Rat := ((flows.map (fun r => ctxRate (h.ctx r))).sum : Nat) * (984 * 10 ^ 3) / 8
    let rate := if unshaped then lanes else min flowSum lanes
    (h.trw.portDown && h.flag OUT_CTL_PMODE && all.any (fun s => !s.2.prods.isEmpty))
      || (0 < out && (exceeds out (tf * rate) || exceeds ((dump.map (·.1)).sum : Nat) (tf * lanes + (4 * gib : Nat))))
  | _ => all.any (fun s => 256 * mib < courtyardNeed s.2.tp s.2.beams s.2.blocks)

/-- Rows 1 to 6 of Table FRM-3, each in every frame of `frames`, with `space` bytes of HBM held: the first row that fails. (DEDUCED, log 25) -/
def Half.checkRows (h : Half) (frames : List (List (Nat × Sched))) (space : Nat) : Option (Nat × Nat) :=
  match ([1, 2, 3, 4, 5] : List Nat).find? (fun r => frames.any (fun all => h.rowFails all r)) with
  | some r => some (if r = 5 then stNoMemory else stOverBudget, r)
  | none => if h.pcsLaid * 768 * mib < space then some (stNoMemory, 6) else none

/-! ### What the subarrays hold (R33, R39, R227) -/

/-- The products that run in frame `j`, by subarray, without those of `except`: a subarray torn down runs until its effective frame. -/
def Half.runsAt (h : Half) (except : Option Nat) (j : Nat) : List (Nat × Sched) :=
  h.exy.subs.filterMap (fun e => if except == some e.1 then none else (e.2.at j).map (fun s => (e.1, e.2.unshed s)))

/-- Frame `j` and the later frames at which the schedule of a subarray other than `except` changes. -/
def Half.changesFrom (h : Half) (except : Option Nat) (j : Nat) : List Nat :=
  (j :: (h.exy.subs.filter (fun e => except != some e.1)).flatMap (fun e => (e.2.vers.map (·.1)).filter (fun f => j < f))).eraseDups

/-- Bytes of L48 records that a subarray holds: of the larger of two schedules while both are held. -/
def Half.heldL48 (h : Half) (x : Sub) : Nat :=
  (x.held.map (fun s => let y := x.unshed s; (y.visSets.map (fun p => h.ltaBytes y p.2)).sum)).foldl max 0

/-- Bytes of capture rings: those that stand, shed or not, until RELEASE (R227), and those that the products of `runs` still lack. -/
def Half.capBytes (h : Half) (runs : List (Nat × Sched)) : Nat :=
  let rings := h.exy.places.filter (fun (q : Place) => q.kind == 2)
  let lacks (s n size : Nat) : Bool := !rings.any (fun (q : Place) => q.sub == s && q.num == n && q.size == size)
  (rings.map (fun (q : Place) => q.size)).sum
    + ((runs.flatMap (fun e => e.2.capSets.filterMap (fun p =>
        let n := 2 ^ (20 + p.2.szCode)
        if lacks e.1 p.1.num n then some (e.1, p.1.num, n) else none))).eraseDups.map (·.2.2)).sum

/-- Bytes of ring regions that stand or are reserved. -/
def Half.heldRings (h : Half) : Nat :=
  (h.exy.rings.map (fun (r : RingRec) => 32 * 2 ^ r.rcode + (match r.grow with | some g => 32 * 2 ^ g.2.1 | none => 0))).sum

/-- Row 6: the HBM that schedules need, with `l48`, `cap` and `rings` bytes held beside what every schedule shares; the tally spill stands in the
contexts term (R169). -/
def Half.spaceNeed (h : Half) (scheds : List Sched) (l48 cap rings : Nat) : Nat :=
  let nrec := (scheds.map Sched.tp).foldl max 0
  h.delayBytes + h.cornerBytes + l48 + 4 * gib + cap + (contextBytes + 2 * nrec * 16384) + h.flagBytes + rings

/-- Where a product of the version in effect at frame `j` stands. (DESIGN CHOICE, log 24) -/
def Half.placeAt (h : Half) (j kind sub num : Nat) : Option Place :=
  let ps := h.exy.places.filter (fun (q : Place) => q.kind == kind && q.sub == sub && q.num == num && q.ke ≤ j)
  ps.foldl (fun (m : Option Place) q => if m.any (fun (x : Place) => q.ke < x.ke) then m else some q) none

/-- Spans that products of a kind hold in HBM, or the scale slots of beam products. -/
def heldSpans (kind : Nat) (ps : List Place) : List (Nat × Nat) :=
  (ps.filter (fun (q : Place) => q.kind == kind && 0 < q.size)).map (fun (q : Place) => (if kind = 1 then q.scale else q.base, q.size))

/-- Put a subarray's products in place from frame `ke`: entries, HBM, scale slots; none where something does not fit. A product that
stands already and needs the same keeps its place, unless the subarray's inputs or tile plan change (R179); what earlier versions hold stays
held until they have run out. -/
def Half.placeProds (h : Half) (sub ke : Nat) (x : Sched) : Option (List Place) :=
  let old := h.exy.places
  let same := ((SMap.find? h.exy.subs sub).bind Sub.latest).any (fun y => y.inputs == x.inputs && y.x32 == x.x32 && y.gcode == x.gcode && y.parts == x.parts)
  x.prods.foldl (fun (acc : Option (List Place)) p =>
    acc.bind (fun ps =>
      let (kind, limit, need, region, al) := match p.set with
        | .vis v => (0, 32, h.ltaBytes x v, regionL48, 4096)
        | .beam v => (1, 32, if v.detected then 0 else v.nb, regionL48, 1)
        | .cap v => (2, 16, 2 ^ (20 + v.szCode), regionCap, 2 ^ (20 + v.szCode))
      let all : List Place := old ++ ps
      let mine := h.placeAt ke kind sub p.num
      let used (n : Nat) : Bool := all.any (fun (q : Place) => q.kind == kind && q.entry == n && !(q.sub == sub && q.num == p.num))
      let entry := match mine with | some q => some q.entry | none => (List.range limit).find? (fun n => !used n)
      let span := if kind = 1 then (0, 1024) else h.regionSpan region
      let spot : Option Nat := if need = 0 then some 0 else match mine with
        | some q => if q.size = need && (same || kind != 0) then some (if kind = 1 then q.scale else q.base) else firstFit span (heldSpans kind all) need al
        | none => firstFit span (heldSpans kind all) need al
      match entry, spot with
      | some e, some a =>
        let new : Place := ⟨sub, p.num, ke, kind, e, if kind = 1 then 0 else a, need, if kind = 1 then a else 0⟩
        let kept := mine.any (fun (q : Place) => q.base == new.base && q.size == new.size && q.scale == new.scale)
        some (if kept then ps else ps ++ [new])
      | _, _ => none)) (some [])

/-- A pair of beam-table images of `n` bytes for a subarray. -/
def Half.placeImages (h : Half) (sub n : Nat) : Option (Nat × Nat × Nat) :=
  match SMap.find? h.exy.images sub with
  | some (a, b, m) => if m = n then some (a, b, m) else
      let h := { h with exy := { h.exy with images := SMap.erase h.exy.images sub } }
      if n = 0 then some (0, 0, 0) else (h.mirrorFit (2 * n) 4096).map (fun a => (a, a + n, n))
  | none => if n = 0 then some (0, 0, 0) else (h.mirrorFit (2 * n) 4096).map (fun a => (a, a + n, n))

/-- Bytes of one beam-table image, in whole pages of 4 KiB. -/
def Sched.imageBytes (x : Sched) : Nat := cdiv (x.beams * 64 * x.blocks * 24) 4096 * 4096

/-- The rows of Table FRM-3 over everything that runs from the frame that the Arcade is at on (R35). -/
def Half.checkAll (h : Half) : Option (Nat × Nat) :=
  let frames := (h.changesFrom none (h.frame - h.delta)).map (h.runsAt none)
  h.checkRows frames (h.spaceNeed (h.exy.subs.flatMap (fun e => e.2.held)) (h.exy.subs.map (fun e => h.heldL48 e.2)).sum (h.capBytes frames.flatten) h.heldRings)

/-- Admission of schedule `x` for subarray `sub` under quotas `qs` (R33): status, FAILROW, and the half with rings reserved and products
placed. `x` is the whole draft, `live` what of it is not shed (R44); the other subarrays are held as they are. (DEDUCED, log 25) -/
def Half.admitDraft (h : Half) (sub ke : Nat) (x live : Sched) (qs : List Nat) : Nat × Nat × Half :=
  let frames := (h.changesFrom (some sub) ke).map (fun f => h.runsAt (some sub) f ++ [(sub, live)])
  let others := h.exy.subs.filter (fun e => e.1 != sub)
  let grow := h.ringGrowth live
  let space := h.spaceNeed (live :: others.flatMap (fun e => e.2.held))
    ((others.map (fun e => h.heldL48 e.2)).sum + (live.visSets.map (fun p => h.ltaBytes live p.2)).sum)
    (h.capBytes frames.flatten)
    (h.heldRings + (grow.map (fun e => 32 * 2 ^ e.2)).sum)
  match (h.checkShape x).or (frames.findSome? h.checkLoads) with
  | some st => (st, 0, h)
  | none =>
    match h.checkRows frames space with
    | some (st, row) => (st, row, h)
    | none =>
      let rows := ((h.ringSizes live).map (fun e => 32 * 2 ^ e.2)).sum
      let h1 := if h.exy.subs.isEmpty && h.exy.places.isEmpty then
          h.layHbm ((live.visSets.map (fun p => h.ltaBytes live p.2)).sum) ((live.capSets.map (fun p => 2 * 2 ^ (20 + p.2.szCode))).sum) else h
      if !quotaHolds (qs.getD 2 0) (cdiv rows 1024) then (stQuota, 7, h)
      else match h1.reserveRings (ke + h.delta) (h1.ringGrowth live) with
      | none => (stNoMemory, 7, h)
      | some h2 =>
        match h2.placeProds sub ke live, h2.placeImages sub live.imageBytes with
        | some ps, some im =>
          if !quotaHolds (qs.getD 0 0) (cdiv (h.bayCycles live) mib) || !quotaHolds (qs.getD 1 0) (cdiv (h.ownBytes sub live) mib)
              || !quotaHolds (qs.getD 3 0) ((h.uses sub live).getD 3 0) then (stQuota, 0, h)
          else (stOk, 0, { h2 with exy := { h2.exy with places := h2.exy.places ++ ps
                                                        images := SMap.insert h2.exy.images sub im } })
        | _, _ => (stNoMemory, 6, h)

end Sys2Proof.Machine
end

