-- ==== Sys2Proof/Machine/Frames.lean ====
section
/-! DEFINITION. Command frames (R395 to R405, R411, R412): their fields, replies and their transports, sessions, the device
record, event messages. -/

namespace Sys2Proof.Machine

/-! ### Frames (Table EXY-1) -/

def frAuth (bs : List Byte) : Bool := bit (byteAt bs 3) 2
def frTarget (bs : List Byte) : Nat := bits (byteAt bs 4) 1 0
def frSession (bs : List Byte) : Nat := byteAt bs 5
def frSeq (bs : List Byte) : Nat := fieldAt bs 8 4
def frOpcode (bs : List Byte) : Nat := fieldAt bs 12 2
def frLength (bs : List Byte) : Nat := fieldAt bs 14 2
def frPayload (bs : List Byte) : List Byte := slice bs 16 (frLength bs)
def frTag (bs : List Byte) : List Byte := slice bs (16 + frLength bs) 16

/-- Bytes that the header asks for. -/
def frTotal (bs : List Byte) : Nat := 20 + frLength bs + (if frAuth bs then 16 else 0)

/-- The first 16 bytes of the HMAC over header and payload (R404). (PRESUMED, log 41) -/
def tagOf (key bs : List Byte) : List Byte := (hmacSha256 key bs).take 16

/-- A frame from the device: flags, header fields, payload, and the tag where a key is given (R395). -/
def mkFrame (flags target session seq opcode : Nat) (payload : List Byte) (key : Option (List Byte)) : List Byte :=
  let head (f : Nat) : List Byte :=
    leBytes 2 0x4558 ++ leBytes 1 1 ++ leBytes 1 f ++ leBytes 1 target ++ leBytes 1 session ++ leBytes 2 0 ++ leBytes 4 seq
      ++ leBytes 2 opcode ++ leBytes 2 payload.length
  match key with
  | none => withCrc (head flags ++ payload)
  | some k => let b := head (flags + 4) ++ payload; withCrc (b ++ tagOf k b)

/-! ### The device record (R412) -/

/-- Bytes of words 0 to 62 of the record. -/
def Half.recordBytes (h : Half) : List Byte := (List.range 63).flatMap (fun w => leBytes 4 (h.getN LSE_DREC w))

/-- MAGIC and CRC hold. -/
def Half.recordGood (h : Half) : Bool := bits (h.getN LSE_DREC 0) 31 16 == 0x4452 && h.getN LSE_DREC 63 == crc32c h.recordBytes

/-- Words 42 to 47 of the bare defaults, addresses with their first octet highest (R3). (DEDUCED, log 44) -/
def bareWords : List Nat := [0xA9FE4D0A, 0xA9FE4D0B, 0xFFFF0000, 0, 1500 * 65536 + 48300, 0]

/-- A word of the record as it is taken (R412). -/
def Half.record (h : Half) (w : Nat) : Nat :=
  if h.recordGood then h.getN LSE_DREC w
  else if 42 ≤ w && w < 48 then bareWords.getD (w - 42) 0 else 0

/-- The command key, where one is set (R403). -/
def Half.commandKey (h : Half) : Option (List Byte) :=
  let k := (List.range 8).flatMap (fun w => leBytes 4 (h.record (2 + w)))
  if k.all (· == 0) then none else some k

/-- Management address and MTU of this half. -/
def Half.mgmtIp (h : Half) : List Byte := beBytes 4 (h.record (match h.id with | .north => 42 | .south => 43))
def Half.mgmtMtu (h : Half) : Nat := bits (h.record 46) 31 16

/-- The management port's station address: the fused one in north, the next in south (R398). -/
def Half.mgmtMac (h : Half) : List Byte :=
  beBytes 6 (Config.macNorth.toNat + (match h.id with | .north => 0 | .south => 1))

/-- A write of the record by the primary `i`: words changed, GEN, KEY_SET and CRC brought up to date; none where it is fenced. (DEDUCED, log 35) -/
def State.writeRecord (s : State) (i : HalfId) (ws : List (Nat × Nat)) : Option State :=
  if s.recordFenced i i then none
  else
    let h := s.half i
    let w (k : Nat) : Nat := match ws.find? (fun e => e.1 == k) with | some e => e.2 | none => h.record k
    let body := (List.range 63).map (fun k =>
      if k = 0 then 0x44520100 + b2n ((List.range 8).any (fun j => w (2 + j) != 0)) else if k = 1 then (h.record 1 + 1) % 2 ^ 32 else w k)
    let crc := crc32c (body.flatMap (leBytes 4))
    some (s.onIsland i (fun h => h.fold (body ++ [crc]).zipIdx (fun h e => h.putN LSE_DREC e.1 e.2)))

/-! ### Where a frame comes from, and its reply (R398, R402) -/

/-- The source of a frame: transport kind, station address, IPv4 address and port; session number; a replayed frame; its register writes
complete inside the hand-over window (R31); its profile writes CHN_SK_THR (R85). -/
structure Src where
  kind : Nat
  mac : List Byte
  ip : List Byte
  port : Nat
  num : Nat
  replay : Bool
  late : Bool := false
  setsThr : Bool := false
  deriving DecidableEq, Repr

/-- The bytes submitted in the mailbox: as many as the header asks for. -/
def Half.mbxFrame (h : Half) : List Byte :=
  let hd := (List.range 4).flatMap (fun w => leBytes 4 (h.getN DEV_MBX_REQ w))
  ((List.range (cdiv (frTotal hd) 4)).flatMap (fun w => if w < 4096 then leBytes 4 (h.getN DEV_MBX_REQ w) else [])).take (frTotal hd)

/-- The serial lane of the management port (Table LAN-1). -/
def mgmtLane : Nat := 53

/-- The frame that waits at a transport, if one does; the management port's lane has handed it on (R261, R268, R269). -/
def Half.waitingFrame (h : Half) : Rx → Option (List Byte)
  | .udp _ _ _ bs => if h.laneHears mgmtLane bs then some bs else none
  | .mailbox => if h.mainUp && h.flag DEV_MBX_CTL_BUSY && h.exy.mbxReply.isNone then some h.mbxFrame else none
  | .smbus => h.isl.smbFrame

def srcOf (rx : Rx) (bs : List Byte) : Src :=
  match rx with
  | .udp mac ip port _ => ⟨0, mac, ip, port, frSession bs, false, false, false⟩
  | .mailbox => ⟨1, [], [], 0, frSession bs, false, false, false⟩
  | .smbus => ⟨2, [], [], 0, frSession bs, false, false, false⟩

/-- The frame has been taken from its transport; a mailbox frame that gets no reply ends BUSY. (DEDUCED, log 45) -/
def Half.takeFrame (h : Half) (rx : Rx) (replied : Bool) : Half :=
  match rx with
  | .udp _ _ _ bs => h.heard mgmtLane bs
  | .mailbox => if replied then h else h.fset DEV_MBX_CTL_BUSY 0
  | .smbus => h.modIsl (fun x => { x with smbFrame := none })

/-- A reply frame leaves by the transport of its command. (DEDUCED, log 45) -/
def Half.sendReply (h : Half) (rx : Rx) (bs : List Byte) : Half :=
  match rx with
  | .udp mac ip port _ => h.sendOn mgmtLane bs (.datagram mac ip port bs)
  | .mailbox => ({ h with exy := { h.exy with mbxReply := some bs } } : Half).mbxFlush
  | .smbus => h.modIsl (fun x => { x with smbReply := x.smbReply ++ bs })

/-- The reply of a command frame (R396): head with the statuses of the two halves, then data; tagged where the frame was and
a key is set (R404). (DEDUCED, log 44) -/
def Half.reply (h : Half) (bs : List Byte) (st hn hs : Nat) (data : List Byte) : List Byte :=
  mkFrame 1 (frTarget bs) (frSession bs) (frSeq bs) (frOpcode bs) (leBytes 2 st ++ leBytes 2 hn ++ leBytes 2 hs ++ leBytes 2 0 ++ data)
    (if frAuth bs then h.commandKey else none)

/-- The statuses of the halves where only half `i` reports. -/
def only (i : HalfId) (st : Nat) : Nat × Nat := match i with | .north => (st, 0xFFFF) | .south => (0xFFFF, st)

/-- Largest LENGTH of a transport (Table EXY-3). -/
def Half.payloadLimit (h : Half) : Rx → Nat
  | .udp .. => min 8192 (h.mgmtMtu - 64)
  | .mailbox => 16348
  | .smbus => 2048

/-! ### Sessions (R402) -/

def Sess.of (x : Sess) (src : Src) : Bool := x.kind == src.kind && x.ip == src.ip && x.port == src.port && x.num == src.num

def Half.session (h : Half) (src : Src) : Option Sess := h.exy.sessions.find? (fun x => x.of src)

/-- Keep the reply as the session's last; an unknown session evicts the least recently used of 32. -/
def Half.keepReply (h : Half) (src : Src) (seq : Nat) (reply : List Byte) : Half :=
  { h with exy := { h.exy with sessions := (⟨src.kind, src.ip, src.port, src.num, seq, reply⟩ :: h.exy.sessions.filter (fun x => !x.of src)).take 32 } }

/-- The session becomes the most recently used. -/
def Half.touchSession (h : Half) (x : Sess) : Half :=
  { h with exy := { h.exy with sessions := x :: h.exy.sessions.filter (fun y => y != x) } }

/-- What the sequence rule makes of a frame. -/
inductive SeqOutcome where
  | execute | resend (reply : List Byte) | discard | noAuth
  deriving DecidableEq, Repr

def Half.seqRule (h : Half) (src : Src) (seq : Nat) : SeqOutcome :=
  match h.session src with
  | none => if seq != 0 && h.commandKey.isSome then .noAuth else .execute
  | some x =>
    if seq = 0 then .execute
    else if seq = x.seq then .resend x.reply
    else if (seq + 2 ^ 32 - x.seq) % 2 ^ 32 < 2 ^ 31 then .execute
    else .discard

/-! ### Event messages (R411) -/

/-- A subscriber's transport: whose half it belongs to, and its kind. -/
def subscriberHalf (t : Nat) : HalfId := if t % 2 = 1 then .north else .south

/-- Message frame of a slot of half `h`: up to 32 queued events. -/
def Half.eventFrame (h : Half) (slot : Nat) (q : EvtSlot) : List Byte :=
  let n := min 32 q.queue.length
  let w := h.record (10 + 4 * slot)
  mkFrame 2 (match h.id with | .north => 0 | .south => 1) (bits w 15 8) ((q.sent + 1) % 2 ^ 32) 0x0A80
    (leBytes 4 q.lost ++ leBytes 2 n ++ leBytes 2 0 ++ (q.queue.take n).flatten)
    (if bits w 7 0 ≤ 2 then h.commandKey else none)

/-- Hand an event message to the subscriber's transport at its half. -/
def Half.sendEvent (h : Half) (slot : Nat) (bs : List Byte) : Half :=
  let w := h.record (10 + 4 * slot)
  match bits w 7 0 with
  | 1 | 2 => h.sendOn mgmtLane bs (.datagram [] (beBytes 4 (h.record (12 + 4 * slot))) (bits w 31 16) bs)
  | 3 | 4 => (h.putBytes DEV_MBX_EVT bs).fset DEV_MBX_CTL_EVT_VALID 1
  | 5 | 6 => h.modIsl (fun x => { x with smbReply := x.smbReply ++ bs })
  | _ => h

/-- EVENT_MSG (R411): the queued events of a slot go out; a mailbox message waits while EVT_VALID is 1, and events that cannot
be forwarded to the other half are dropped and counted. (DEDUCED, log 45) -/
def State.eventMsg (s : State) (i : HalfId) (slot : Nat) : State :=
  let h := s.half i
  match h.exy.evts[slot]? with
  | none => s
  | some q =>
    if !h.running || q.queue.isEmpty then s
    else
      let t := bits (h.record (10 + 4 * slot)) 7 0
      let y := subscriberHalf t
      let put (e : EvtSlot) : State := s.on i (fun h => { h with exy := { h.exy with evts := h.exy.evts.set slot e } })
      if t = 0 || 6 < t then put ⟨[], 0, q.sent⟩
      else if y != i && !(s.board.bridgeUp && (s.half y).running) then put { q with queue := [], lost := q.lost + q.queue.length }
      else if (t = 3 || t = 4) && (s.half y).flag DEV_MBX_CTL_EVT_VALID then s
      else
        let bs := h.eventFrame slot q
        (put ⟨q.queue.drop 32, 0, q.sent + 1⟩).on y (fun h => h.sendEvent slot bs)

/-- EVENT_MSG: 32 events are queued for a slot, or 1 ms has passed since the oldest. -/
def execEventMsg (i : HalfId) (slot : Nat) (s : State) : Host.Outcome State Fault Refusal := done (s.eventMsg i slot)

/-- MBX_EVT_VALID_CLEAR (R411): the mailbox takes the next message. -/
def execMbxEvtValidClear (i : HalfId) (s : State) : Host.Outcome State Fault Refusal :=
  done (s.onMain i (fun h => h.fset DEV_MBX_CTL_EVT_VALID 0))

/-! ### Fragments of the SMBus (R398) -/

/-- SMBUS_FRAME_FRAGMENT: a Block Write with code 0x10 appends to the assembly buffer; the frame is complete with the bytes that its
header asks for. A fragment that arrives while an assembled frame waits, or with a wrong PEC, is NACKed. (DEDUCED, log 45) -/
def Half.smbFragment (h : Half) (bs : List Byte) (pecOk : Bool) : Half :=
  if !h.isl.ready then h
  else if !pecOk || bs.length = 0 || 255 < bs.length || h.isl.smbFrame.isSome then h.emit .smbusNack
  else
    let a := h.isl.smbAsm ++ bs
    if 16 ≤ a.length && frTotal a ≤ a.length then
      h.modIsl (fun x => { x with smbAsm := a.drop (frTotal a), smbFrame := some (a.take (frTotal a)) })
    else h.modIsl (fun x => { x with smbAsm := a })

def execSmbusFrameFragment (i : HalfId) (bs : List Byte) (pecOk : Bool) (s : State) : Host.Outcome State Fault Refusal :=
  done (s.onIsland i (fun h => h.smbFragment bs pecOk))

/-- SMBUS_REPLY_READ: a Block Read with code 0x10 returns the next bytes of the reply. -/
def execSmbusReplyRead (i : HalfId) (s : State) : Host.Outcome State Fault Refusal :=
  done (s.onIsland i (fun h =>
    if !h.isl.ready then h
    else (h.emit (.smbus (h.isl.smbReply.take 255))).modIsl (fun x => { x with smbReply := x.smbReply.drop 255 })))

/-- SMBUS_FRAGMENT_TIMEOUT: a pause of more than 25 ms discards the partial frame. -/
def execSmbusFragmentTimeout (i : HalfId) (s : State) : Host.Outcome State Fault Refusal :=
  done (s.onIsland i (fun h => h.modIsl (fun x => { x with smbAsm := [] })))

/-! ### The management port (R398) -/

/-- A frame leaves on the management port. -/
def Half.sendMgmt (h : Half) (bs : List Byte) : Half := h.sendOn mgmtLane bs (.mgmtFrame bs)

/-- MGMT_PORT_FRAME: ARP requests and ICMP echo requests to the port's own address are answered; other frames are discarded. -/
def Half.mgmtFrame (h : Half) (bs : List Byte) : Half :=
  let vlan := bits (h.record 47) 11 0
  let tagged := bit (h.record 47) 12
  let tag : List Byte := if tagged then beBytes 2 0x8100 ++ beBytes 2 vlan else []
  let isTagged := fieldBe bs 12 2 == 0x8100
  let p := bs.drop (if isTagged then 16 else 12)
  let mine := slice bs 0 6 == h.mgmtMac
  let bcast := slice bs 0 6 == List.replicate 6 0xFF
  let eth := slice bs 6 6 ++ h.mgmtMac ++ tag
  if !h.running || isTagged != tagged || (isTagged && bits (fieldBe bs 14 2) 11 0 != vlan) || !(mine || bcast) then h
  else if fieldBe p 0 2 == 0x0806 then
    (if slice p 2 6 == [0, 1, 8, 0, 6, 4] && fieldBe p 8 2 == 1 && slice p 26 4 == h.mgmtIp then
      h.sendMgmt (eth ++ slice p 0 8 ++ beBytes 2 2 ++ h.mgmtMac ++ h.mgmtIp ++ slice p 10 10)
    else h)
  else if fieldBe p 0 2 == 0x0800 && byteAt p 2 == 0x45 && byteAt p 11 == 1 && slice p 18 4 == h.mgmtIp && inetGood (slice p 2 20)
      && fieldBe p 8 2 % 0x4000 == 0 then
    let len := fieldBe p 4 2
    let icmp := slice p 22 (len - 20)
    if byteAt icmp 0 == 8 && byteAt icmp 1 == 0 && inetGood icmp && icmp.length == len - 20 then
      let body := [0, 0] ++ [0, 0] ++ icmp.drop 4
      let echo := [0, 0] ++ beBytes 2 (inetChecksum body) ++ icmp.drop 4
      let ip0 := slice p 2 8 ++ leBytes 1 64 ++ leBytes 1 1 ++ [0, 0] ++ h.mgmtIp ++ slice p 14 4
      let ip := ip0.take 10 ++ beBytes 2 (inetChecksum ip0) ++ ip0.drop 12
      h.sendMgmt (eth ++ beBytes 2 0x0800 ++ ip ++ echo)
    else h
  else h

/-- MGMT_PORT_FRAME: a frame that the port's lane hands on, and none of whose blocks is marked bad (R260, R261, R268, R269). -/
def execMgmtPortFrame (i : HalfId) (f : PortFrame) (s : State) : Host.Outcome State Fault Refusal :=
  done (s.onMain i (fun h => if f.integrity = .good && h.laneHears mgmtLane f.bytes then (h.heard mgmtLane f.bytes).mgmtFrame f.bytes else h))

end Sys2Proof.Machine
end

