-- ==== Sys2Proof/Machine/Exylo.lean ====
section
/-! DEFINITION. What Exylo's opcodes do in one half (Tables EXY-6, EXY-9 to EXY-15): registers, tables at effective frames (R37,
R408), beams (R409), rings and ports, capture, timing, lanes, events, errors and housekeeping. -/

namespace Sys2Proof.Machine

/-- What a command gives: status, reply data, the machine after it. -/
structure Res where
  st : Nat
  data : List Byte
  s : State
  deriving DecidableEq, Repr

def State.answer (s : State) (st : Nat) (data : List Byte := []) : Res := ⟨st, data, s⟩

/-! ### Registers -/

/-- Read words of half `i` by window offset, as a core of it reads them: RC fields clear, low words latch. -/
def State.readWords (s : State) (i : HalfId) (as : List Nat) : List Byte × State :=
  as.foldl (fun (acc : List Byte × State) a =>
    let r := (acc.2.half i).regRead (acc.2.half i.other) (acc.2.witness i) a
    (acc.1 ++ leBytes 4 r.1.toNat, acc.2.onIsland i (fun _ => r.2))) ([], s)

/-- Write words of half `i` by window offset. -/
def State.writeWords (s : State) (i : HalfId) (ws : List (Nat × Nat)) : State :=
  ws.foldl (fun s e => s.regWrite i i e.1 (BitVec.ofNat 32 e.2) false) s

/-- A payload word for a register: no reserved or read-only bit set, and in the register's range (R397, check 8). -/
def Half.wordOk (h : Half) (r : RegDef) (i n : Nat) : Bool :=
  onlyBits n (fieldMask r (fun f => f.acc != .ro && f.acc != .rc)) && (h.regReject r i n false).isNone

/-- PING. -/
def State.opPing (s : State) (i : HalfId) : Res :=
  let h := s.half i
  s.answer stOk (leBytes 4 (h.getN DEV_FWVER) ++ leBytes 1 h.ord
    ++ leBytes 1 ((match i with | .north => 0 | .south => 1) + h.fget LSE_STAT_ROLE * 2) ++ leBytes 1 h.own)

/-- One read of BAR0 by half `i`, through its island alone while its main domain is down. -/
def State.exyloRead (s : State) (i : HalfId) (addr : Nat) : Word × State :=
  if (s.half i).mainUp then (match s.busRead i addr with | (some w, s) => (w, s) | (none, s) => (0xFFFFFFFF, s))
  else s.smbusRead i addr

def State.exyloWrite (s : State) (i : HalfId) (addr : Nat) (w : Word) (late : Bool) : State :=
  if (s.half i).mainUp then s.busWrite i addr w late else s.smbusWrite i addr w late

/-- REG_READ (R419). -/
def State.opRegRead (s : State) (i : HalfId) (p : List Byte) : Res :=
  let r := (List.range (fieldAt p 4 2)).foldl (fun (acc : List Byte × State) n =>
    let r := acc.2.exyloRead i (fieldAt p 0 4 + 4 * n)
    (acc.1 ++ leBytes 4 r.1.toNat, r.2)) ([], s)
  r.2.answer stOk r.1

/-- An address of a device record word. -/
def recordAddr (addr : Nat) : Bool := let a := addr % 0x4000000; 0x1500100 ≤ a && a < 0x1500200

/-- Byte addresses that a REG_WRITE payload names, ascending. -/
def regWriteAddrs (p : List Byte) : List Nat := (List.range (fieldAt p 4 2)).map (fun k => fieldAt p 0 4 + 4 * k)

/-- An address names a register of its half, with that offset. -/
def namesReg (r : RegDef) (addr : Nat) : Bool := (windowOf (addr % 0x8000000)).2 == r.at 0

/-- A write of `w` at `addr` sets M_SK: CHN_CFG takes it. -/
def State.setsSkm (s : State) (addr : Nat) (w : Word) : Bool :=
  let h := s.half (windowOf (addr % 0x8000000)).1
  namesReg CHN_CFG addr && !h.regLocked CHN_CFG 0 && (h.regReject CHN_CFG 0 w.toNat false).isNone

/-- CHN_SK_THR of the row of Table CHN-3 for an SKM code. -/
def skThrRow (skm : Nat) : Word := if skm = 0 then 0x1B3308CD else if skm = 1 then 0x17850A8F else 0x14F60C00

/-- A command or profile that sets M_SK at `addr` without thresholds has Exylo write the row of Table CHN-3 (R85). (DEDUCED, log 46) -/
def State.skDefault (s : State) (i : HalfId) (src : Src) (p : List Byte) (addr : Nat) (w : Word) : State :=
  let mine (a : Nat) : Bool := (windowOf (a % 0x8000000)).1 == (windowOf (addr % 0x8000000)).1
  if src.setsThr || (regWriteAddrs p).any (fun a => mine a && namesReg CHN_SK_THR a) then s
  else s.exyloWrite i (addr - CHN_CFG.at 0 + CHN_SK_THR.at 0) (skThrRow (bits w.toNat 9 8)) src.late

/-- REG_WRITE (R417): ascending addresses; a fenced record write gives STALE_EPOCH. -/
def State.opRegWrite (s : State) (i : HalfId) (src : Src) (p : List Byte) : Res :=
  let n := fieldAt p 4 2
  let addr (k : Nat) : Nat := fieldAt p 0 4 + 4 * k
  let stale := (List.range n).any (fun k => recordAddr (addr k) && s.recordFenced i (windowOf (addr k)).1)
  let s := (List.range n).foldl (fun s k =>
    let w := BitVec.ofNat 32 (fieldAt p (8 + 4 * k) 4)
    let t := s.exyloWrite i (addr k) w src.late
    if s.setsSkm (addr k) w then t.skDefault i src p (addr k) w else t) s
  s.answer (if stale then stStaleEpoch else stOk)

/-- A change of the device record. -/
def State.opRecord (s : State) (i : HalfId) (ws : List (Nat × Nat)) : Res :=
  match s.writeRecord i ws with
  | none => (s.onIsland i (fun h => (h.raise 68).log errLSE_STALE_EPOCH)).answer stStaleEpoch
  | some s => s.answer stOk

/-- MGMT_CFG (R412). -/
def State.opMgmtCfg (s : State) (i : HalfId) (p : List Byte) : Res :=
  s.opRecord i [(42, fieldAt p 0 4), (43, fieldAt p 4 4), (44, fieldAt p 8 4), (45, fieldAt p 12 4),
    (46, fieldAt p 18 2 * 65536 + fieldAt p 16 2), (47, fieldAt p 20 2)]

/-- AUTH_KEY (R403). -/
def State.opAuthKey (s : State) (i : HalfId) (p : List Byte) : Res :=
  s.opRecord i ((List.range 8).map (fun w => (2 + w, fieldAt p (4 * w) 4)))

/-- The slots and records of the block that is open, if one is. -/
def Half.openBlock (h : Half) (r : ArcRun) : Option (Nat × Nat × Nat) :=
  (List.range r.pc).foldl (fun acc n =>
    match h.opAt r.sub ((h.progOf r.sub r.frame).1 + n) with
    | .open_ bank _ slot count _ trec => some (h.slotOf r bank slot, count, trec)
    | .close _ _ _ _ => none
    | _ => acc) none

/-- Bytes of HBM that regions map. -/
def Half.mapped (h : Half) (a n : Nat) : Bool := inHbm a n && (granules a n).all (fun g => (h.regionOf g.1).isSome)

/-- SNAPSHOT (R156, R157): passes in flight finish, the open bank and its tally records are saved once what has been issued on them has drained
and spilled (R168). (DEDUCED, log 46) -/
def State.opSnapshot (s : State) (i : HalfId) (p : List Byte) : Res :=
  let h := s.half i
  match h.arc.run with
  | none => s.answer stBusy
  | some r =>
    match (if r.sub = byteAt p 0 && h.arcGoes then h.openBlock r else none) with
    | none => s.answer stBusy
    | some (slot, count, trec) =>
      let len := imageLen (leBytes 3 0 ++ [1] ++ leBytes 2 count) + 4
      if !h.mapped (fieldAt p 4 4 * 4096) len then s.answer stBadLength
      else
        let t := s.on i (fun h =>
          let h := (h.fset ARC_CTL_SUSPEND 1).arcSettle
          Half.finishPasses (2 * h.arc.passes.length + h.lta.blocks.length) h)
        let left := (t.half i).arc.passes.any (fun p => p.status != 0 && p.shape < 2 && slot ≤ p.slot && p.slot < slot + count)
        let t := t.on i (fun h =>
          let h := if left then h else h.memWrite (fieldAt p 4 4 * 4096) (h.contextImage r (h.nextPart r) slot trec count true none)
          (h.fset ARC_CTL_SUSPEND 0).arcSettle)
        if left then t.answer stBusy else t.answer stOk (leBytes 2 count ++ leBytes 2 0 ++ leBytes 4 len)

/-! ### Effective frames (R37, R408) -/

/-- The effective frame that a K_E names: 0 is the earliest that R37 permits; none where it is too early. -/
def Half.effective (h : Half) (ke : Nat) : Option Nat := if ke = 0 then some (h.frame + 2) else if h.frame + 2 ≤ ke then some ke else none

/-- Set writes aside for the tick of an effective frame, each under its input, subarray or slot; none where another effective
frame is pending for one of them (R408). -/
def Half.planWrites (h : Half) (opcode ke tick : Nat) (items : List (Nat × List PWrite)) : Option Half :=
  if h.exy.planned.any (fun x => x.opcode == opcode && x.ke != ke && items.any (fun e => e.1 == x.key)) then none
  else some { h with exy := { h.exy with planned := h.exy.planned ++ items.map (fun e => ⟨ke, tick, opcode, e.1, e.2⟩) } }

/-- A table command: inputs of this half, an effective frame, no conflicting one. -/
def State.opTable (s : State) (i : HalfId) (opcode ke extra : Nat) (items : Nat → Option (List (Nat × List PWrite))) : Res :=
  let h := s.half i
  match h.effective ke with
  | none => s.answer (if (items 0).isNone then stBadLength else stBusy)
  | some ke =>
    match items ke with
    | none => s.answer stBadLength
    | some ws =>
      match h.planWrites opcode ke (ke + extra) ws with
      | none => s.answer stBusy
      | some h => (s.on i (fun _ => h)).answer stTick

/-- All of a list, or none. -/
def allSome {α : Type} : List (Option α) → Option (List α)
  | [] => some []
  | none :: _ => none
  | some a :: xs => (allSome xs).map (a :: ·)

/-- MODEL_SET (R90, R94). -/
def State.opModelSet (s : State) (i : HalfId) (p : List Byte) : Res :=
  let h := s.half i
  let entry (n : Nat) : List Byte := slice p (16 + 52 * n) 52
  let ents := allSome ((List.range (fieldAt p 0 2)).map (fun n =>
    let e := entry n
    (h.qOfPlaza (fieldAt e 0 2)).map (fun q =>
      (q, (List.range 10).map (fun w => fieldAt e (12 + 4 * w) 4)
        ++ [fieldAt e 6 4, fieldAt e 10 2, byteAt e 2 % 2 * 2 ^ 31 + fieldAt e 4 2]))))
  s.opTable i 0x0400 (fieldAt p 8 8) 0
    (fun _ => ents.map (fun es => es.map (fun e => (e.1, e.2.zipIdx.map (fun w => .reg (DLY_MODEL_0.at e.1 + 4 * w.2) (BitVec.ofNat 32 w.1))))))

/-- GAIN_SET (R96, R97). -/
def State.opGainSet (s : State) (i : HalfId) (p : List Byte) : Res :=
  s.opTable i 0x0401 (fieldAt p 8 8) 0
    (fun _ => ((s.half i).qOfPlaza (fieldAt p 0 2)).map (fun q =>
      [(q, (List.range (fieldAt p 4 2)).map (fun n => .gain q (fieldAt p 2 2 + n) (BitVec.ofNat 32 (fieldAt p (16 + 4 * n) 4))))]))

/-- INPUT_FLAGS. -/
def State.opInputFlags (s : State) (i : HalfId) (p : List Byte) : Res :=
  s.opTable i 0x0402 (fieldAt p 8 8) 0
    (fun _ => allSome ((List.range (fieldAt p 0 2)).map (fun n =>
      ((s.half i).qOfPlaza (fieldAt p (16 + 4 * n) 2)).map (fun q =>
        let f := byteAt p (18 + 4 * n)
        (q, [.reg (DLY_INPUT_CFG.at q) (BitVec.ofNat 32 (f % 8)),
             .reg (CHN_INPUT_CFG.at q) (BitVec.ofNat 32 (b2n (bit f 3) * 2 + b2n (bit f 4)))])))))

/-- MASK_SET. -/
def State.opMaskSet (s : State) (i : HalfId) (p : List Byte) : Res :=
  s.opTable i 0x0403 (fieldAt p 8 8) 0
    (fun _ => some [(0, (List.range (fieldAt p 2 2)).map (fun n =>
      .reg (CHN_MASK.at (fieldAt p 0 2 + n)) (BitVec.ofNat 32 (fieldAt p (16 + 4 * n) 4))))])

/-- SKY_SET (R409): held for BEAM_DELAYS, for any input of the Plaza, since a beam table names all of a subarray's. -/
def State.opSkySet (s : State) (i : HalfId) (p : List Byte) : Res :=
  let n := fieldAt p 0 2
  if (List.range n).any (fun k => (s.half i).plazaInputs ≤ fieldAt p (4 + 12 * k) 2) then s.answer stBadLength
  else
    (s.on i (fun h => h.fold (List.range n) (fun h k =>
      { h with exy := { h.exy with sky := SMap.insert h.exy.sky (fieldAt p (4 + 12 * k) 2) (bit (byteAt p (6 + 12 * k)) 0, fieldAt p (8 + 12 * k) 8) } }))).answer stOk

/-! ### Beams (R409) -/

/-- The schedule that a subarray has from a frame on. -/
def Half.schedAt (h : Half) (sub j : Nat) : Option Sched := (SMap.find? h.exy.subs sub).bind (fun x => x.at j)

/-- PHASE0 and PRATE for a delay on Plaza input `n` (R409), before PRATE is narrowed. (DEDUCED, log 46) -/
def Half.beamPhase (h : Half) (n : Nat) (tau : Int) : Nat × Int :=
  let (lsb, flo) := SMap.getD h.exy.sky n (false, 0)
  let c : Int := if h.isComplex then (h.firstChan : Int) - (h.chans / 2 : Nat) else if lsb then -(h.firstChan : Int) else h.firstChan
  let fs : Int := (h.fget TMG_FS_FS : Nat)
  let l : Int := (h.fftLen : Nat)
  let num := ((flo : Int) * l + c * fs * 10 ^ 6 * 2 ^ 16) * tau
  let rate := rneDiv (fs * tau) (h.fftLen * 1000)
  (wrapBits 32 (rneDiv num (2 ^ 16 * h.fftLen * 10 ^ 9)), if lsb && !h.isComplex then -rate else rate)

/-- The first three words of a beam entry, from its twelve bytes: a delay with its gain, or the words themselves. -/
def Half.beamWordsOf (h : Half) (delays : Bool) (n : Nat) (e : List Byte) : Option (List Nat) :=
  let gain := fieldAt e 8 4
  if !delays then some [fieldAt e 0 4, fieldAt e 4 4, gain]
  else
    let (ph, rate) := h.beamPhase n (sext 64 (fieldAt e 0 8))
    if rate < -(2 ^ 31) || 2 ^ 31 ≤ rate then none else some [ph, wrapBits 32 rate, gain]

/-- BEAM_DELAYS and BEAM_RAW (R197, R409): entries of beams and positions of the subarray's table. -/
def State.opBeam (s : State) (i : HalfId) (delays : Bool) (p : List Byte) : Res :=
  let h := s.half i
  let sub := byteAt p 0
  let (b0, nb, k0, np) := (fieldAt p 2 2, fieldAt p 4 2, fieldAt p 6 2, fieldAt p 8 2)
  if !(SMap.find? h.exy.subs sub).any (fun x => x.latest.isSome) then s.answer stBusy
  else
    s.opTable i (if delays then 0x0500 else 0x0501) (fieldAt p 16 8) h.delta
      (fun ke =>
        match (if ke = 0 then (SMap.find? h.exy.subs sub).bind Sub.latest else h.schedAt sub ke) with
        | none => none
        | some x =>
          if x.beams < b0 + nb || 64 * x.blocks < k0 + np then none
          else
            (allSome ((List.range (nb * np)).map (fun n =>
              let (b, k) := (b0 + n / np, k0 + n % np)
              (h.beamWordsOf delays (64 * firstBlk64 x.inputs + k) (slice p (24 + 12 * n) 12)).map (fun ws =>
                ws.zipIdx.map (fun w => PWrite.beam sub ((b * (64 * x.blocks) + k) * 6 + w.2) (BitVec.ofNat 32 w.1)))))).map
              (fun ws => [(sub, ws.flatten)]))

/-- BEAM_SCALE (R206). -/
def State.opBeamScale (s : State) (i : HalfId) (p : List Byte) : Res :=
  let n := fieldAt p 4 2
  let e0 := fieldAt p 0 2 * 512 + fieldAt p 2 2
  let last := e0 + n - 1
  let slots := (List.range (last / 512 + 1 - e0 / 512)).map (e0 / 512 + ·)
  s.opTable i 0x0502 (fieldAt p 8 8) (s.half i).delta
    (fun _ => some (slots.map (fun k =>
      (k, (List.range n).filterMap (fun m =>
        if (e0 + m) / 512 = k then some (.scale k ((e0 + m) % 512) (fieldAt p (16 + 2 * m) 2)) else none)))))

/-! ### Rings and ports -/

/-- The mirrored region is there: lay the regions if none is. -/
def Half.ensureLaid (h : Half) : Half := if h.regionLaid regionMirror then h else h.layHbm 0 0

/-- The quota of a kind that admission takes: the lower of the one in effect and one pending (R407). -/
def Sub.quota (x : Sub) (k : Nat) : Nat := min (x.quotas.getD k 0) ((x.next.map (fun q => q.getD k 0)).getD (x.quotas.getD k 0))

/-- Publish DEV_QUOTA_USE and the SHED bits of a subarray (Tables FRM-7, FRM-8): bay-cycles are freed from tick k_e + Δ of a
tear-down, the rest when it has stopped (R39). (DEDUCED, log 26) -/
def Half.showUse (h : Half) (sub : Nat) : Half :=
  let x := SMap.find? h.exy.subs sub
  let u := match x.bind (fun x => (x.vers.findSome? (·.2)).map x.unshed) with | some y => h.uses sub y | none => [0, 0, cdiv (h.ringHeld sub) 1024, 0]
  let u := if x.any (fun x => x.latest.isNone && (x.vers.head?.map (·.1)).getD 0 + h.delta ≤ h.frame) then 0 :: u.drop 1 else u
  let h := (((h.putN DEV_QUOTA_USE_0 (u.getD 0 0) sub).putN DEV_QUOTA_USE_1 (u.getD 1 0) sub).putN DEV_QUOTA_USE_2 (u.getD 2 0) sub).putN DEV_QUOTA_USE_3 (u.getD 3 0) sub
  let shed := x.any (fun x => !x.shed.isEmpty)
  h.putN DEV_SUBARR_ACT (setBits (h.getN DEV_SUBARR_ACT) (16 + sub) (16 + sub) (b2n shed))

def Half.showUses (h : Half) : Half := h.fold (List.range 16) Half.showUse

/-- Context bytes 8 to 47 of a payload, with STATE, POSMODE and DBPEND left out. -/
def ringConf (p : List Byte) : List Byte := let c := slice p 8 40; leBytes 1 (byteAt c 0 % 16) ++ c.drop 1

/-- Write a whole ring context, its engine state as after reset. -/
def Half.newCtx (h : Half) (r : Nat) (c : List Byte) : Half :=
  let h := h.setEng (r := r) (fun _ => RingEng.reset)
  (((h.ctxLoad r).setCtx r c).fillTokens r)

/-- RING_CREATE: regions are placed in the mirrored region. -/
def State.opRingCreate (s : State) (i : HalfId) (p : List Byte) : Res :=
  let r := fieldAt p 0 4
  let (rc, cc) := (byteAt p 4, byteAt p 5)
  let h := s.half i
  let conf := ringConf p
  let sub := ctxSub (leBytes 8 0 ++ conf)
  if ringHalf r != i || (h.ringRec r).isSome then s.answer stBusy
  else if (SMap.find? h.exy.subs sub).any (fun x => x.latest.isSome && !quotaHolds (x.quota 2) (cdiv (h.ringHeld sub + 32 * 2 ^ rc) 1024)) then s.answer stQuota
  else
    let h := h.ensureLaid
    match h.mirrorFit (32 * 2 ^ rc) (32 * 2 ^ rc) with
    | none => s.answer stNoMemory
    | some rb =>
      let rec0 : RingRec := ⟨r, conf, rb, rc, 0, 0, none⟩
      let h1 : Half := { h with exy := { h.exy with rings := h.exy.rings ++ [rec0] } }
      match (if cc = 0 then some 0 else h1.mirrorFit (16 * 2 ^ cc) 16) with
      | none => s.answer stNoMemory
      | some cb =>
        let h2 : Half := { h with exy := { h.exy with rings := h.exy.rings ++ [{ rec0 with cbase := cb, ccode := cc }] } }
        let c := leBytes 8 rb ++ conf ++ leBytes 8 rb ++ leBytes 1 rc ++ leBytes 1 cc ++ leBytes 6 0 ++ leBytes 8 cb ++ leBytes 24 0
        (s.on i (fun _ => (h2.newCtx r c).showUse sub)).answer stOk (leBytes 8 rb ++ leBytes 8 cb)

/-- RING_SET (R242): LOCKED where a field that is locked while RUNNING or PARKED would change. -/
def State.opRingSet (s : State) (i : HalfId) (p : List Byte) : Res :=
  let r := fieldAt p 0 4
  let h := s.half i
  if ringHalf r != i then (s.on i (fun h => h.logRing errTRW_CFG_RANGE r)).answer stBusy
  else if (h.ringRec r).isNone then s.answer stBusy
  else
    let h := h.ctxLoad r
    let c := h.ctx r
    let conf := ringConf p
    let new := leBytes 1 (byteAt c 8 / 16 * 16 + byteAt conf 0) ++ conf.drop 1
    let active := ctxState c = ringRunning || ctxState c = ringParked
    let word (bs : List Byte) (w : Nat) : Nat := fieldAt bs (4 * w) 4
    if active && (List.range 10).any (fun w => (word new w ^^^ word (c.drop 8) w) &&& (0xFFFFFFFF ^^^ ctxLiveMask (2 + w)) != 0) then
      (s.on i (fun _ => h)).answer stLocked
    else
      let old := ctxSub c
      let h := h.fold (List.range 10) (fun h w => h.ctxWrite r (2 + w) (BitVec.ofNat 32 (word new w)))
      let h := { h with exy := { h.exy with rings := h.exy.rings.map (fun (x : RingRec) => if x.ring == r then { x with conf := conf } else x) } }
      (s.on i (fun _ => (h.showUse old).showUse (ctxSub (h.ctx r)))).answer stOk

/-- Rings that a schedule of the half, running or to come, names. -/
def Half.ringNamed (h : Half) (r : Nat) : Bool :=
  h.exy.subs.any (fun e => e.2.vers.any (fun v => v.2.any (fun x => x.flows.contains r)))

/-- Free a ring: its context is cleared and its regions given back. (DEDUCED, log 28) -/
def Half.destroyRing (h : Half) (r : Nat) : Half :=
  let sub := ctxSub (h.ctx r)
  let h := (h.ctxLoad r).setCtx r (List.replicate ctxBytes 0)
  let h := h.setEng (r := r) (fun _ => RingEng.reset)
  ({ h with exy := { h.exy with rings := h.exy.rings.filter (fun x => x.ring != r) } } : Half).showUse sub

/-- RING_CMD (R240); on a ring of the other half it is ignored and logs TRW_CFG_RANGE (R230). (DEDUCED, log 28) -/
def State.opRingCmd (s : State) (i : HalfId) (p : List Byte) : Res :=
  let r := fieldAt p 0 4 % 2 ^ 20
  let h := s.half i
  if ringHalf r != i then (s.on i (fun h => h.logRing errTRW_CFG_RANGE r)).answer stOk
  else match byteAt p 4 with
  | 1 => (s.on i (fun h => h.stopRing r)).answer stOk
  | 2 => (s.on i (fun h => h.startRing r)).answer stOk
  | _ =>
    let c := h.ctx r
    if (ctxState c = ringStopped || ctxState c = ringIdle) && ctxPidx c = ctxDidx c && !h.ringNamed r && (h.eng r).held.isNone then
      (s.on i (fun h => h.destroyRing r)).answer stOk
    else s.answer stBusy

/-- RING_QUERY. -/
def State.opRingQuery (s : State) (i : HalfId) (p : List Byte) : Res :=
  let r := fieldAt p 0 4
  if ringHalf r != i then s.answer stBusy
  else s.answer stOk ((List.range 32).flatMap (fun w => leBytes 4 ((s.half i).ctxReadWord r w).toNat))

/-- PORT_CFG: SMAC, SIP4 and SIP6 are little-endian numbers, as every field of a command frame (R3). (DEDUCED, log 44) -/
def State.opPortCfg (s : State) (i : HalfId) (p : List Byte) : Res :=
  if (s.half i).flag OUT_CTL_RUN then s.answer stLocked
  else
    let port (l : Nat) : List (Nat × Nat) :=
      let e := slice p (4 + 28 * l) 28
      [(OUT_PORT_0.at l, fieldAt e 0 4), (OUT_PORT_1.at l, fieldAt e 4 2), (OUT_PORT_2.at l, fieldAt e 8 4)]
        ++ [(OUT_PORT_3.at l, fieldAt e 24 4), (OUT_PORT_4.at l, fieldAt e 20 4), (OUT_PORT_5.at l, fieldAt e 16 4), (OUT_PORT_6.at l, fieldAt e 12 4)]
    (s.writeWords i ((OUT_CTL.at 0, byteAt p 1 * 4 + byteAt p 0 * 2) :: (List.range 4).flatMap port)).answer stOk

/-! ### Capture (R221) -/

/-- The feed of a capture product, at the current frame. -/
def Half.feedOf (h : Half) (sub prod : Nat) : Option Nat :=
  match h.placeAt h.frame 2 sub prod with
  | some q => some q.entry
  | none => (h.exy.places.find? (fun (q : Place) => q.kind == 2 && q.sub == sub && q.num == prod)).map (fun (q : Place) => q.entry)

/-- The commands give CAP_BUSY (R221): ARM while READING, READ while ARMED or TRIGGERED, as each command finds the feed. -/
def Half.capGivesBusy (h : Half) (v n free : Nat) : Bool :=
  let h1 := if bit n 4 then h.capReleaseCmd v else h
  let h2 := h.capCmds v (n % 8 + n / 16 % 2 * 16) free
  (bit n 0 && h1.capState v == capReading) || (bit n 3 && (h2.capState v == capArmed || h2.capState v == capTriggered))

/-- CAP_CMD. (DEDUCED, log 27) -/
def State.opCapCmd (s : State) (i : HalfId) (p : List Byte) : Res :=
  match (s.half i).feedOf (byteAt p 0) (byteAt p 1) with
  | none => s.answer stBusy
  | some v =>
    let (x, s) := s.free
    let s := s.writeWords i [(CAP_FEED_9.at v, fieldAt p 4 4), (CAP_FEED_10.at v, fieldAt p 8 4)]
    let busy := (s.half i).capGivesBusy v (byteAt p 2) x
    let s := s.on i (fun h => h.capCmds v (byteAt p 2) x)
    s.answer (if busy then stBusy else stOk) (leBytes 1 ((s.half i).capState v))

/-- CAP_TRIGCFG: TICK fields of the feed. -/
def State.opCapTrigcfg (s : State) (i : HalfId) (p : List Byte) : Res :=
  match (s.half i).feedOf (byteAt p 0) (byteAt p 1) with
  | none => s.answer stBusy
  | some v =>
    (s.writeWords i [(CAP_FEED_4.at v, fieldAt p 8 3), (CAP_FEED_5.at v, byteAt p 2 % 2 * 2 ^ 31 + fieldAt p 4 2),
      (CAP_FEED_6.at v, fieldAt p 12 4), (CAP_FEED_7.at v, fieldAt p 16 2)]).answer stTick

/-- CAP_QUERY. -/
def State.opCapQuery (s : State) (i : HalfId) (p : List Byte) : Res :=
  match (s.half i).feedOf (byteAt p 0) (byteAt p 1) with
  | none => s.answer stBusy
  | some v =>
    let r := s.readWords i ((List.range 8).map (fun w => CAP_FSTAT_0.at v + 4 * w))
    r.2.answer stOk r.1

/-! ### Timing -/

/-- TIME_QUERY. -/
def State.opTimeQuery (s : State) (i : HalfId) : Res :=
  let r := s.readWords i ([TMG_STAT.at 0, TMG_TIME_LO.at 0, TMG_TIME_HI.at 0, TMG_TIME_FR.at 0, HO_TE.at 0]
    ++ (List.range 7).flatMap (fun r => [TMG_REF_5.at r, TMG_REF_6.at r, TMG_REF_PH.at r, TMG_REF_7.at r]))
  r.2.answer stOk r.1

/-- A command whose payload gives register words: each must fit its register. -/
def State.opWords (s : State) (i : HalfId) (ws : List (RegDef × Nat × Nat)) : Res :=
  if ws.all (fun w => (s.half i).wordOk w.1 w.2.1 w.2.2) then (s.writeWords i (ws.map (fun w => (w.1.at w.2.1, w.2.2)))).answer stOk
  else s.answer stBadLength

/-- REF_CFG. -/
def State.opRefCfg (s : State) (i : HalfId) (p : List Byte) : Res :=
  s.opWords i ([TMG_REF_0, TMG_REF_1, TMG_REF_2, TMG_REF_3, TMG_REF_4].zipIdx.map (fun r => (r.1, byteAt p 0, fieldAt p (4 + 4 * r.2) 4)))

/-- TIME_CTL. -/
def State.opTimeCtl (s : State) (i : HalfId) (p : List Byte) : Res :=
  s.opWords i ([TMG_CTL, TMG_SLEW, TMG_QUAL, TMG_LOCK, TMG_DIS_THR, HO_THR, HO_Y, HO_Q].zipIdx.map (fun r => (r.1, 0, fieldAt p (4 * r.2) 4)))

/-- TIME_SET (R317). -/
def State.opTimeSet (s : State) (i : HalfId) (p : List Byte) : Res :=
  if s.north.subRuns || s.south.subRuns then s.answer stLocked
  else (s.writeWords i [(TMG_TSET_0.at 0, fieldAt p 0 4), (TMG_TSET_1.at 0, 2 ^ 31 + byteAt p 4)]).answer stOk

/-- PTP_CFG. -/
def State.opPtpCfg (s : State) (i : HalfId) (p : List Byte) : Res := s.opWords i [(TMG_PTP_CFG, 0, fieldAt p 0 4)]

/-! ### Lanes -/

/-- LANE_CFG: EN cleared, the words written, then EN as given. -/
def State.opLaneCfg (s : State) (i : HalfId) (p : List Byte) : Res :=
  let lam := byteAt p 0
  let w (n : Nat) : Nat := fieldAt p (4 + 4 * n) 4
  let old := (s.half i).getN LAN_CFG lam
  let off := (w 0) &&& (0xFFFFFFFF - 2 ^ LAN_CFG_EN.lo)
  if !([LAN_CFG, LAN_TIME, LAN_DEG, LAN_UNC].zipIdx.all (fun r => (s.half i).wordOk r.1 lam (w r.2))) then s.answer stBadLength
  else
    (s.writeWords i [(LAN_CFG.at lam, old &&& (0xFFFFFFFF - 2 ^ LAN_CFG_EN.lo)), (LAN_CFG.at lam, off), (LAN_TIME.at lam, w 1), (LAN_DEG.at lam, w 2),
      (LAN_UNC.at lam, w 3), (LAN_CFG.at lam, w 0)]).answer stOk

/-- LANE_TEST (R267, R270). -/
def State.opLaneTest (s : State) (i : HalfId) (p : List Byte) : Res :=
  let lam := byteAt p 0
  let test := fieldAt p 4 4
  let inj := fieldAt p 8 4
  if !(s.half i).wordOk LAN_TEST lam test || bits test 17 16 = 3 || 9 < bits test 11 8 || 9 < bits test 3 0 then s.answer stBadLength
  else if bit inj 31 && bits inj 30 28 != 0 && (s.half i).flag LAN_STAT_INJ_ACT lam then s.answer stBusy
  else (s.writeWords i [(LAN_TEST.at lam, test), (LAN_INJ.at lam, inj)]).answer stOk

/-- LANE_QUERY: words 6 to 15. -/
def State.opLaneQuery (s : State) (i : HalfId) (p : List Byte) : Res :=
  let r := s.readWords i ((List.range 10).map (fun w => LAN_STAT.at (byteAt p 0) + 4 * w))
  r.2.answer stOk r.1

/-! ### Events and errors -/

/-- The slot's queue starts afresh in both halves. -/
def State.freshSlot (s : State) (slot : Nat) : State :=
  let f (h : Half) : Half := { h with exy := { h.exy with evts := h.exy.evts.set slot ⟨[], 0, 0⟩ } }
  { s with north := f s.north, south := f s.south }

/-- TRANSPORT of a subscriber (Table EXY-18): by transport kind and the half that took the frame. -/
def subscriberCode (kind : Nat) (taker : HalfId) : Nat := 1 + 2 * kind + (match taker with | .north => 0 | .south => 1)

/-- EVT_SUBSCRIBE (R411). -/
def State.opEvtSubscribe (s : State) (i : HalfId) (src : Src) (taker : HalfId) (p : List Byte) : Res :=
  let k := byteAt p 0
  let r := s.opRecord i [(10 + 4 * k, subscriberCode src.kind taker + src.num * 256 + src.port * 65536), (11 + 4 * k, fieldAt p 4 4),
    (12 + 4 * k, beNat src.ip), (13 + 4 * k, 0)]
  if r.st = stOk then { r with s := r.s.freshSlot k } else r

/-- EVT_CANCEL. -/
def State.opEvtCancel (s : State) (i : HalfId) (p : List Byte) : Res :=
  let k := byteAt p 0
  let r := s.opRecord i [(10 + 4 * k, 0), (11 + 4 * k, 0), (12 + 4 * k, 0), (13 + 4 * k, 0)]
  if r.st = stOk then { r with s := r.s.freshSlot k } else r

/-- ERR_READ (R435): up to MAX records in handling order leave the queue; OVERFLOW is returned and cleared. -/
def State.opErrRead (s : State) (i : HalfId) (p : List Byte) : Res :=
  let h := s.half i
  let rs := (handlingOrder h.errq.recs).take (byteAt p 0)
  let s := s.onMain i (fun h =>
    ({ h with errq := { h.errq with recs := h.errq.recs.filter (fun r => !rs.any (fun x => x.id == r.id)) } } : Half).fset ERR_STAT_OVERFLOW 0)
  s.answer stOk (leBytes 1 rs.length ++ leBytes 1 0 ++ leBytes 2 (h.fget ERR_STAT_OVERFLOW) ++ rs.flatMap (fun r => (errWords r).flatMap (leBytes 4)))

/-! ### Halves, repair, housekeeping -/

/-- HANDOVER (R338). -/
def State.opHandover (s : State) (i : HalfId) : Res :=
  if !(s.half i).isPrimary || !(s.half i).flag LSE_STAT_OTHER_HOT then s.answer stBusy
  else (s.onIsland i Half.handover).answer stOk

def halfNamed (n : Nat) : HalfId := if n = 0 then .north else .south

/-- HALF_RESET (R342): at tick k_e; it restarts a half that is DOWN (R370, R377). (DEDUCED, log 46) -/
def State.opHalfReset (s : State) (i : HalfId) (p : List Byte) : Res :=
  let t := halfNamed (byteAt p 0)
  let h := s.half t
  match (s.half i).effective (fieldAt p 8 8) with
  | none => s.answer stBusy
  | some ke =>
    let down := h.isl.powered && h.own == 0 && !h.restartBarred && s.board.resetN
    if !(h.running || down) || (h.isPrimary && !h.flag LSE_STAT_OTHER_HOT) || h.exy.resetAt.any (· != ke) then s.answer stBusy
    else (s.on t (fun h => { h with exy := { h.exy with resetAt := some ke } })).answer stTick (leBytes 8 ke)

/-- BAY_REPAIR (R160). -/
def State.opBayRepair (s : State) (i : HalfId) (p : List Byte) : Res :=
  let h := s.half i
  if h.bayState (byteAt p 0) != bayFenced || !bays.any (fun q => h.bayState q == baySpare) then s.answer stBusy
  else (s.on i (fun h => h.orderRepair (byteAt p 0))).answer stTick

/-- PC_FENCE (R287, R289). -/
def State.opPcFence (s : State) (i : HalfId) (p : List Byte) : Res :=
  (s.onBoth (fun s => s.fence i (byteAt p 0) 5 false)).answer stOk

/-- HALF_QUERY. -/
def State.opHalfQuery (s : State) (i : HalfId) : Res :=
  let r := s.readWords i [LSE_STAT.at 0, LSE_EPOCH.at 0, LSE_FENCE.at 0, LSE_PEER.at 0]
  r.2.answer stOk r.1

/-- HK_READ. -/
def State.opHkRead (s : State) (i : HalfId) : Res :=
  let r := s.readWords i ((List.range 64).map HKA_RES.at ++ [SUP_STAT.at 0] ++ (List.range 9).map SUP_RAIL_2.at)
  r.2.answer stOk r.1

/-- HK_SEQ (R372). -/
def State.opHkSeq (s : State) (i : HalfId) (p : List Byte) : Res :=
  let n := byteAt p 0
  let ws := (List.range n).map (fun k => fieldAt p (4 + 4 * k) 4)
  if !ws.all (fun w => onlyBits w (fieldMask HKA_SEQ (fun _ => true))) then s.answer stBadLength
  else if (s.half i).fget HKA_STAT_STATE != 0 then s.answer stBusy
  else (s.writeWords i (ws.zipIdx.map (fun w => (HKA_SEQ.at w.2, w.1)) ++ [(HKA_CTL.at 0, 2 ^ 31 + byteAt p 1 % 2 * 2 ^ 29 + n)])).answer stOk

/-- SUP_CFG. -/
def State.opSupCfg (s : State) (i : HalfId) (p : List Byte) : Res :=
  if 4 ≤ fieldAt p 16 4 || 2 ^ 28 ≤ fieldAt p 8 4 then s.answer stBadLength
  else s.opWords i ([SUP_FEED, SUP_BO, SUP_AVS, SUP_THERM, SUP_CTL].zipIdx.map (fun r => (r.1, 0, fieldAt p (4 * r.2) 4)))

/-- HALF_RESTART (R370, R377). -/
def State.opHalfRestart (s : State) (p : List Byte) : Res :=
  let t := halfNamed (byteAt p 0)
  let h := s.half t
  if !h.isl.powered || h.own != 0 || h.restartBarred || !s.board.resetN then s.answer stBusy
  else (s.onIsland t (fun h => h.supRestart s.board.resetN)).answer stOk

end Sys2Proof.Machine
end

