-- ==== Sys2Proof/Machine/Subarrays.lean ====
section
/-! DEFINITION. Subarrays (R33 to R44, R406, R407): the opcodes of Table EXY-8, and what Exylo does for schedules, quotas and rings at
a tick. -/

namespace Sys2Proof.Machine

/-! ### Drafts -/

def Draft.ownedBy (d : Draft) (src : Src) : Bool := d.kind == src.kind && d.ip == src.ip && d.port == src.port && d.num == src.num

def Half.modExy (h : Half) (f : Exy → Exy) : Half := { h with exy := f h.exy }

def Half.sub? (h : Half) (sub : Nat) : Option Sub := SMap.find? h.exy.subs sub

/-- The subarray exists: it has a schedule and no tear-down (R39). -/
def Half.subExists (h : Half) (sub : Nat) : Bool := (h.sub? sub).any (fun x => x.latest.isSome)

/-- SCHED_BEGIN: a create starts empty and without quotas set, a change from the newest schedule; its draft carries quotas only once SCHED_INPUTS
gives them. A subarray torn down still stands until it has stopped. (DEDUCED, log 26) -/
def State.opSchedBegin (s : State) (i : HalfId) (src : Src) (p : List Byte) : Res :=
  let h := s.half i
  let sub := byteAt p 0
  let change := byteAt p 1 == 1
  let x := (h.sub? sub).bind Sub.latest
  if (if change then x.isNone else (h.sub? sub).isSome) then s.answer stBusy
  else
    let d : Draft := ⟨src.kind, src.ip, src.port, src.num, (x.map (fun y => { y with quotas := [] })).getD ⟨[], List.replicate 4 (2 ^ 32 - 1), []⟩⟩
    (s.on i (fun h => h.modExy (fun e => { e with drafts := SMap.insert e.drafts sub d }))).answer stOk

/-- Change the draft of this session; BUSY where it has none (Table EXY-8). -/
def State.onDraft (s : State) (i : HalfId) (src : Src) (sub : Nat) (f : Sched → Sched) : Res :=
  match SMap.find? (s.half i).exy.drafts sub with
  | none => s.answer stBusy
  | some d =>
    if !d.ownedBy src then s.answer stBusy
    else (s.on i (fun h => h.modExy (fun e => { e with drafts := SMap.insert e.drafts sub { d with sched := f d.sched } }))).answer stOk

/-- The four quotas at an offset of a payload (R457). -/
def quotasAt (p : List Byte) : List Nat := (List.range 4).map (fun k => fieldAt p (4 + 4 * k) 4)

/-- SCHED_INPUTS. -/
def State.opSchedInputs (s : State) (i : HalfId) (src : Src) (p : List Byte) : Res :=
  s.onDraft i src (byteAt p 0) (fun x => { x with inputs := setPositions (fieldAt p 20 1024) 8192, quotas := quotasAt p })

/-- Add a product, in place of one of its number. -/
def Sched.putProd (x : Sched) (p : Prod) : Sched :=
  { x with prods := x.prods.filter (fun q => q.num < p.num) ++ [p] ++ x.prods.filter (fun q => p.num < q.num) }

/-- SCHED_VIS. -/
def State.opSchedVis (s : State) (i : HalfId) (src : Src) (p : List Byte) : Res :=
  let f := byteAt p 3
  s.onDraft i src (byteAt p 0) (fun x => x.putProd ⟨byteAt p 1, byteAt p 2, .vis
    { i32 := bit f 0, norm := bit f 1, rowstat := bit f 2, align := bit f 3, x32 := bit f 4, gcode := byteAt p 4, amode := byteAt p 5,
      k16c := byteAt p 6, tInt := fieldAt p 8 4, flowVis := fieldAt p 12 4, flowCnt := fieldAt p 16 4, flowRow := fieldAt p 20 4 }⟩)

/-- SCHED_BEAM. -/
def State.opSchedBeam (s : State) (i : HalfId) (src : Src) (p : List Byte) : Res :=
  let f := byteAt p 4
  s.onDraft i src (byteAt p 0) (fun x => x.putProd ⟨byteAt p 1, byteAt p 2, .beam
    { shape := byteAt p 3, detected := bit f 0, stokes := bit f 1, vfmt8 := bit f 2, shift := byteAt p 5, nb := fieldAt p 6 2,
      first := fieldAt p 8 2, minValid := fieldAt p 10 2, nsCode := byteAt p 12, ncCode := byteAt p 13, flow := fieldAt p 16 4 }⟩)

/-- SCHED_CAPTURE. -/
def State.opSchedCapture (s : State) (i : HalfId) (src : Src) (p : List Byte) : Res :=
  s.onDraft i src (byteAt p 0) (fun x => x.putProd ⟨byteAt p 1, byteAt p 2, .cap
    { stream := bit (byteAt p 3) 0, input := fieldAt p 4 2, nq := fieldAt p 6 2, c0 := fieldAt p 8 2, nch := fieldAt p 10 2,
      szCode := byteAt p 12, flow := fieldAt p 16 4 }⟩)

/-- SCHED_DROP. -/
def State.opSchedDrop (s : State) (i : HalfId) (src : Src) (p : List Byte) : Res :=
  s.onDraft i src (byteAt p 0) (fun x => { x with prods := x.prods.filter (fun q => q.num != byteAt p 1) })

/-! ### Commits and tear-downs -/

/-- An earlier commit or tear-down has not reached tick k_e + Δ (R407). -/
def Half.subPending (h : Half) (sub : Nat) : Bool :=
  (h.sub? sub).any (fun x => x.vers.head?.any (fun v => h.frame < v.1 + h.delta))

/-- Inputs that a subarray holds (R36): of every schedule that it still has, one that is being torn down or has a change ahead too. (DEDUCED, log 26) -/
def Sub.inputsHeld (x : Sub) : List Nat := x.held.flatMap (·.inputs)

/-- A ring that a product names is absent, of another subarray, or with OWNER 0 (Table EXY-8). -/
def Half.ringsBad (h : Half) (sub : Nat) (x : Sched) : Bool :=
  x.flows.any (fun r => (h.ringRec r).isNone || ctxSub (h.ctx r) != sub || !ctxOwner (h.ctx r))

/-- The quotas that a commit brings into force: those that the draft carries, or those that stand (R457). -/
def carriedQuotas (draft : List Nat) (old : Option Sub) : List Nat :=
  match old with
  | some y => if draft.isEmpty then y.quotas else draft
  | none => draft

/-- What admission tests the quotas against: the draft's, and a cut pending under R42 where it is lower (R407, R457). -/
def commitQuotas (draft : List Nat) (old : Option Sub) : List Nat :=
  match old with
  | none => draft
  | some y => (List.range 4).map (fun k =>
      let q := (carriedQuotas draft old).getD k 0
      match y.next with
      | some n => if n.getD k 0 < y.quotas.getD k 0 then min q (n.getD k 0) else q
      | none => q)

/-- SCHED_COMMIT (R33, R36, R37, R407): the draft is closed in every outcome. (DEDUCED, log 25) -/
def State.opSchedCommit (s : State) (i : HalfId) (src : Src) (p : List Byte) : Res :=
  let sub := byteAt p 0
  let ke0 := fieldAt p 8 8
  let data (ke row : Nat) : List Byte := leBytes 8 ke ++ leBytes 4 row
  match SMap.find? (s.half i).exy.drafts sub with
  | none => s.answer stBusy (data ke0 0)
  | some d =>
    if !d.ownedBy src then s.answer stBusy (data ke0 0)
    else
      let s := s.on i (fun h => h.modExy (fun e => { e with drafts := SMap.erase e.drafts sub }))
      let h := s.half i
      let x := d.sched
      let old := h.sub? sub
      match h.effective ke0 with
      | none => s.answer stBusy (data ke0 0)
      | some ke =>
        let taken := h.exy.subs.any (fun e => e.1 != sub && (let ys := e.2.inputsHeld; x.inputs.any ys.contains))
        if h.subPending sub || old.any (fun y => y.latest.isNone) || taken || h.ringsBad sub x then s.answer stBusy (data ke 0)
        else
          let qs := commitQuotas x.quotas old
          let live := match old with | some y => y.unshed x | none => x
          let (st, row, h) := h.admitDraft sub ke x live qs
          if st != stOk then s.answer st (data ke row)
          else
            let y : Sub := match old with
              | some y => { y with vers := (ke, some x) :: y.vers, quotas := carriedQuotas x.quotas old, next := if x.quotas.isEmpty then y.next else some qs
                                   shed := y.shed.filter (fun q => x.prods.any (fun z => z.num == q.1)) }
              | none => ⟨[(ke, some x)], x.quotas, some qs, [], []⟩
            (s.on i (fun _ => (h.modExy (fun e => { e with subs := SMap.insert e.subs sub y })).showUse sub)).answer stTick (data ke 0)

/-- SUB_TEARDOWN (R39). -/
def State.opSubTeardown (s : State) (i : HalfId) (p : List Byte) : Res :=
  let sub := byteAt p 0
  let h := s.half i
  match h.effective (fieldAt p 8 8) with
  | none => s.answer stBusy
  | some ke =>
    if !h.subExists sub || h.subPending sub then s.answer stBusy
    else
      (s.on i (fun h => h.modExy (fun e => { e with subs := SMap.modify e.subs sub ⟨[], [], none, [], []⟩ (fun y =>
        { y with vers := (ke, none) :: y.vers, next := none, readmit := [] }) }))).answer stTick (leBytes 8 ke)

/-- QUOTA_SET (R41, R42): from the next tick; a cut returns ACCEPTED_AT_TICK. (DEDUCED, log 26) -/
def State.opQuotaSet (s : State) (i : HalfId) (p : List Byte) : Res :=
  let sub := byteAt p 0
  match (s.half i).sub? sub with
  | none => s.answer stBusy
  | some y =>
    if y.latest.isNone then s.answer stBusy
    else
      let qs := quotasAt p
      let cut := (List.range 4).any (fun k => qs.getD k 0 < (y.next.getD y.quotas).getD k 0)
      (s.on i (fun h => h.modExy (fun e => { e with subs := SMap.insert e.subs sub { y with next := some qs } }))).answer (if cut then stTick else stOk)

/-! ### Shedding and re-admission (R35, R42 to R44) -/

/-- Place of a product's type in R43's order. -/
def Prod.kindOrder (p : Prod) : Nat := match p.set with | .cap _ => 0 | .beam v => if v.detected then 1 else 2 | .vis _ => 3

/-- A product that goes before another (R43). -/
def shedBefore (a b : Nat × Prod) : Bool :=
  if a.2.prio != b.2.prio then b.2.prio < a.2.prio
  else if a.2.kindOrder != b.2.kindOrder then a.2.kindOrder < b.2.kindOrder
  else if a.2.num != b.2.num then b.2.num < a.2.num
  else b.1 < a.1

/-- The order of R43. -/
def shedOrder (xs : List (Nat × Prod)) : List (Nat × Prod) :=
  xs.foldl (fun ys x => ys.takeWhile (fun y => shedBefore y x) ++ [x] ++ ys.dropWhile (fun y => shedBefore y x)) []

/-- The half with the products of `back` no longer shed. -/
def Half.withBack (h : Half) (back : List (Nat × Nat)) : Half :=
  h.modExy (fun e => { e with subs := e.subs.map (fun x => (x.1, { x.2 with shed := x.2.shed.filter (fun q => !back.contains (x.1, q.1)) })) })

/-- Every budget fits with `back` running, and the subarray's quotas hold. -/
def Half.fitsWith (h : Half) (sub : Nat) (back : List (Nat × Nat)) : Bool :=
  let h := h.withBack back
  h.checkAll.isNone && (match (h.sub? sub).bind (fun y => y.latest.map (fun x => (y, y.unshed x))) with
    | some (y, x) =>
      let u := h.uses sub x
      quotaHolds (y.quota 0) (u.getD 0 0) && quotaHolds (y.quota 1) (u.getD 1 0) && quotaHolds (y.quota 3) (u.getD 3 0)
    | none => false)

/-- The shed products that fit, taken in the reverse of R43's order. -/
def Half.fitting (h : Half) (cands : List (Nat × Prod)) : List (Nat × Nat) :=
  (shedOrder cands).reverse.foldl (fun back c => if h.fitsWith c.1 ((c.1, c.2.num) :: back) then (c.1, c.2.num) :: back else back) []

/-- The shed products of the newest schedules that satisfy `f`. -/
def Half.shedProds (h : Half) (f : Nat → Nat × Bool → Bool) : List (Nat × Prod) :=
  h.exy.subs.flatMap (fun e => match e.2.latest with
    | none => []
    | some x => (x.prods.filter (fun p => e.2.shed.any (fun q => q.1 == p.num && f e.1 q))).map (fun p => (e.1, p)))

/-- READMIT (R44): at the next tick, as far as they fit. (DEDUCED, log 26) -/
def State.opReadmit (s : State) (i : HalfId) (p : List Byte) : Res :=
  let sub := byteAt p 0
  let h := s.half i
  let map := fieldAt p 32 32
  let back := h.fitting (h.shedProds (fun n q => n == sub && bit map q.1))
  let s := if h.subExists sub then s.on i (fun h => h.modExy (fun e =>
      { e with subs := SMap.modify e.subs sub ⟨[], [], none, [], []⟩ (fun y => { y with readmit := y.readmit ++ setPositions map 256 }) })) else s
  s.answer stTick (leBytes 32 (bitmap (back.map (·.2))))

/-- FRAME_CFG (R24): the regions of HBM are laid again where none is in use. (DEDUCED, log 26) -/
def State.opFrameCfg (s : State) (i : HalfId) (p : List Byte) : Res :=
  if (s.half i).subRuns then s.answer stLocked
  else
    let s := s.writeWords i [(DEV_FRM_CFG.at 0, byteAt p 1 * 2 ^ 19 + fieldAt p 2 2 * 16 + byteAt p 0)]
    (s.on i (fun h => if h.exy.subs.isEmpty && h.exy.places.isEmpty && h.regionLaid regionMirror then h.layHbm 0 0 else h)).answer stOk

/-- SCHED_QUERY. -/
def State.opSchedQuery (s : State) (i : HalfId) (p : List Byte) : Res :=
  let sub := byteAt p 0
  let h := s.half i
  let y := h.sub? sub
  let st := match y with
    | none => 0
    | some y => if y.latest.isNone then 3 else if bit (h.getN DEV_SUBARR_ACT) sub then 2 else 1
  let ke := if h.subPending sub then ((y.bind (fun y => y.vers.head?)).map (·.1)).getD 0 else 0
  let shed := bitmap ((y.map (fun y => y.shed.map (·.1))).getD [])
  let r := s.readWords i [DEV_QUOTA_USE_0.at sub, DEV_QUOTA_USE_1.at sub, DEV_QUOTA_USE_2.at sub, DEV_QUOTA_USE_3.at sub]
  r.2.answer stOk (leBytes 8 st ++ leBytes 8 ke ++ leBytes 32 shed ++ r.1)

/-! ### Quotas and admission at a tick -/

def Half.markShed (h : Half) (sub num : Nat) (r35 : Bool) : Half :=
  h.modExy (fun e => { e with subs := SMap.modify e.subs sub ⟨[], [], none, [], []⟩ (fun y => { y with shed := y.shed ++ [(num, r35)] }) })

/-- QUOTA_SHED for what has been shed since `was`: one event, a record for each subarray concerned, and the maps it carries (R43). (DEDUCED, log 26) -/
def Half.quotaShedEvent (h : Half) (was : SMap Sub) : Half :=
  let before (s : Nat) : List Nat := ((SMap.find? was s).map (fun y => y.shed.map (·.1))).getD []
  let maps := (h.exy.subs.map (fun e => (e.1, (e.2.shed.map (·.1)).filter (fun n => !(before e.1).contains n)))).filter (fun e => !e.2.isEmpty)
  if maps.isEmpty then h
  else (((h.modExy (fun e => { e with shedMaps := maps })).raise 455).fold maps (fun h e => h.log errQUOTA_SHED e.1))

/-- The products of a subarray that run now or are to run, in R43's order. -/
def Half.runningProds (h : Half) (sub : Nat) : List (Nat × Prod) :=
  match h.sub? sub with
  | none => []
  | some y =>
    let all := (y.liveFrom (h.frame - h.delta)).flatMap (fun x => (y.unshed x).prods)
    shedOrder ((all.foldl (fun (ps : List Prod) p => if ps.any (fun q => q.num == p.num) then ps else ps ++ [p]) []).map (fun p => (sub, p)))

/-- Shed for the quotas of bay-cycles and output bandwidth (R42). -/
def Half.shedForQuota (sub : Nat) : Nat → Half → Half
  | 0, h => h
  | fuel + 1, h =>
    match (h.sub? sub).bind (fun y => y.latest.map (fun x => (y, y.unshed x))) with
    | none => h
    | some (y, x) =>
      let u := h.uses sub x
      if quotaHolds (y.quotas.getD 0 0) (u.getD 0 0) && quotaHolds (y.quotas.getD 3 0) (u.getD 3 0) then h
      else match h.runningProds sub with
        | [] => h
        | c :: _ => Half.shedForQuota sub fuel (h.markShed sub c.2.num false)

/-- Pending quotas take effect, and products are shed until the demand fits them (R41, R42). -/
def Half.quotaTick (h : Half) : Half :=
  h.fold (h.exy.subs.filter (fun e => e.2.next.isSome)) (fun h e =>
    Half.shedForQuota e.1 (h.runningProds e.1).length
      (h.modExy (fun x => { x with subs := SMap.insert x.subs e.1 { e.2 with quotas := e.2.next.getD [], next := none } })))

/-- Shed across all subarrays until every budget fits (R35). -/
def Half.shedForRows : Nat → Half → Half
  | 0, h => h
  | fuel + 1, h =>
    if h.checkAll.isNone then h
    else match shedOrder (h.exy.subs.flatMap (fun e => h.runningProds e.1)) with
      | [] => h
      | c :: _ => Half.shedForRows fuel (h.markShed c.1 c.2.num true)

/-- Admission is recomputed at the tick after a unit was fenced or repaired (R35). -/
def Half.recomputeTick (h : Half) : Half :=
  let fenced := (List.range 128).any (fun p => h.fget HBM_PC_1_STATE p == 1 && !h.hbm.lateFence.contains p)
  if !h.exy.recompute && !fenced then h
  else
    let h := h.modExy (fun e => { e with recompute := false })
    (Half.shedForRows (h.exy.subs.flatMap (fun e => h.runningProds e.1)).length h).raise 459

/-- Take shed products back at tick `k`, each subarray's newly placed where its place is gone. -/
def Half.takeBack (h : Half) (k : Nat) (back : List (Nat × Nat)) : Half :=
  h.fold (back.map (·.1)).eraseDups (fun h sub =>
    match h.sub? sub with
    | none => h
    | some y =>
      let y' := { y with shed := y.shed.filter (fun q => !back.contains (sub, q.1)) }
      match y.latest.map y'.unshed with
      | none => h
      | some x => match h.placeProds sub (k - h.delta) x with
        | none => h
        | some ps => h.modExy (fun e => { e with subs := SMap.insert e.subs sub y', places := e.places ++ ps }))

/-- Re-admission: of products shed under R35 wherever they fit, and of those that READMIT named (R44). One that is shed at this very tick, as it was not
before in `was`, stays shed until the next. (DEDUCED, log 26) -/
def Half.readmitTick (h : Half) (k : Nat) (was : SMap Sub) : Half :=
  let old (n num : Nat) : Bool := (SMap.find? was n).any (fun y => y.shed.any (fun q => q.1 == num))
  let auto := h.shedProds (fun n q => q.2 && old n q.1)
  let h := if auto.isEmpty then h else h.takeBack k (h.fitting auto)
  let asked := h.shedProds (fun n q => old n q.1 && (((h.sub? n).map (·.readmit)).getD []).contains q.1)
  let h := if asked.isEmpty then h else h.takeBack k (h.fitting asked)
  h.modExy (fun e => { e with subs := e.subs.map (fun x => (x.1, { x.2 with readmit := [] })) })

/-! ### What the Arcade, the folder and the output run (R38, R406) -/

/-- The subarrays that the Arcade runs in frame `j`, each with the products that run. -/
def Half.arcadeRuns (h : Half) (j : Nat) : List (Nat × Sched) :=
  h.exy.subs.filterMap (fun e => (e.2.at j).bind (fun x =>
    let ps := (e.2.unshed x).prods.filter (fun p => match p.set with | .cap _ => false | _ => true)
    if ps.isEmpty then none else some (e.1, { x with prods := ps, quotas := [] })))

/-- The words of LTA_VIS for a product. -/
def visWordsOf (sub num base : Nat) (v : VisSet) : List Nat :=
  [2 ^ 31 + sub * 2 ^ 24 + num * 2 ^ 16 + v.gcode * 2 ^ 12 + b2n v.align * 2 ^ 10 + b2n v.rowstat * 2 ^ 9 + b2n v.norm * 2 ^ 8
    + b2n v.i32 * 2 ^ 7 + b2n v.x32 * 2 ^ 6, v.tInt, base / 4096, v.flowVis, v.flowCnt, v.flowRow]

/-- The words of BMF_PROD for a product. -/
def beamWordsFor (sub num scale : Nat) (v : BeamSet) : List Nat :=
  [2 ^ 31 + sub * 2 ^ 24 + num * 2 ^ 16 + b2n v.detected * 2 ^ 8 + b2n v.stokes * 2 ^ 7 + b2n v.vfmt8 * 2 ^ 6 + v.shift,
    v.nb * 2 ^ 16 + v.first, v.minValid * 2 ^ 16 + v.nsCode * 2 ^ 8 + v.ncCode, scale, v.flow]

/-- Put a TICK-class word into its shadow. -/
def Half.shade (h : Half) (r : RegDef) (i n : Nat) : Half := h.putShadow (r.at i) (BitVec.ofNat 32 n) false

/-- Place of a program of `n` ops: clear of every range in the histories and shadows of ARC_SUB_PROG and of `taken`. -/
def Half.progSpot (h : Half) (n : Nat) (taken : List (Nat × Nat)) : Option Nat :=
  let ranges := (List.range 16).flatMap (fun s =>
    ((h.getShadow ARC_SUB_PROG s) :: (h.get ARC_SUB_PROG s) :: (SMap.getD h.hist (ARC_SUB_PROG.at s) []).map (·.2)).map (fun w =>
      (bits w.toNat 11 0, bits w.toNat 27 16)))
  firstFit (0, 4096) ((ranges ++ taken).filter (fun r => 0 < r.2)) n 1

/-- Write a subarray's program, or keep the one that stands. -/
def Half.putProgram (h : Half) (sub : Nat) (ops : List (List Nat)) (taken : List (Nat × Nat)) : Half × List (Nat × Nat) :=
  let cur := (h.getShadow ARC_SUB_PROG sub).toNat
  let words := ops.flatten.map (BitVec.ofNat 32)
  let stands := bits cur 27 16 == ops.length
    && words.zipIdx.all (fun w => SMap.getD h.arc.prog (4 * bits cur 11 0 + w.2) 0 == w.1)
  if stands then (h, taken)
  else match h.progSpot ops.length taken with
    | none => (h, taken)
    | some b =>
      (({ h with arc := { h.arc with prog := SMap.putRun 0 h.arc.prog (4 * b) words } } : Half).shade ARC_SUB_PROG sub (ops.length * 2 ^ 16 + b),
        (b, ops.length) :: taken)

/-- Bring the Arcade, the folder and the beam post-processor to what frame `j` runs (R406). Registers that are locked while their
block runs are set directly. -/
def Half.arcadeLayout (h : Half) (j : Nat) (runs : List (Nat × Sched)) : Half :=
  let tp := (runs.map (fun e => e.2.tp)).foldl max 0
  let rec0 := 2 * (2 * tp + 512)
  let tabSlot := 2 * tp + 512 + cdiv tp 2
  let tabSize := (runs.map (fun e => cdiv (e.2.beams * 64 * e.2.blocks * 24) 32768)).foldl max 0
  let h := ((h.shade CY_STAGE 0 (2 * tp)).shade CY_TABLE 0 (tabSize * 2 ^ 16 + tabSlot)).shade CY_BHAND 0 (tabSlot + tabSize)
  let h := (h.putN TAL_SPILL_CFG (tp * 2 ^ 16 + rec0)).putN TAL_SPILL_BASE ((h.regionSpan regionSpill).1 / 4096)
  let h := (h.putN LTA_OUT_BASE ((h.regionSpan regionOut).1 / 4096)).putN LTA_OUT_SIZE 4096
  let h := (runs.foldl (fun (acc : Half × List (Nat × Nat)) e =>
    let (h, taken) := acc.1.putProgram e.1 (h.program e.1 e.2 rec0) acc.2
    let h := h.shade ARC_SUB_BANK e.1 tp
    let h := match SMap.find? h.exy.images e.1 with
      | some (a, b, n) =>
        if n != e.2.imageBytes then h
        else (((h.putN BMF_TAB_0 (a / 4096) e.1).putN BMF_TAB_1 (b / 4096) e.1).fset BMF_TAB_2_BEAMS e.2.beams e.1).fset BMF_TAB_3_KS e.2.blocks e.1
      | none => h
    let old := SMap.getD h.arc.members e.1 []
    let h := if (old.head?.map (·.2)) == some e.2.inputs then h
      else { h with arc := { h.arc with members := SMap.insert h.arc.members e.1 (((j, e.2.inputs) :: old).take 4) } }
    (h, taken)) (h, [])).1
  let h := h.fold ((h.exy.applied.map (·.1)).filter (fun s => !runs.any (fun e => e.1 == s))) (fun h s => h.shade ARC_SUB_PROG s 0)
  let live := runs.flatMap (fun e => e.2.prods.filterMap (fun p => match p.set with
    | .vis v => (h.placeAt j 0 e.1 p.num).map (fun q => (0, q.entry, visWordsOf e.1 p.num q.base v))
    | .beam v => (h.placeAt j 1 e.1 p.num).map (fun q => (1, q.entry, beamWordsFor e.1 p.num q.scale v))
    | .cap _ => none))
  let h := h.fold live (fun h x =>
    let regs := if x.1 = 0 then [LTA_VIS_0, LTA_VIS_1, LTA_VIS_2, LTA_VIS_3, LTA_VIS_4, LTA_VIS_5]
      else [BMF_PROD_0, BMF_PROD_1, BMF_PROD_2, BMF_PROD_3, BMF_PROD_4]
    h.fold (regs.zip x.2.2) (fun h w => h.shade w.1 x.2.1 w.2))
  let h := h.fold (h.exy.places.filter (fun (q : Place) => q.kind < 2 && !live.any (fun x => x.1 == q.kind && x.2.1 == q.entry))) (fun h q =>
    let r := if q.kind = 0 then LTA_VIS_0 else BMF_PROD_0
    let w := (h.getShadow r q.entry).toNat
    if bit w 31 then h.shade r q.entry (w % 2 ^ 31) else h)
  h.modExy (fun e => { e with applied := runs })

/-- The Arcade's part of tick `k`. (DEDUCED, log 46) -/
def Half.arcadeTick (h : Half) (k : Nat) : Half :=
  if k < h.delta then h
  else
    let runs := h.arcadeRuns (k - h.delta)
    if runs == h.exy.applied then h else h.arcadeLayout (k - h.delta) runs

/-! ### Capture feeds (R38, R43, R227) -/

/-- The words 0 to 3 of CAP_FEED for a product, and its flow. -/
def Half.feedWords (h : Half) (sub num base : Nat) (v : CapSet) : List Nat :=
  [b2n v.stream * 2 ^ 30 + sub * 2 ^ 24 + num * 2 ^ 16 + v.szCode * 2 ^ 8, v.nq * 2 ^ 16 + (h.ownQ v.input).getD 0,
    v.nch * 2 ^ 16 + v.c0, base / 4096]

/-- Feeds at tick `k`: those that start are set up once IDLE; those that are shed or end freeze; those that have ended are
released once a readout is over. -/
def Half.feedTick (h : Half) (k : Nat) : Half :=
  h.fold (h.exy.places.filter (fun (q : Place) => q.kind == 2)) (fun h q =>
    let y := h.sub? q.sub
    let x := y.bind (fun y => y.at k)
    let prod := x.bind (fun x => x.prods.find? (fun p => p.num == q.num))
    let cap := prod.bind (fun p => match p.set with | .cap v => some v | _ => none)
    let mine := h.placeAt k 2 q.sub q.num == some q
    let shed := y.any (fun y => y.shed.any (fun z => z.1 == q.num))
    let st := h.capState q.entry
    if q.ke > k then h
    else match (if mine then cap else none) with
    | some v =>
      if shed then (if h.capWriting q.entry || st == capArmed then h.capFreeze q.entry (st == capTriggered) else h)
      else
        let ws := h.feedWords q.sub q.num q.base v
        let regs := [CAP_FEED_0, CAP_FEED_1, CAP_FEED_2, CAP_FEED_3]
        if st != capIdle || (regs.map (fun r => h.getN r q.entry) == ws && (h.getShadow CAP_FEED_8 q.entry).toNat == v.flow) then h
        else (h.fold (regs.zip ws) (fun h w => h.putN w.1 w.2 q.entry)).shade CAP_FEED_8 q.entry v.flow
    | none =>
      if h.fget CAP_FEED_0_SUB q.entry != q.sub || h.fget CAP_FEED_0_PROD q.entry != q.num then h
      else if st == capArmed || st == capTriggered || st == capStreaming then h.capFreeze q.entry (st == capTriggered)
      else if st == capFrozen then h.capReleaseCmd q.entry
      else h)

/-! ### Rings (R249, R250) -/

/-- The ring is empty and no datagram of it is held. -/
def Half.ringEmpty (h : Half) (r : Nat) : Bool :=
  let c := h.ctx r
  ctxPidx c == ctxDidx c && ctxState c != ringRunning && (h.eng r).held.isNone

/-- Move an empty ring to a region: the next descriptor lies in its slot there. (DEDUCED, log 28) -/
def Half.moveRing (h : Half) (r base rcode : Nat) : Half :=
  let h := h.ctxLoad r
  let c := h.ctx r
  let c := putField (putField c 48 8 base) 56 1 (byteAt c 56 / 32 * 32 + rcode)
  let c := setPos c (descSlot c (ctxPidx c)) 0
  let h := (h.setCtx r (if ctxState c = ringParked then setState c ringIdle else c)).forgetLast r
  h.modExy (fun e => { e with rings := e.rings.map (fun (x : RingRec) => if x.ring == r then { x with base := base, rcode := rcode, grow := none } else x) })

/-- Growing rings that may move now. -/
def Half.growTick (h : Half) (k : Nat) : Half :=
  h.fold h.exy.rings (fun h x => match x.grow with
    | some (b, c, t) => if t ≤ k && h.ringEmpty x.ring then h.moveRing x.ring b c else h
    | none => h)

/-- Empty rings of a subarray are made as small as their caps ask (R250); one with OWNER 0 only while it is STOPPED. -/
def Half.shrinkRings (h : Half) (mine : List RingRec) : Half :=
  h.fold mine (fun h x =>
    match (h.eng x.ring).cap with
    | none => h
    | some n =>
      let c := max 4 (Nat.log2 (max 1 n))
      if c < x.rcode && h.ringEmpty x.ring && (ctxOwner (h.ctx x.ring) || ctxState (h.ctx x.ring) = ringStopped) then h.moveRing x.ring x.base c else h)

/-- Rings of a subarray under its ring-space quota `q` (R42, R250): at the tick of a cut below what is held every ring gets a cap, also where an earlier
cut stands; at each later tick empty rings are made smaller; the caps are lifted once what is held fits. (DEDUCED, log 28) -/
def Half.capRings (h : Half) (sub : Nat) (q : Nat) : Half :=
  let mine := h.exy.rings.filter (fun (x : RingRec) => ctxSub (h.ctx x.ring) == sub)
  let was := SMap.find? h.exy.cutTo sub
  let h := if was.isSome then h.shrinkRings mine else h
  let used := h.ringHeld sub
  if quotaHolds q (cdiv used 1024) then
    if was.isNone then h
    else (h.modExy (fun e => { e with cutTo := SMap.erase e.cutTo sub })).fold mine (fun h x =>
      if (h.eng x.ring).cap.isNone then h else h.setEng x.ring (fun e => { e with cap := none }))
  else
    let h := h.modExy (fun e => { e with cutTo := SMap.insert e.cutTo sub q })
    if was.any (· ≤ q) then h
    else h.fold mine (fun h x =>
      let code := ((h.ringRec x.ring).map (fun (y : RingRec) => y.rcode)).getD x.rcode
      h.setEng x.ring (fun e => { e with cap := some (2 ^ code * (q * 1024) / max 1 used) }))

def Half.ringTick (h : Half) (k : Nat) : Half :=
  (h.growTick k).fold h.exy.subs (fun h e => if e.2.latest.isSome then h.capRings e.1 (e.2.quotas.getD 2 0) else h)

/-! ### Starts, and what has run out -/

/-- A creation reaches its tick (R46, Table FRM-7). -/
def Half.startTick (h : Half) (k : Nat) : Half :=
  h.fold h.exy.subs (fun h e =>
    if e.2.vers.any (fun v => v.1 == k && v.2.isSome) && !bit (h.getN DEV_SUBARR_ACT) e.1 then
      (h.putN DEV_SUBARR_ACT (setBits (h.getN DEV_SUBARR_ACT) e.1 e.1 1)).raise 456
    else h)

/-- Versions that no stage uses any more go; the last schedule of a subarray torn down stays until it has stopped. -/
def pruneVers (j : Nat) (vs : List (Nat × Option Sched)) : List (Nat × Option Sched) :=
  let recent := vs.takeWhile (fun v => j < v.1)
  let old := vs.drop recent.length
  recent ++ old.takeWhile (fun v => v.2.isNone) ++ ((old.dropWhile (fun v => v.2.isNone)).head?).toList

/-- Versions and places that have run out at tick `k`. -/
def Half.pruneTick (h : Half) (k : Nat) : Half :=
  let j := k - h.delta
  let h := h.modExy (fun e => { e with subs := e.subs.map (fun x => (x.1, { x.2 with vers := pruneVers j x.2.vers })) })
  let keep (q : Place) : Bool := (h.sub? q.sub).any (fun y => y.vers.any (fun v => v.2.any (fun x =>
    x.prods.any (fun p => p.num == q.num) && h.placeAt (max v.1 j) q.kind q.sub q.num == some q))
    && !(q.kind == 2 && y.shed.any (fun z => z.1 == q.num)))
  h.modExy (fun e => { e with places := e.places.filter (fun q => keep q || (q.kind == 2 && h.capState q.entry != capIdle && h.fget CAP_FEED_0_SUB q.entry == q.sub)) })

/-! ### Writes set aside (R408) -/

/-- Carry a set-aside write into its shadow. -/
def Half.doPlanned (h : Half) (w : PWrite) : Half :=
  match w with
  | .reg a v =>
    match findReg a with
    | some (r, n) => if r == DLY_MODEL_12 then h.armModel n v false else h.putShadow a (BitVec.ofNat 32 (v.toNat &&& tickMask r)) false
    | none => h
  | .gain q e v => h.putGain (q * 1024 + e) v false
  | .beam sub n v => h.putTable sub n v
  | .scale k e v => h.putScale (k * 512 + e) v false

/-- The set-aside writes due at tick `k`; a beam table waits for its copy to end (R409). (DEDUCED, log 46) -/
def Half.plannedTick (h : Half) (k : Nat) : Half :=
  let beam (x : Planned) : Bool := x.opcode == 0x0500 || x.opcode == 0x0501
  let due := h.exy.planned.filter (fun x => x.tick ≤ k && !(beam x && h.flag BMF_TAB_2_COPY x.key))
  let h := h.modExy (fun e => { e with planned := e.planned.filter (fun x => !due.contains x) })
  h.fold due (fun h x => h.fold x.writes Half.doPlanned)

/-- What Exylo does at tick `k`, before the hand-over. -/
def Half.exyloTick (h : Half) (k : Nat) : Half :=
  if !h.running then h
  else
    let was := h.exy.subs
    let h := ((h.quotaTick.recomputeTick.quotaShedEvent was).readmitTick k was).startTick k
    let h := (((h.feedTick k).arcadeTick k).ringTick k).plannedTick k
    (h.pruneTick k).showUses

/-! ### A subarray stops (R39) -/

/-- The subarray's packets have left: torn down, past tick k_e + Δ, nothing of it folded, beamed or queued any more. -/
def Half.subDrained (h : Half) (sub : Nat) : Bool :=
  (match h.sub? sub with
  | some y => y.latest.isNone && (y.vers.head?).any (fun v => v.1 + h.delta ≤ h.frame)
  | none => false)
    && !h.lta.blocks.any (fun b => b.sub == sub) && !h.lta.integs.any (fun g => bits (g.words.getD 0 0) 27 24 == sub)
    && !h.arc.passes.any (fun p => p.sub == sub)
    && (h.exy.rings.filter (fun (x : RingRec) => ctxSub (h.ctx x.ring) == sub && ctxOwner (h.ctx x.ring))).all (fun x => h.ringEmpty x.ring)
    && (List.range 16).all (fun v => h.fget CAP_FEED_0_SUB v != sub || h.capState v == capIdle)

/-- Its resources are freed and SUBARRAY_STOPPED is raised. (DEDUCED, log 26) -/
def Half.subStopped (h : Half) (sub : Nat) : Half :=
  if !h.subDrained sub then h
  else
    let rings := (h.exy.rings.filter (fun (x : RingRec) => ctxSub (h.ctx x.ring) == sub && ctxOwner (h.ctx x.ring))).map (fun (x : RingRec) => x.ring)
    let h := h.modExy (fun e => { e with subs := SMap.erase e.subs sub, images := SMap.erase e.images sub
                                         cutTo := SMap.erase e.cutTo sub, shedMaps := SMap.erase e.shedMaps sub
                                         places := e.places.filter (fun (q : Place) => q.sub != sub) })
    let h := h.fold rings Half.destroyRing
    let h := h.putN DEV_SUBARR_ACT (setBits (h.getN DEV_SUBARR_ACT) sub sub 0)
    (h.showUse sub).raise 457

/-- SUBARRAY_STOPPED. -/
def execSubarrayStopped (i : HalfId) (sub : Nat) (s : State) : Host.Outcome State Fault Refusal :=
  done (s.onMain i (fun h => if sub < 16 then h.subStopped sub else h))

end Sys2Proof.Machine
end

