-- ==== Sys2Proof/Machine/Flash.lean ====
section
/-! DEFINITION. Flash images, ports, the choice of the image and image updates (R382 to R387, R392 to R394), and the flash opcodes. -/

namespace Sys2Proof.Machine

/-! ### Images (R384 to R386) -/

def imgLen (im : List Byte) : Nat := fieldAt im 8 4
def imgSeq (im : List Byte) : Nat := fieldAt im 12 4
def imgProfs (im : List Byte) : Nat := byteAt im 20 % 16
def imgSigned (im : List Byte) : Bool := bit (byteAt im 6) 0

/-- Entry `n` of the profile table. -/
def imgEntry (im : List Byte) (n : Nat) : List Byte := slice im (fieldAt im 16 4 + 32 * n) 32

/-- Profile section `n`, and its ALIGN. -/
def imgSection (im : List Byte) (n : Nat) : List Byte := let e := imgEntry im n; slice im (fieldAt e 0 4) (fieldAt e 4 4)
def imgAlign (im : List Byte) (n : Nat) : Nat := byteAt (imgEntry im n) 12 % 16

/-- The signature of R385 verifies under a key whose hash is the fused one. (PRESUMED, log 41) -/
def imgSignatureOk (im : List Byte) : Bool :=
  let ofs := fieldAt im 24 4
  let blk (k n : Nat) : List Byte := slice im (ofs + k) n
  imgSigned im && beNat (sha256 (blk 0 64)) == Config.keyHash
    && ecdsaVerify (beNat (blk 0 32)) (beNat (blk 32 32)) (beNat (blk 64 32)) (beNat (blk 96 32)) (sha256 (im.take ofs))

/-- The first check of R386 that what a slot of `room` bytes holds fails, by its code. (DEDUCED, log 40) -/
def imgFault (room : Nat) (im : List Byte) : Option Nat :=
  let np := imgProfs im
  let ptab := fieldAt im 16 4
  let secs := (List.range np).map (fun n => (fieldAt (imgEntry im n) 0 4, fieldAt (imgEntry im n) 4 4))
  if im.length < 64 || fieldAt im 0 4 != 0x4F4C4E50 || fieldAt im 4 2 != 1 || 1 < byteAt im 6 || byteAt im 7 != 0xA0
    || 15 < byteAt im 20 || fieldAt im 21 3 != 0 || fieldAt im 28 32 != 0 || fieldAt im 60 4 != crc32c (im.take 60) then some errNVM_HDR_BAD
  else if room < imgLen im || np = 0 || 8 < np || room < ptab + 32 * np + 4 || (imgSigned im && room < fieldAt im 24 4 + 128)
    || secs.any (fun e => e.1 % 4 != 0 || room < e.1 + e.2)
    || (List.range np).any (fun n => (List.range n).any (fun m =>
        let a := secs.getD n (0, 0)
        let b := secs.getD m (0, 0)
        rangesMeet a.1 a.2 b.1 b.2)) then some errNVM_HDR_BAD
  else if fieldAt im (ptab + 32 * np) 4 != crc32c (slice im ptab (32 * np))
    || (List.range np).any (fun n => fieldAt (imgEntry im n) 8 4 != crc32c (imgSection im n)) then some errNVM_SECT_CRC
  else if Config.keyHash != 0 && !imgSignatureOk im then some errNVM_SIG_FAIL
  else none

/-! ### Ports (R382, R383) -/

/-- The valid image of a slot. -/
def FlashPort.slot (p : FlashPort) (n : Nat) : Option (List Byte) := (p.slots[n]?).join

/-- The best image of a port: the higher SEQ, slot 0 on a tie. -/
def FlashPort.best (p : FlashPort) : Option (Nat × List Byte) :=
  match p.slot 0, p.slot 1 with
  | some a, some b => if imgSeq a < imgSeq b then some (1, b) else some (0, a)
  | some a, none => some (0, a)
  | none, some b => some (1, b)
  | none, none => none

/-- The slot that an update may write: one that does not hold the chosen image; of two, the one without the port's best image. (DEDUCED, log 40) -/
def FlashPort.spare (p : FlashPort) (image : Option (List Byte)) : Option Nat :=
  let holds (n : Nat) : Bool := (p.slot n).isSome && p.slot n == image
  match holds 0, holds 1 with
  | true, true => none
  | true, false => some 1
  | false, true => some 0
  | false, false => if (p.best.map (·.1)) == some 0 then some 1 else some 0

def portHalf (n : Nat) : HalfId := if n = 0 then .north else .south
def portOf (i : HalfId) : Nat := match i with | .north => 0 | .south => 1

/-- Half `i` reaches port `n`: its own, or the other across the die bridge. -/
def State.portReached (s : State) (i : HalfId) (n : Nat) : Bool :=
  (s.half (portHalf n)).mainUp && (portHalf n == i || s.board.bridgeUp)

/-- Port `n` as half `i` knows it. -/
def State.portSeen (s : State) (i : HalfId) (n : Nat) : FlashPort := if s.portReached i n then (s.half (portHalf n)).exy.port else ⟨false, 0, []⟩

/-- PORTA and PORTB of Table STA-7. -/
def State.portState (s : State) (i : HalfId) (n : Nat) : Nat :=
  let p := s.portSeen i n
  let busy (x : HalfId) : Bool := let u := (s.half x).exy.upd; u.state == 2 && u.issued && u.port == n
  if !p.present then 0 else if busy .north || busy .south then 3 else if p.best.isSome then 2 else 1

/-- Show the ports in NVM_STAT of both halves. -/
def State.showPorts (s : State) : State :=
  let show_ (i : HalfId) (s : State) : State :=
    if (s.half i).mainUp then
      let (a, b) := (s.portState i 0, s.portState i 1)
      s.onIsland i (fun h => (h.fset NVM_STAT_PORTA a).fset NVM_STAT_PORTB b)
    else s
  show_ .south (show_ .north s)

/-- The image that half `i` finds best on the ports it reaches: port, slot, image; port A on a tie (R387). -/
def State.bestImage (s : State) (i : HalfId) : Option (Nat × Nat × List Byte) :=
  match (s.portSeen i 0).best, (s.portSeen i 1).best with
  | some a, some b => if imgSeq a.2 < imgSeq b.2 then some (1, b) else some (0, a)
  | some a, none => some (0, a)
  | none, some b => some (1, b)
  | none, none => none

/-- Half takes an image, or none, as the chosen one (R387). -/
def Half.chooseImage (h : Half) (c : Option (Nat × Nat × List Byte)) : Half :=
  let h := h.modExy (fun e => { e with image := c.map (fun x => x.2.2) })
  let h := h.modIsl (fun x => { x with imageOk := c.isSome })
  let h := h.fset NVM_STAT_FUSED (b2n (Config.keyHash != 0))
  match c with
  | none => ((h.putN NVM_SEQ 0).fset NVM_STAT_BARE 1).log errNVM_NO_IMAGE
  | some (p, n, im) => (((h.putN NVM_SEQ (imgSeq im)).fset NVM_STAT_BARE 0).fset NVM_STAT_BOOTPORT p).fset NVM_STAT_BOOTSLOT n

/-- SPLIT: the halves have booted different images (R387). -/
def State.showSplit (s : State) : State :=
  let a := s.north.exy.image
  let b := s.south.exy.image
  if s.north.mainUp && s.south.mainUp && a.isSome && b.isSome then
    let f (h : Half) : Half :=
      let h' := h.fset NVM_STAT_SPLIT (b2n (a != b))
      if a != b && !h.flag NVM_STAT_SPLIT then h'.log errNVM_SPLIT else h'
    (s.on .north f).on .south f
  else s

/-! ### Updates (R392, R393) -/

def Half.modUpd (h : Half) (f : FlashUpd → FlashUpd) : Half := h.modExy (fun e => { e with upd := f e.upd })

/-- Bytes of the staging, by offset: the newest store wins, and what was never stored reads 0. -/
def FlashUpd.staged (u : FlashUpd) (ofs n : Nat) : List Byte :=
  (List.range n).map (fun k =>
    match u.stage.find? (fun c => c.1 ≤ ofs + k && ofs + k < c.1 + c.2.length) with
    | some c => c.2.getD (ofs + k - c.1) 0
    | none => 0)

/-- An update ends: 3 done, 4 failed; FLASH_DONE is pending until FLASH_INFO (Table EXY-7). -/
def Half.endUpdate (h : Half) (st : Nat) : Half :=
  let h := h.modUpd (fun u => { u with state := st, issued := false, stage := [] })
  h.modExy (fun e => { e with flashUnread := true })

/-- The ports that an update of half `i` writes. -/
def State.updPorts (s : State) (i : HalfId) : List Nat := [0, 1].filter (fun n => (s.portSeen i n).present)

/-- The port is being read in step 7 of its half's start-up. -/
def State.portReading (s : State) (n : Nat) : Bool :=
  let h := s.half (portHalf n)
  h.own == 1 && h.exy.port.slots.isEmpty

/-- Issue the operation that the update of half `i` has come to, unless its port is being read; an erase or program from a half that is
not the primary at the current epoch is ignored (R332). -/
def State.flashIssue (s : State) (i : HalfId) : State :=
  let u := (s.half i).exy.upd
  if u.state != 2 || u.issued || s.portReading u.port then s
  else if s.recordFenced i (portHalf u.port) then s.onIsland i (fun h => (h.raise 68).log errLSE_STALE_EPOCH)
  else
    let room := (s.portSeen i u.port).slotBytes
    let data := if u.phase = 1 then u.staged u.ofs (min 256 (u.len - u.ofs)) else if u.phase = 3 then u.staged 0 (min 256 u.len) else []
    let kind := if u.phase = 0 then 0 else if u.phase = 2 then 2 else 1
    let s := s.on i (fun h => (h.emit (.flashOp u.port kind (u.slot * room + u.ofs) data)).modUpd (fun u => { u with issued := true }))
    s.showPorts

/-- The update of half `i` starts on port `n`: the spare slot is erased from here on. -/
def State.flashStart (s : State) (i : HalfId) (n : Nat) : State :=
  let k := ((s.portSeen i n).spare (s.half i).exy.image).getD 0
  let s := s.on (portHalf n) (fun h => h.modExy (fun e => { e with port := { e.port with slots := e.port.slots.set k none } }))
  let s := s.on i (fun h => h.modUpd (fun u => { u with state := 2, port := n, slot := k, phase := 0, ofs := 0, issued := false }))
  s.flashIssue i

/-- An operation of the update of half `i` has completed; `back` is what a read back gave. (DEDUCED, log 40) -/
def State.flashNext (s : State) (i : HalfId) (back : List Byte) : State :=
  let u := (s.half i).exy.upd
  let room := (s.portSeen i u.port).slotBytes
  let go (f : FlashUpd → FlashUpd) : State := (s.on i (fun h => h.modUpd (fun u => { f u with issued := false }))).flashIssue i
  let image := u.staged 0 (min 256 u.len) ++ (back.take room).drop 256
  if u.aborting then (s.on i (fun h => h.modUpd (fun _ => Exy.reset.upd))).showPorts
  else match u.phase with
  | 0 =>
    if u.ofs + 4096 < room then go (fun u => { u with ofs := u.ofs + 4096 })
    else if 256 < u.len then go (fun u => { u with phase := 1, ofs := 256 })
    else go (fun u => { u with phase := 2, ofs := 0 })
  | 1 =>
    let n := min 256 (u.len - u.ofs)
    if u.ofs + 256 < u.len then go (fun u => { u with ofs := u.ofs + 256, written := u.written + n })
    else go (fun u => { u with phase := 2, ofs := 0, written := u.written + n })
  | 2 =>
    match imgFault room image with
    | some code => (s.on i (fun h => (h.endUpdate 4).log code)).showPorts
    | none => go (fun u => { u with phase := 3, ofs := 0 })
  | _ =>
    let s := s.on (portHalf u.port) (fun h => h.modExy (fun e =>
      { e with port := { e.port with slots := e.port.slots.set u.slot (some (u.staged 0 u.len)) } }))
    let s := s.on i (fun h => h.modUpd (fun u => { u with written := u.written + min 256 u.len, issued := false }))
    match (s.updPorts i).find? (fun n => u.port < n) with
    | some n => s.flashStart i n
    | none => (s.on i (fun h => h.endUpdate 3)).showPorts

/-- The update of half `i` has an operation in progress that this half may complete. -/
def State.flashRuns (s : State) (i : HalfId) : Bool :=
  let h := s.half i
  h.running && h.isPrimary && h.exy.upd.state == 2 && h.exy.upd.issued

/-- A program or erase failed (R394). -/
def State.flashFail (s : State) (i : HalfId) : State :=
  if (s.half i).exy.upd.aborting then (s.on i (fun h => (h.modUpd (fun _ => Exy.reset.upd)).log errNVM_OP_FAIL)).showPorts
  else (s.on i (fun h => (h.endUpdate 4).log errNVM_OP_FAIL)).showPorts

/-- FLASH_OP_DONE (R392, R394): the operation in progress ends, with failure reported or not. -/
def execFlashOpDone (i : HalfId) (ok : Bool) (back : List Byte) (s : State) : Host.Outcome State Fault Refusal :=
  done (if !s.flashRuns i then s else if ok then s.flashNext i back else s.flashFail i)

/-- FLASH_OP_TIMEOUT (R394). -/
def execFlashOpTimeout (i : HalfId) (s : State) : Host.Outcome State Fault Refusal := done (if s.flashRuns i then s.flashFail i else s)

/-! ### The flash opcodes (Table EXY-7) -/

/-- FLASH_INFO. -/
def State.opFlashInfo (s : State) (i : HalfId) : Res :=
  let u := (s.half i).exy.upd
  let port (n : Nat) : List Byte :=
    let p := s.portSeen i n
    let seq (k : Nat) : Nat := match p.slot k with | some im => imgSeq im | none => 0
    leBytes 1 (s.portState i n) ++ leBytes 1 ((p.spare (s.half i).exy.image).getD 0xFF) ++ leBytes 2 0 ++ leBytes 4 (seq 0) ++ leBytes 4 (seq 1)
      ++ leBytes 4 p.slotBytes
  (s.on i (fun h => h.modExy (fun e => { e with flashUnread := false }))).answer stOk (port 0 ++ port 1 ++ leBytes 4 u.state ++ leBytes 4 u.written)

/-- FLASH_BEGIN. -/
def State.opFlashBegin (s : State) (i : HalfId) (p : List Byte) : Res :=
  let n := fieldAt p 0 4
  let st := (s.half i).exy.upd.state
  if st = 1 || st = 2 then s.answer stBusy
  else if (s.updPorts i).isEmpty || (s.updPorts i).any (fun k => (s.portSeen i k).slotBytes < n) then s.answer stNoMemory
  else
    let h := (s.half i).ensureLaid
    match h.mirrorFit n 4096 with
    | none => s.answer stNoMemory
    | some a => (s.on i (fun _ => h.modUpd (fun _ => { Exy.reset.upd with state := 1, len := n, base := a }))).answer stOk

/-- FLASH_DATA. -/
def State.opFlashData (s : State) (i : HalfId) (p : List Byte) : Res :=
  let u := (s.half i).exy.upd
  let bs := p.drop 4
  if u.state != 1 then s.answer stBusy
  else if u.len < fieldAt p 0 4 + bs.length then s.answer stBadLength
  else (s.on i (fun h => h.modUpd (fun u => { u with stage := (fieldAt p 0 4, bs) :: u.stage }))).answer stOk

/-- FLASH_COMMIT. -/
def State.opFlashCommit (s : State) (i : HalfId) : Res :=
  let ps := s.updPorts i
  if (s.half i).exy.upd.state != 1 then s.answer stBusy
  else if ps.any (fun n => ((s.portSeen i n).spare (s.half i).exy.image).isNone) then s.answer stLocked
  else if ps.any (fun n => s.recordFenced i (portHalf n)) then (s.onIsland i (fun h => (h.raise 68).log errLSE_STALE_EPOCH)).answer stStaleEpoch
  else match ps with
  | [] => (s.on i (fun h => h.endUpdate 4)).answer stOk
  | n :: _ => (s.flashStart i n).answer stOk

/-- FLASH_ABORT: the operation in progress ends first. -/
def State.opFlashAbort (s : State) (i : HalfId) : Res :=
  let u := (s.half i).exy.upd
  if u.state = 2 && u.issued then (s.on i (fun h => h.modUpd (fun u => { u with aborting := true }))).answer stOk
  else if u.state = 1 || u.state = 2 then ((s.on i (fun h => h.modUpd (fun _ => Exy.reset.upd))).showPorts).answer stOk
  else s.answer stOk

/-- PROFILE_SWITCH (R391): in both halves, whichever took it. (DEDUCED, log 42) -/
def State.opProfileSwitch (s : State) (i : HalfId) (p : List Byte) : Res :=
  let both (f : Half → Half) : State := (s.on .north f).on .south f
  let busy (h : Half) : Bool := h.exy.switchTo.isSome || h.exy.draining
  if !s.north.running || !s.south.running then s.answer stHalfDown
  else if busy s.north || busy s.south then s.answer stBusy
  else match (s.half i).effective (fieldAt p 8 8) with
  | none => s.answer stBusy
  | some ke =>
    let go (f : Half → Half) : Res := (both (fun h => (f h).modExy (fun e => { e with switchTo := some (byteAt p 0, ke) }))).answer stTick (leBytes 8 ke)
    if !bit (byteAt p 1) 0 then go (fun h => h)
    else match s.bestImage i with
    | none => s.answer stBusy
    | some c => if imgProfs c.2.2 ≤ byteAt p 0 then s.answer stBusy else go (fun h => h.chooseImage (some c))

end Sys2Proof.Machine
end

