-- ==== Sys2Proof/Machine/Commands.lean ====
section
/-! DEFINITION. The command channel (R395 to R405): the checks of a received frame, its targets, sessions, execution and reply, and one
meaning for each opcode. -/

namespace Sys2Proof.Machine

/-! ### Payloads (R397, check 8) -/

/-- Bytes of a payload are all 0. -/
def zeroAt (p : List Byte) (ofs len : Nat) : Bool := fieldAt p ofs len == 0

/-- A K_E has bits 63:48 at 0. -/
def keGood (p : List Byte) (ofs : Nat) : Bool := zeroAt p (ofs + 6) 2

/-- `n` entries of `size` bytes from `ofs` on all pass. -/
def entriesGood (p : List Byte) (ofs size n : Nat) (f : List Byte → Bool) : Bool :=
  p.length == ofs + size * n && (List.range n).all (fun k => f (slice p (ofs + size * k) size))

/-- Bytes 8 to 47 of a ring context with reserved bits at 0 (Table TRW-3). -/
def ctxGood (p : List Byte) : Bool := (List.range 10).all (fun w => onlyBits (fieldAt p (8 + 4 * w) 4) (ctxMask (2 + w)))

/-- Payloads of the opcodes of Table EXY-8. -/
def Half.schedFormat (h : Half) (op : Nat) (p : List Byte) : Bool :=
  let n := p.length
  let b := byteAt p
  let w (o : Nat) : Nat := fieldAt p o 2
  let flow (o : Nat) : Bool := fieldAt p o 4 < 2 ^ 20
  b 0 < 16 && (
    if op = 0x0300 then n == 2 && b 1 < 2
    else if op = 0x0301 then n == 1044 && zeroAt p 1 3
    else if op = 0x0302 then
      n == 24 && b 2 < 8 && b 3 < 32 && b 4 ≤ 8 && b 5 ≤ 2 && b 6 ≤ 3 && zeroAt p 7 1 && 1 ≤ fieldAt p 8 4 && fieldAt p 8 4 < 2 ^ 24
        && flow 12 && flow 16 && flow 20
    else if op = 0x0303 then
      n == 20 && b 2 < 8 && b 3 < 2 && b 4 < 8 && b 5 ≤ 23 && 1 ≤ w 6 && w 6 ≤ 1024 && w 8 < 1024 && w 10 ≤ 4096 && b 12 ≤ 24 && b 13 ≤ 14
        && 2 ^ b 13 ≤ h.ownChans && !(b 4 % 4 == 3 && (w 6 % 2 == 1 || w 8 % 2 == 1)) && zeroAt p 14 2 && flow 16
    else if op = 0x0304 then
      n == 20 && b 2 < 8 && b 3 < 2 && (h.ownQ (w 4)).isSome && 1 ≤ w 6 && w 6 ≤ 256 && 1 ≤ w 10 && w 10 % (64 / h.bps) == 0 && w 8 + w 10 ≤ h.chans && b 12 ≤ 14
        && zeroAt p 13 3 && flow 16
    else if op = 0x0305 then n == 2
    else if op = 0x0306 || op = 0x0307 then n == 16 && zeroAt p 1 7 && keGood p 8
    else if op = 0x0308 then n == 20 && zeroAt p 1 3
    else if op = 0x0309 then n == 64 && zeroAt p 1 31
    else n == 1)

/-- The payload fits the opcode: length, ranges, reserved fields. (DEDUCED, log 44) -/
def Half.opFormat (h : Half) (op : Nat) (p : List Byte) : Bool :=
  let n := p.length
  let b := byteAt p
  let w (o : Nat) : Nat := fieldAt p o 2
  let d (o : Nat) : Nat := fieldAt p o 4
  if op = 0x030A then n == 4 && b 0 ≤ 4 && b 1 < 2 && w 2 ≤ 16384 / (1024 * 2 ^ b 0)
  else if 0x0300 ≤ op && op ≤ 0x030B then h.schedFormat op p
  else match op with
  | 0x0101 => n == 6 && d 0 % 4 == 0 && 1 ≤ w 4 && w 4 ≤ 256 && d 0 + 4 * w 4 ≤ 0x8000000
  | 0x0102 => n == 8 + 4 * w 4 && d 0 % 4 == 0 && 1 ≤ w 4 && w 4 ≤ 256 && zeroAt p 6 2 && d 0 + 4 * w 4 ≤ 0x8000000
  | 0x0103 => n == 22 && (w 18 == 1500 || w 18 == 9000) && w 20 < 2 ^ 13
  | 0x0104 => n == 32
  | 0x0105 => n == 8 && b 0 < 16 && zeroAt p 1 3
  | 0x0200 => n == 16 && b 1 < 2 && zeroAt p 2 6 && keGood p 8
  | 0x0202 => n == 4
  | 0x0203 => 4 ≤ n && d 0 % 4 == 0
  | 0x0400 =>
    1 ≤ w 0 && w 0 ≤ 128 && zeroAt p 2 6 && keGood p 8
      && entriesGood p 16 52 (w 0) (fun e => byteAt e 2 < 2 && zeroAt e 3 1)
  | 0x0401 => n == 16 + 4 * w 4 && 1 ≤ w 4 && w 2 + w 4 ≤ 1024 && zeroAt p 6 2 && keGood p 8
  | 0x0402 =>
    1 ≤ w 0 && w 0 ≤ 512 && zeroAt p 2 6 && keGood p 8
      && entriesGood p 16 4 (w 0) (fun e => byteAt e 2 < 32 && zeroAt e 3 1)
  | 0x0403 => n == 16 + 4 * w 2 && 1 ≤ w 2 && w 0 + w 2 ≤ 1024 && zeroAt p 4 4 && keGood p 8
  | 0x0404 => 1 ≤ w 0 && w 0 ≤ 512 && zeroAt p 2 2 && entriesGood p 4 12 (w 0) (fun e => byteAt e 2 < 2 && zeroAt e 3 1)
  | 0x0500 => b 0 < 16 && zeroAt p 1 1 && zeroAt p 10 6 && keGood p 16 && n == 24 + 12 * (w 4 * w 8)
  | 0x0501 => b 0 < 16 && zeroAt p 1 1 && zeroAt p 10 6 && keGood p 16 && n == 24 + 12 * (w 4 * w 8)
  | 0x0502 =>
    n == 16 + 2 * w 4 && 1 ≤ w 4 && w 4 ≤ 512 && w 2 < 512 && w 0 * 512 + w 2 + w 4 ≤ 1024 * 512 && zeroAt p 6 2 && keGood p 8
  | 0x0600 => n == 48 && d 0 < 2 ^ 20 && 4 ≤ b 4 && b 4 ≤ 24 && (b 5 == 0 || (4 ≤ b 5 && b 5 ≤ 20)) && zeroAt p 6 2 && ctxGood p
  | 0x0601 => n == 48 && d 0 < 2 ^ 20 && zeroAt p 4 4 && ctxGood p
  | 0x0602 => n == 5 && d 0 < 2 ^ 20 && 1 ≤ b 4 && b 4 ≤ 3
  | 0x0603 => n == 4 && d 0 < 2 ^ 20
  | 0x0604 => n == 116 && b 0 < 2 && b 1 < 2 && zeroAt p 2 2 && (List.range 4).all (fun l => zeroAt p (10 + 28 * l) 2)
  | 0x0700 => n == 12 && b 0 < 16 && b 2 < 32 && zeroAt p 3 1
  | 0x0701 => n == 20 && b 0 < 16 && b 2 < 2 && zeroAt p 3 1 && w 4 < 2048 && zeroAt p 6 2 && d 8 < 2 ^ 24 && zeroAt p 18 2
  | 0x0702 => n == 2 && b 0 < 16
  | 0x0801 => n == 24 && b 0 ≤ 6 && zeroAt p 1 3
  | 0x0802 => n == 32
  | 0x0803 => n == 8 && zeroAt p 5 3
  | 0x0804 => n == 4
  | 0x0900 => n == 20 && b 0 ≤ 53 && zeroAt p 1 3
  | 0x0901 => n == 12 && b 0 ≤ 53 && zeroAt p 1 3
  | 0x0902 => n == 1 && b 0 ≤ 53
  | 0x0A00 => n == 8 && b 0 < 8 && zeroAt p 1 3
  | 0x0A01 => n == 1 && b 0 < 8
  | 0x0A02 => n == 1 && 1 ≤ b 0 && b 0 ≤ 64
  | 0x0B01 => n == 16 && b 0 < 2 && zeroAt p 1 7 && keGood p 8
  | 0x0B02 => n == 1 && b 0 ≤ 65
  | 0x0B03 => n == 1 && b 0 ≤ 127
  | 0x0C01 => n == 4 + 4 * b 0 && 1 ≤ b 0 && b 0 ≤ 32 && b 1 < 2 && zeroAt p 2 2
  | 0x0C02 => n == 20
  | 0x0C03 => n == 1 && b 0 < 2
  | _ => n == 0

/-! ### Opcodes -/

/-- The opcodes that a device takes (Tables EXY-6 to EXY-15). -/
def opKnown (op : Nat) : Bool :=
  op ≤ 0x0105 && 0x0100 ≤ op || op ≤ 0x0205 && 0x0200 ≤ op || op ≤ 0x030B && 0x0300 ≤ op || op ≤ 0x0404 && 0x0400 ≤ op
    || op ≤ 0x0502 && 0x0500 ≤ op || op ≤ 0x0604 && 0x0600 ≤ op || op ≤ 0x0702 && 0x0700 ≤ op || op ≤ 0x0804 && 0x0800 ≤ op
    || op ≤ 0x0902 && 0x0900 ≤ op || op ≤ 0x0A02 && 0x0A00 ≤ op || op ≤ 0x0B04 && 0x0B00 ≤ op || op ≤ 0x0C03 && 0x0C00 ≤ op

/-- The opcodes marked Q. -/
def opQuery (op : Nat) : Bool := [0x0100, 0x0101, 0x0201, 0x030B, 0x0603, 0x0702, 0x0800, 0x0902, 0x0B04, 0x0C00].contains op

/-- Executed by the primary alone (R399). -/
def opDeviceWide (op : Nat) : Bool := [0x0103, 0x0104, 0x0201, 0x0202, 0x0203, 0x0204, 0x0205, 0x0A00, 0x0A01, 0x0B00].contains op

/-- Executed in both halves (R399). -/
def opTiming (op : Nat) : Bool := 0x0800 ≤ op && op ≤ 0x0804

/-- Checked in both halves before either applies (R400). -/
def opPaired (op : Nat) : Bool := [0x0306, 0x0307, 0x0308, 0x0309, 0x030A, 0x0200].contains op

/-- Execute an opcode in half `i` for a frame that half `taker` received from `src`. -/
def State.opRun (s : State) (i : HalfId) (src : Src) (taker : HalfId) (op : Nat) (p : List Byte) : Res :=
  match op with
  | 0x0100 => s.opPing i
  | 0x0101 => s.opRegRead i p
  | 0x0102 => s.opRegWrite i src p
  | 0x0103 => s.opMgmtCfg i p
  | 0x0104 => s.opAuthKey i p
  | 0x0105 => s.opSnapshot i p
  | 0x0200 => s.opProfileSwitch i p
  | 0x0201 => s.opFlashInfo i
  | 0x0202 => s.opFlashBegin i p
  | 0x0203 => s.opFlashData i p
  | 0x0204 => s.opFlashCommit i
  | 0x0205 => s.opFlashAbort i
  | 0x0300 => s.opSchedBegin i src p
  | 0x0301 => s.opSchedInputs i src p
  | 0x0302 => s.opSchedVis i src p
  | 0x0303 => s.opSchedBeam i src p
  | 0x0304 => s.opSchedCapture i src p
  | 0x0305 => s.opSchedDrop i src p
  | 0x0306 => s.opSchedCommit i src p
  | 0x0307 => s.opSubTeardown i p
  | 0x0308 => s.opQuotaSet i p
  | 0x0309 => s.opReadmit i p
  | 0x030A => s.opFrameCfg i p
  | 0x030B => s.opSchedQuery i p
  | 0x0400 => s.opModelSet i p
  | 0x0401 => s.opGainSet i p
  | 0x0402 => s.opInputFlags i p
  | 0x0403 => s.opMaskSet i p
  | 0x0404 => s.opSkySet i p
  | 0x0500 => s.opBeam i true p
  | 0x0501 => s.opBeam i false p
  | 0x0502 => s.opBeamScale i p
  | 0x0600 => s.opRingCreate i p
  | 0x0601 => s.opRingSet i p
  | 0x0602 => s.opRingCmd i p
  | 0x0603 => s.opRingQuery i p
  | 0x0604 => s.opPortCfg i p
  | 0x0700 => s.opCapCmd i p
  | 0x0701 => s.opCapTrigcfg i p
  | 0x0702 => s.opCapQuery i p
  | 0x0800 => s.opTimeQuery i
  | 0x0801 => s.opRefCfg i p
  | 0x0802 => s.opTimeCtl i p
  | 0x0803 => s.opTimeSet i p
  | 0x0804 => s.opPtpCfg i p
  | 0x0900 => s.opLaneCfg i p
  | 0x0901 => s.opLaneTest i p
  | 0x0902 => s.opLaneQuery i p
  | 0x0A00 => s.opEvtSubscribe i src taker p
  | 0x0A01 => s.opEvtCancel i p
  | 0x0A02 => s.opErrRead i p
  | 0x0B00 => s.opHandover i
  | 0x0B01 => s.opHalfReset i p
  | 0x0B02 => s.opBayRepair i p
  | 0x0B03 => s.opPcFence i p
  | 0x0B04 => s.opHalfQuery i
  | 0x0C00 => s.opHkRead i
  | 0x0C01 => s.opHkSeq i p
  | 0x0C02 => s.opSupCfg i p
  | 0x0C03 => s.opHalfRestart p
  | _ => s.answer stBadOpcode

/-! ### Targets (R399, R400) -/

/-- What a frame gives: STATUS, the statuses of the halves, reply data, the machine after it. -/
structure FrameRes where
  st : Nat
  hn : Nat
  hs : Nat
  data : List Byte
  s : State
  deriving DecidableEq, Repr

/-- Half `i` takes a frame that half `taker` received. -/
def State.reaches (s : State) (taker i : HalfId) : Bool := i == taker || (s.board.bridgeUp && (s.half i).running)

/-- Checks 7 and 8 and execution in half `i`. -/
def State.runHalf (s : State) (i : HalfId) (src : Src) (taker : HalfId) (op : Nat) (p : List Byte) : Res :=
  if !s.reaches taker i then s.answer stHalfDown
  else if !(s.half i).opFormat op p then s.answer stBadLength
  else s.opRun i src taker op p

/-- In one half. -/
def State.runOne (s : State) (i : HalfId) (src : Src) (taker : HalfId) (op : Nat) (p : List Byte) : FrameRes :=
  let r := s.runHalf i src taker op p
  let (hn, hs) := only i r.st
  ⟨r.st, hn, hs, r.data, r.s⟩

/-- STATUS and data of a frame for both halves: the first status that is not good, north first. (DEDUCED, log 44) -/
def bothAnswer (rn rs : Res) (s : State) : FrameRes :=
  if !stGood rn.st then ⟨rn.st, rn.st, rs.st, rn.data, s⟩
  else if !stGood rs.st then ⟨rs.st, rn.st, rs.st, rs.data, s⟩
  else ⟨rn.st, rn.st, rs.st, rn.data, s⟩

/-- A refused paired opcode: nothing is applied, but a draft is closed in every outcome (Table EXY-8). -/
def State.closeDrafts (s : State) (src : Src) (op : Nat) (p : List Byte) : State :=
  if op = 0x0306 then
    let f (h : Half) : Half := match SMap.find? h.exy.drafts (byteAt p 0) with
      | some d => if d.ownedBy src then h.modExy (fun e => { e with drafts := SMap.erase e.drafts (byteAt p 0) }) else h
      | none => h
    (s.on .north f).on .south f
  else s

/-- In both halves: a paired opcode applies in both or in neither; with one half down the live one applies it alone. A profile switch
acts on the whole device at once. -/
def State.runBoth (s : State) (src : Src) (taker : HalfId) (op : Nat) (p : List Byte) : FrameRes :=
  if op = 0x0200 then
    let r := s.runHalf taker src taker op p
    ⟨r.st, r.st, r.st, r.data, r.s⟩
  else
    let rn := s.runHalf .north src taker op p
    let rs := rn.s.runHalf .south src taker op p
    let both := s.reaches taker .north && s.reaches taker .south
    let undo := opPaired op && both && !(stGood rn.st && stGood rs.st)
    let a := bothAnswer rn rs (if undo then s.closeDrafts src op p else rs.s)
    if opPaired op && !both then { a with st := stHalfDown } else a

/-- A frame that passed checks 1 to 6 in half `taker`. A half that is not RUNNING answers by its island alone (R398). (DEDUCED, log 44) -/
def State.runFrame (s : State) (taker : HalfId) (src : Src) (bs : List Byte) : FrameRes :=
  let op := frOpcode bs
  let p := frPayload bs
  let down : FrameRes := let (hn, hs) := only taker stHalfDown; ⟨stHalfDown, hn, hs, [], s⟩
  if !(s.half taker).running then
    let island (a : Nat) : Bool := windowOf a |> fun x => x.1 == taker && ((0x100000 ≤ x.2 && x.2 < 0x180000) || (0x1500000 ≤ x.2 && x.2 < 0x1600000))
    let last := fieldAt p 0 4 + 4 * (fieldAt p 4 2 - 1)
    if [0x0100, 0x0B04, 0x0C00, 0x0C03].contains op || ((op = 0x0101 || op = 0x0102) && island (fieldAt p 0 4) && island last) then
      s.runOne taker src taker op p
    else down
  else if opDeviceWide op then
    match s.primary? with
    | none => down
    | some i => s.runOne i src taker op p
  else if opTiming op || frTarget bs = 2 then s.runBoth src taker op p
  else match frTarget bs with
  | 0 => s.runOne .north src taker op p
  | 1 => s.runOne .south src taker op p
  | _ =>
    match s.primary? with
    | none => down
    | some i => s.runOne i src taker op p

/-! ### Receipt (R397, R401 to R405) -/

/-- Checks 2 to 5: the status of the first that fails. (DEDUCED, log 44) -/
def Half.frameFault (h : Half) (rx : Rx) (bs : List Byte) : Option Nat :=
  let op := frOpcode bs
  let udp := match rx with | .udp .. => true | _ => false
  if !crcGood bs then some stBadCrc
  else if byteAt bs 2 != 1 || !(byteAt bs 3 == 0 || byteAt bs 3 == 4) || 3 < byteAt bs 4 || !zeroAt bs 6 2 || !opKnown op then some stBadOpcode
  else if frTotal bs != bs.length || h.payloadLimit rx < frLength bs then some stBadLength
  else if udp && op = 0x0104 then some stAuthFail
  else match h.commandKey with
  | none => none
  | some k =>
    if frAuth bs then (if frTag bs == tagOf k (bs.take (16 + frLength bs)) then none else some stAuthFail)
    else if udp && !opQuery op then some stAuthFail
    else none

/-- The command channel is unavailable while a new primary takes up the device record (R339). -/
def State.channelBusy (s : State) : Bool := s.north.isl.takingUp || s.south.isl.takingUp

/-- A reply leaves, if the half can still send it. -/
def State.sendFrame (s : State) (i : HalfId) (rx : Rx) (bs : List Byte) : State :=
  let h := s.half i
  if h.running || (rx == .smbus && h.isl.powered) then s.on i (fun h => h.sendReply rx bs) else s

/-- A frame is executed; its reply goes out and is kept (R401, R402). (DEDUCED, log 45) -/
def State.execute (s : State) (i : HalfId) (rx : Rx) (src : Src) (bs : List Byte) : State :=
  let r := s.runFrame i src bs
  let data := if stGood r.st || (frOpcode bs = 0x0306 && r.st != stHalfDown) then r.data else []
  let reply := (s.half i).reply bs r.st r.hn r.hs data
  (r.s.on i (fun h => h.keepReply src (frSeq bs) reply)).sendFrame i rx reply

/-- A frame reaches Exylo of half `i`, or its island (R397, R398). -/
def State.receive (s : State) (i : HalfId) (rx : Rx) (bs : List Byte) (late : Bool := false) : State :=
  let h := s.half i
  let taken (replied : Bool) : State := s.on i (fun h => h.takeFrame rx replied)
  let refuse (st : Nat) : State := let (hn, hs) := only i st; (taken true).sendFrame i rx (h.reply bs st hn hs [])
  let src : Src := { srcOf rx bs with late := late }
  if !(h.running || (rx == .smbus && h.isl.powered)) then taken false
  else if bs.length < 20 || fieldAt bs 0 2 != 0x4558 then taken false
  else match h.frameFault rx bs with
  | some st => refuse st
  | none =>
    match h.seqRule src (frSeq bs) with
    | .noAuth => refuse stAuthFail
    | .discard => (taken false).on i (fun h => h.modExy (fun e => { e with seqDiscards := e.seqDiscards + 1 }))
    | .resend reply => ((taken true).on i (fun h => match h.session src with | some x => h.touchSession x | none => h)).sendFrame i rx reply
    | .execute => if s.channelBusy then refuse stBusy else (taken true).execute i rx src bs

/-- A frame with the opcode of a row, waiting at a transport of half `i`. -/
def State.command (s : State) (i : HalfId) (rx : Rx) (mine : List Byte → Bool) (late : Bool := false) : State :=
  match (s.half i).waitingFrame rx with
  | none => s
  | some bs => if mine bs then s.receive i rx bs late else s

/-- The frame names opcode `op`. -/
def State.opcode (s : State) (op : Nat) (i : HalfId) (rx : Rx) : Host.Outcome State Fault Refusal :=
  done (s.command i rx (fun bs => frOpcode bs == op))

/-- RING_CMD with one OP. -/
def State.ringOp (s : State) (k : Nat) (i : HalfId) (rx : Rx) : Host.Outcome State Fault Refusal :=
  done (s.command i rx (fun bs => frOpcode bs == 0x0602 && byteAt (frPayload bs) 4 == k))

/-- UNKNOWN_OPCODE (R397): a frame that is no command of another row: unknown opcode, or RING_CMD with an OP it does not have. -/
def execUnknownOpcode (i : HalfId) (rx : Rx) (s : State) : Host.Outcome State Fault Refusal :=
  done (s.command i rx (fun bs =>
    !opKnown (frOpcode bs) || (frOpcode bs == 0x0602 && !(1 ≤ byteAt (frPayload bs) 4 && byteAt (frPayload bs) 4 ≤ 3))))

/-! ### One meaning for each opcode -/

def execPing (i : HalfId) (rx : Rx) (s : State) : Host.Outcome State Fault Refusal := s.opcode 0x0100 i rx
def execRegRead (i : HalfId) (rx : Rx) (s : State) : Host.Outcome State Fault Refusal := s.opcode 0x0101 i rx
def execRegWrite (i : HalfId) (rx : TimedRx) (s : State) : Host.Outcome State Fault Refusal :=
  done (s.command i rx.rx (fun bs => frOpcode bs == 0x0102) rx.inWindow)
def execMgmtCfg (i : HalfId) (rx : Rx) (s : State) : Host.Outcome State Fault Refusal := s.opcode 0x0103 i rx
def execAuthKey (i : HalfId) (rx : Rx) (s : State) : Host.Outcome State Fault Refusal := s.opcode 0x0104 i rx
def execSnapshot (i : HalfId) (rx : Rx) (s : State) : Host.Outcome State Fault Refusal := s.opcode 0x0105 i rx
def execProfileSwitch (i : HalfId) (rx : Rx) (s : State) : Host.Outcome State Fault Refusal := s.opcode 0x0200 i rx
def execFlashInfo (i : HalfId) (rx : Rx) (s : State) : Host.Outcome State Fault Refusal := s.opcode 0x0201 i rx
def execFlashBegin (i : HalfId) (rx : Rx) (s : State) : Host.Outcome State Fault Refusal := s.opcode 0x0202 i rx
def execFlashData (i : HalfId) (rx : Rx) (s : State) : Host.Outcome State Fault Refusal := s.opcode 0x0203 i rx
def execFlashCommit (i : HalfId) (rx : Rx) (s : State) : Host.Outcome State Fault Refusal := s.opcode 0x0204 i rx
def execFlashAbort (i : HalfId) (rx : Rx) (s : State) : Host.Outcome State Fault Refusal := s.opcode 0x0205 i rx
def execSchedBegin (i : HalfId) (rx : Rx) (s : State) : Host.Outcome State Fault Refusal := s.opcode 0x0300 i rx
def execSchedInputs (i : HalfId) (rx : Rx) (s : State) : Host.Outcome State Fault Refusal := s.opcode 0x0301 i rx
def execSchedVis (i : HalfId) (rx : Rx) (s : State) : Host.Outcome State Fault Refusal := s.opcode 0x0302 i rx
def execSchedBeam (i : HalfId) (rx : Rx) (s : State) : Host.Outcome State Fault Refusal := s.opcode 0x0303 i rx
def execSchedCapture (i : HalfId) (rx : Rx) (s : State) : Host.Outcome State Fault Refusal := s.opcode 0x0304 i rx
def execSchedDrop (i : HalfId) (rx : Rx) (s : State) : Host.Outcome State Fault Refusal := s.opcode 0x0305 i rx
def execSchedCommit (i : HalfId) (rx : Rx) (s : State) : Host.Outcome State Fault Refusal := s.opcode 0x0306 i rx
def execSubTeardown (i : HalfId) (rx : Rx) (s : State) : Host.Outcome State Fault Refusal := s.opcode 0x0307 i rx
def execQuotaSet (i : HalfId) (rx : Rx) (s : State) : Host.Outcome State Fault Refusal := s.opcode 0x0308 i rx
def execReadmit (i : HalfId) (rx : Rx) (s : State) : Host.Outcome State Fault Refusal := s.opcode 0x0309 i rx
def execFrameCfg (i : HalfId) (rx : Rx) (s : State) : Host.Outcome State Fault Refusal := s.opcode 0x030A i rx
def execSchedQuery (i : HalfId) (rx : Rx) (s : State) : Host.Outcome State Fault Refusal := s.opcode 0x030B i rx
def execModelSet (i : HalfId) (rx : Rx) (s : State) : Host.Outcome State Fault Refusal := s.opcode 0x0400 i rx
def execGainSet (i : HalfId) (rx : Rx) (s : State) : Host.Outcome State Fault Refusal := s.opcode 0x0401 i rx
def execInputFlags (i : HalfId) (rx : Rx) (s : State) : Host.Outcome State Fault Refusal := s.opcode 0x0402 i rx
def execMaskSet (i : HalfId) (rx : Rx) (s : State) : Host.Outcome State Fault Refusal := s.opcode 0x0403 i rx
def execSkySet (i : HalfId) (rx : Rx) (s : State) : Host.Outcome State Fault Refusal := s.opcode 0x0404 i rx
def execBeamDelays (i : HalfId) (rx : Rx) (s : State) : Host.Outcome State Fault Refusal := s.opcode 0x0500 i rx
def execBeamRaw (i : HalfId) (rx : Rx) (s : State) : Host.Outcome State Fault Refusal := s.opcode 0x0501 i rx
def execBeamScale (i : HalfId) (rx : Rx) (s : State) : Host.Outcome State Fault Refusal := s.opcode 0x0502 i rx
def execRingCreate (i : HalfId) (rx : Rx) (s : State) : Host.Outcome State Fault Refusal := s.opcode 0x0600 i rx
def execRingSet (i : HalfId) (rx : Rx) (s : State) : Host.Outcome State Fault Refusal := s.opcode 0x0601 i rx
def execRingQuery (i : HalfId) (rx : Rx) (s : State) : Host.Outcome State Fault Refusal := s.opcode 0x0603 i rx
def execPortCfg (i : HalfId) (rx : Rx) (s : State) : Host.Outcome State Fault Refusal := s.opcode 0x0604 i rx
def execCapCmd (i : HalfId) (rx : Rx) (s : State) : Host.Outcome State Fault Refusal := s.opcode 0x0700 i rx
def execCapTrigcfg (i : HalfId) (rx : Rx) (s : State) : Host.Outcome State Fault Refusal := s.opcode 0x0701 i rx
def execCapQuery (i : HalfId) (rx : Rx) (s : State) : Host.Outcome State Fault Refusal := s.opcode 0x0702 i rx
def execTimeQuery (i : HalfId) (rx : Rx) (s : State) : Host.Outcome State Fault Refusal := s.opcode 0x0800 i rx
def execRefCfg (i : HalfId) (rx : Rx) (s : State) : Host.Outcome State Fault Refusal := s.opcode 0x0801 i rx
def execTimeCtl (i : HalfId) (rx : Rx) (s : State) : Host.Outcome State Fault Refusal := s.opcode 0x0802 i rx
def execTimeSet (i : HalfId) (rx : Rx) (s : State) : Host.Outcome State Fault Refusal := s.opcode 0x0803 i rx
def execPtpCfg (i : HalfId) (rx : Rx) (s : State) : Host.Outcome State Fault Refusal := s.opcode 0x0804 i rx
def execLaneCfg (i : HalfId) (rx : Rx) (s : State) : Host.Outcome State Fault Refusal := s.opcode 0x0900 i rx
def execLaneTest (i : HalfId) (rx : Rx) (s : State) : Host.Outcome State Fault Refusal := s.opcode 0x0901 i rx
def execLaneQuery (i : HalfId) (rx : Rx) (s : State) : Host.Outcome State Fault Refusal := s.opcode 0x0902 i rx
def execEvtSubscribe (i : HalfId) (rx : Rx) (s : State) : Host.Outcome State Fault Refusal := s.opcode 0x0A00 i rx
def execEvtCancel (i : HalfId) (rx : Rx) (s : State) : Host.Outcome State Fault Refusal := s.opcode 0x0A01 i rx
def execErrRead (i : HalfId) (rx : Rx) (s : State) : Host.Outcome State Fault Refusal := s.opcode 0x0A02 i rx
def execHandover (i : HalfId) (rx : Rx) (s : State) : Host.Outcome State Fault Refusal := s.opcode 0x0B00 i rx
def execHalfReset (i : HalfId) (rx : Rx) (s : State) : Host.Outcome State Fault Refusal := s.opcode 0x0B01 i rx
def execBayRepair (i : HalfId) (rx : Rx) (s : State) : Host.Outcome State Fault Refusal := s.opcode 0x0B02 i rx
def execPcFence (i : HalfId) (rx : Rx) (s : State) : Host.Outcome State Fault Refusal := s.opcode 0x0B03 i rx
def execHalfQuery (i : HalfId) (rx : Rx) (s : State) : Host.Outcome State Fault Refusal := s.opcode 0x0B04 i rx
def execHkRead (i : HalfId) (rx : Rx) (s : State) : Host.Outcome State Fault Refusal := s.opcode 0x0C00 i rx
def execHkSeq (i : HalfId) (rx : Rx) (s : State) : Host.Outcome State Fault Refusal := s.opcode 0x0C01 i rx
def execSupCfg (i : HalfId) (rx : Rx) (s : State) : Host.Outcome State Fault Refusal := s.opcode 0x0C02 i rx
def execHalfRestart (i : HalfId) (rx : Rx) (s : State) : Host.Outcome State Fault Refusal := s.opcode 0x0C03 i rx
def execRingCmdStop (i : HalfId) (rx : Rx) (s : State) : Host.Outcome State Fault Refusal := s.ringOp 1 i rx
def execRingCmdStart (i : HalfId) (rx : Rx) (s : State) : Host.Outcome State Fault Refusal := s.ringOp 2 i rx
def execRingCmdDestroy (i : HalfId) (rx : Rx) (s : State) : Host.Outcome State Fault Refusal := s.ringOp 3 i rx

end Sys2Proof.Machine
end

