-- ==== Sys2Proof/Machine/Boot.lean ====
section
/-! DEFINITION. Start-up, replay, profile switches, rejoining (20_startup_profiles.md, R342), hold (R369), and the lease commands that
may end a start-up or pass on an update. -/

namespace Sys2Proof.Machine

def Half.bootStep (h : Half) : Nat := h.fget NVM_BOOT_STAGE

/-- The half is in step `n` of Table STA-1. -/
def Half.inStep (h : Half) (n : Nat) : Bool := h.own == 1 && h.bootStep == n

/-! ### Steps 3 to 6 -/

/-- PLL_LOCK (R380, step 3). -/
def execPllLock (i : HalfId) (s : State) : Host.Outcome State Fault Refusal :=
  done (s.onMain i (fun h => if h.inStep 3 then h.fset NVM_BOOT_STAGE 4 else h))

/-- PLL_LOCK_TIMEOUT (R380): DEV_PLL_FAIL takes the half DOWN. -/
def execPllLockTimeout (i : HalfId) (s : State) : Host.Outcome State Fault Refusal :=
  done (s.onMain i (fun h => if h.inStep 3 then h.logFatal errDEV_PLL_FAIL 6 else h))

/-- The sources that Exylo enables (R410). -/
def exyloSource (n : Nat) : Bool := !sourceReserved n && !(512 ≤ n && n ≤ 703) && n / 32 != 29

/-- Exylo starts: its sources enabled, their groups routed to targets 0 to 3 (R410). (DEDUCED, log 39) -/
def Half.routeEvents (h : Half) : Half :=
  let word (w : Nat) : Nat := bitmap ((List.range 32).filter (fun j => exyloSource (32 * w + j)))
  let h := h.fold (List.range 30) (fun h w => h.putN EVC_ENABLE (word w) w)
  let groups := bitmap ((List.range 30).filter (fun w => word w != 0))
  h.fold (List.range 4) (fun h t => h.putN EVC_TGT_0 groups t)

/-- Good bays in ascending order take the logical indexes, the rest are spares; failed ones are FAILED (Table ARC-8). (DEDUCED, log 39) -/
def Half.assignBays (h : Half) (failed : List Nat) : Half :=
  let good := bays.filter (fun p => !failed.contains p)
  let h := h.fold (bays.filter failed.contains) Half.failBay
  h.fold good.zipIdx (fun h e =>
    if e.2 < 64 then (h.fset ARC_BAY_STAT_STATE bayActive e.1).fset ARC_BAY_STAT_LOGICAL e.2 e.1
    else (h.fset ARC_BAY_STAT_STATE baySpare e.1).fset ARC_BAY_STAT_LOGICAL 0xFF e.1)

/-- SELF_TEST_DONE (R380, step 4). -/
def execSelfTestDone (i : HalfId) (ok : Bool) (failed : List Nat) (s : State) : Host.Outcome State Fault Refusal :=
  done (s.onMain i (fun h =>
    if !h.inStep 4 then h
    else if !ok then h.logFatal errDEV_SELFTEST_FAIL 6
    else (((h.assignBays failed).arcStat).routeEvents).fset NVM_BOOT_STAGE 5))

/-- HBM_TRAINING_DONE (R290): step 5 ends, and every lane is brought up at its reset mode (step 6). -/
def execHbmTrainingDone (i : HalfId) (failed : List Nat) (s : State) : Host.Outcome State Fault Refusal :=
  done (s.peerWatch (s.onMain i (fun h =>
    let h := h.trained failed
    if h.inStep 5 then (h.fold (List.range 54) Half.laneEnable).fset NVM_BOOT_STAGE 6 else h)))

/-! ### Step 7 -/

/-- What a slot holds: its image where valid, and the code of the check it fails. -/
def slotRead (room : Nat) (bs : List Byte) : Option (List Byte) × Option Nat :=
  match imgFault room bs with
  | some code => (none, some code)
  | none => (some (bs.take (imgLen bs)), none)

/-- FLASH_IMAGE_READ_DONE (R382, R383, R386): what the port's device holds, slot by slot as far as it is read. -/
def execFlashImageReadDone (i : HalfId) (present : Bool) (room : Nat) (a b : List Byte) (s : State) : Host.Outcome State Fault Refusal :=
  let h := s.half i
  done (if !((h.inStep 6 || h.inStep 7) && h.exy.port.slots.isEmpty) then s
    else
      let s := s.on i (fun h =>
        let h := h.fset NVM_BOOT_STAGE 7
        if !present then (h.modExy (fun e => { e with port := ⟨false, 0, [none, none]⟩ })).log errNVM_ABSENT
        else
          let ra := slotRead room a
          let rb := slotRead room b
          let tell (h : Half) (r : Option (List Byte) × Option Nat) : Half := match r.2 with | some code => h.log code | none => h
          tell (tell (h.modExy (fun e => { e with port := ⟨true, room, [ra.1, rb.1]⟩ })) ra) rb)
      (s.showPorts.flashIssue .north).flashIssue .south)

/-- The image that half `i` boots (R387): none yet while the other half's port is unread; a half that comes back beside a running
primary takes the primary's. (DEDUCED, log 39; DEDUCED, log 40) -/
def State.bootChoice (s : State) (i : HalfId) : Option (Option (Nat × Nat × List Byte)) :=
  let h := s.half i
  let o := s.half i.other
  if h.exy.port.slots.isEmpty then none
  else if !(s.board.bridgeUp && o.mainUp) then some (h.exy.port.best.map (fun b => (portOf i, b)))
  else if o.running && o.isPrimary then
    match o.exy.image with
    | some im => some (some (o.fget NVM_STAT_BOOTPORT, o.fget NVM_STAT_BOOTSLOT, im))
    | none => some (s.bestImage i)
  else if o.exy.port.slots.isEmpty then none
  else some (s.bestImage i)

/-- IMAGE_CHOICE (R387): the image is chosen, and calibration of step 8 begins. A bare start takes up the device record afresh (R412). -/
def execImageChoice (i : HalfId) (s : State) : Host.Outcome State Fault Refusal :=
  done (if !(s.half i).inStep 7 then s
    else match s.bootChoice i with
    | none => s
    | some c =>
      let fresh := c.isNone && !(s.half i.other).running
      (s.on i (fun h =>
        let h := h.chooseImage c
        let h := if fresh then h.putN LSE_DREC 0 else h
        (h.fset NVM_BOOT_STAGE 8).hkaCal)).showSplit)

/-! ### Replay (R388 to R390) -/

/-- The frames of a profile section, each padded to a multiple of 4. -/
def sectionFrames : Nat → List Byte → List (List Byte)
  | 0, _ => []
  | _ + 1, [] => []
  | k + 1, bs =>
    let n := if bs.length < 16 then bs.length else min bs.length (frTotal bs)
    bs.take n :: sectionFrames k (bs.drop (cdiv n 4 * 4))

/-- Opcodes whose effect names a frame index (R389), and where their K_E stands. (DEDUCED, log 42) -/
def opHeld (op : Nat) : Bool := [0x0200, 0x0306, 0x0307, 0x0400, 0x0401, 0x0402, 0x0403, 0x0500, 0x0501, 0x0502, 0x0B01].contains op
def keOffset (op : Nat) : Nat := if op = 0x0500 || op = 0x0501 then 16 else 8

/-- A payload with the start frame in place of a K_E of 0. -/
def withStart (op : Nat) (p : List Byte) (ks : Nat) : List Byte :=
  let o := keOffset op
  if opHeld op && o + 8 ≤ p.length && fieldAt p o 8 = 0 then p.take o ++ leBytes 8 ks ++ p.drop (o + 8) else p

/-- Half `h` executes a frame of its profile: its own, both halves', the primary's, and timing frames in either half. -/
def Half.replays (h : Half) (bs : List Byte) : Bool :=
  if opTiming (frOpcode bs) then true
  else if opDeviceWide (frOpcode bs) then h.isPrimary
  else match frTarget bs with
  | 0 => h.id == .north
  | 1 => h.id == .south
  | 2 => true
  | _ => h.isPrimary

/-- Checks 1 to 4 of a recorded frame. -/
def recordedFault (bs : List Byte) : Option Nat :=
  if bs.length < 20 || fieldAt bs 0 2 != 0x4558 then some stBadOpcode
  else if !crcGood bs then some stBadCrc
  else if byteAt bs 2 != 1 || !(byteAt bs 3 == 0 || byteAt bs 3 == 4) || 3 < byteAt bs 4 || !zeroAt bs 6 2 || !opKnown (frOpcode bs) then some stBadOpcode
  else if frTotal bs != bs.length then some stBadLength
  else none

/-- The profile that the half replays writes CHN_SK_THR. -/
def Half.profileSetsThr (h : Half) : Bool :=
  match h.exy.image with
  | none => false
  | some im =>
    let sec := imgSection im (h.fget NVM_STAT_PROF)
    (sectionFrames sec.length sec).any (fun bs => frOpcode bs == 0x0102 && (regWriteAddrs (frPayload bs)).any (namesReg CHN_SK_THR))

/-- Replay frame `bs` in half `i`: its status, or none where it is not executed. (DEDUCED, log 42) -/
def State.replayFrame (s : State) (i : HalfId) (bs : List Byte) : Option Nat × State :=
  let h := s.half i
  match recordedFault bs with
  | some st => (some st, s)
  | none =>
    if !h.replays bs then (none, s)
    else
      let src : Src := ⟨3, [], [], 0, frSession bs, true, false, frOpcode bs == 0x0102 && h.profileSetsThr⟩
      match h.seqRule src (frSeq bs) with
      | .resend _ => (none, s)
      | .discard => (none, s.on i (fun h => h.modExy (fun e => { e with seqDiscards := e.seqDiscards + 1 })))
      | _ =>
        let p := match h.exy.startFrame with | some ks => withStart (frOpcode bs) (frPayload bs) ks | none => frPayload bs
        let r := s.runHalf i src i (frOpcode bs) p
        (some r.st, r.s.on i (fun h => h.keepReply src (frSeq bs) []))

/-- The start frame (R389). (DEDUCED, log 42) -/
def Half.startFrameNow (h : Half) : Nat := let a := 2 ^ h.exy.replayAlign; cdiv (h.frame + 2) a * a

/-- Replay what is left of the profile, up to `k` frames: to its end, to a held frame while TIME_VALID is 0, or to a failure. -/
def State.replay : Nat → State → HalfId → State
  | 0, s, _ => s
  | k + 1, s, i =>
    let h := s.half i
    match h.exy.replayLeft with
    | [] => s.on i (fun h => h.fset NVM_STAT_REPLAY 3)
    | bs :: rest =>
      let held := (recordedFault bs).isNone && opHeld (frOpcode bs) && h.replays bs && h.exy.startFrame.isNone
      if held && !h.flag TMG_STAT_TIME_VALID then s.on i (fun h => h.fset NVM_STAT_REPLAY 2)
      else
        let s := if held then s.on i (fun h => h.modExy (fun e => { e with startFrame := some h.startFrameNow })) else s
        let (st, s) := s.replayFrame i bs
        let s := s.on i (fun h => h.modExy (fun e => { e with replayLeft := rest, replayIdx := e.replayIdx + 1 }))
        match st with
        | none => State.replay k s i
        | some st =>
          let s := s.on i (fun g => (g.fset NVM_REPLAY_STATUS st).fset NVM_REPLAY_FRAME h.exy.replayIdx)
          if stGood st then State.replay k s i
          else s.on i (fun h => ((h.modExy (fun e => { e with replayLeft := [] })).fset NVM_STAT_REPLAY 4).log errNVM_REPLAY_FAIL)

/-- Take up profile `n` of the chosen image (R388). -/
def Half.loadProfile (h : Half) (n : Nat) : Half :=
  match h.exy.image with
  | none => h.fset NVM_STAT_REPLAY 0
  | some im =>
    let absent := imgProfs im ≤ n
    let j := if absent then 0 else n
    let sec := imgSection im j
    let h := h.modExy (fun e => { e with replayLeft := sectionFrames sec.length sec, replayIdx := 0, replayAlign := imgAlign im j, startFrame := none })
    let h := ((h.fset NVM_STAT_PROF j).fset NVM_STAT_REPLAY 1).putN NVM_REPLAY 0
    if absent then h.log errNVM_PROFILE_ABSENT else h

/-- Replay a profile from its start. -/
def State.replayProfile (s : State) (i : HalfId) (n : Nat) : State :=
  let s := s.on i (fun h => h.loadProfile n)
  if (s.half i).exy.image.isSome then State.replay ((s.half i).exy.replayLeft.length + 1) s i else s

/-- The steps after device-ready: 10 until TIME_VALID, 11 while frames are held, then 12 (Table STA-8). (DEDUCED, log 39) -/
def Half.showStage (h : Half) : Half :=
  if !h.running || h.bootStep < 9 then h
  else h.fset NVM_BOOT_STAGE (if !h.flag TMG_STAT_TIME_VALID then 10 else if h.fget NVM_STAT_REPLAY = 2 then 11 else 12)

/-! ### Hold (R369, R371) -/

/-- A warning puts a RUNNING half into HOLD: passes, blocks not closed and blocks not yet folded are dropped, and the products that
hold a frame from k − Δ on will carry the incomplete flag. (DEDUCED, log 37) -/
def Half.enterHold (h : Half) : Half :=
  if !h.running || h.fget SUP_STAT_MAIN != 2 then h
  else
    let h := h.setMain 3
    let h := h.dropRun.2
    let h := h.fold h.lta.blocks (fun h b => h.dropBlock b 2)
    let k := h.frame
    (h.modLta (fun x => { x with markInc := (List.range (h.delta + 1)).map (k - ·) ++ x.markInc })).arcStat

/-- PFW_N as the islands see it; a change raises source 3. -/
def State.setPfw (s : State) (low : Bool) : State :=
  let f (h : Half) : Half := if h.flag SUP_STAT_PFW == low then h else (h.fset SUP_STAT_PFW (b2n low)).raise 3
  (({ s with board := { s.board with pfwN := !low } }).onIsland .north f).onIsland .south f

/-- PFW_WARNING (R369). -/
def execPfwWarning (s : State) : Host.Outcome State Fault Refusal :=
  done (((s.setPfw true).onMain .north Half.enterHold).onMain .south Half.enterHold)

/-- PFW_N_RISE (R369). -/
def execPfwNRise (s : State) : Host.Outcome State Fault Refusal := done (s.setPfw false)

/-- The half resumes at the tick that opens its current frame (R369): the spectra that ended in HOLD are missing. (DEDUCED, log 13; DEDUCED, log 37) -/
def Half.leaveHold (h : Half) : Half :=
  if !h.inHold then h
  else
    let n := h.frame * h.fspec - 1
    let late (e : Nat × Inp) : Nat × Inp := (e.1, { e.2 with last := e.2.last.map (fun l => max l n) })
    let h : Half := { h with front := { h.front with inputs := h.front.inputs.map late } }
    (h.setMain 2).arcSettle

/-! ### Device-ready and rejoining (R342, R380) -/

/-- The registers whose bit 0 is the RUN bit of a block that a profile switch stops (R391). -/
def runRegs : List RegDef := [ING_CTL, CHN_CTL, DLY_CTL, XCH_CTL, ARC_CTL, LTA_CTL, BMF_CTL, CAP_CTL, TRW_CTL, OUT_CTL]

/-- Device-ready: the half is RUNNING; Exylo has laid its regions; the time from start is a free value. -/
def State.deviceReady (s : State) (i : HalfId) : State :=
  if (s.half i).own != 1 then s
  else
    let (ms, s) := s.free
    let low := !s.board.pfwN
    s.on i (fun h =>
      let h := (((h.fset LSE_STAT_OWN 2).fset NVM_BOOT_MS (ms % 65536)).fset NVM_BOOT_STAGE 10).ensureLaid
      if low then h.showStage.enterHold else h.showStage)

/-- Write back the words of the registers that software writes, as the half had them: all but the RUN bits first. (DEDUCED, log 43) -/
def State.restoreRegs (s : State) (i : HalfId) (regs : SMap Word) : State :=
  let words := regs.filterMap (fun e => (findReg e.1).bind (fun r =>
    let m := fieldMask r.1 (fun f => f.acc == .rw)
    if m = 0 || (0x10000 ≤ e.1 && e.1 < 0x20000) then none else some (r, e.1, e.2.toNat &&& m)))
  let off (r : RegDef) (w : Nat) : Nat := if runRegs.contains r || r == LAN_CFG then w / 2 * 2 else w
  let put (s : State) (x : (RegDef × Nat) × Nat × Nat) : State :=
    if x.1.1 == LAN_CFG && (s.half i).getN LAN_CFG x.1.2 &&& fieldMask LAN_CFG (fun f => f.acc == .rw) = x.2.2 then s
    else
      let s := if x.1.1 == LAN_CFG then s.writeWords i [(x.2.1, (s.half i).getN LAN_CFG x.1.2 / 2 * 2)] else s
      let s := s.writeWords i [(x.2.1, off x.1.1 x.2.2)]
      if x.1.1 == LAN_CFG then s.writeWords i [(x.2.1, x.2.2)] else s
  let s := words.foldl put s
  s.writeWords i ((words.filter (fun x => runRegs.contains x.1.1)).map (fun x => x.2))

/-- The schedule of a half that comes back, from what the other half kept of it: its rings, and its subarrays from frame `k` on. (DEDUCED, log 43) -/
def Half.takeShare (h : Half) (x : Share) (k : Nat) : Half :=
  let h := h.modExy (fun e => { e with sky := x.sky, rejoinAt := some k, rings := x.rings.map (fun (r : RingRec) => { r with grow := none }) })
  let h := h.fold x.rings (fun h (r : RingRec) =>
    h.newCtx r.ring (leBytes 8 r.base ++ r.conf ++ leBytes 8 r.base ++ leBytes 1 r.rcode ++ leBytes 1 r.ccode ++ leBytes 6 0 ++ leBytes 8 r.cbase
      ++ leBytes 24 0))
  let h := h.fold x.subs (fun h e =>
    match e.2.latest with
    | none => h
    | some y =>
      match h.placeProds e.1 k (e.2.unshed y), h.placeImages e.1 y.imageBytes with
      | some ps, some im => h.modExy (fun z =>
          { z with subs := SMap.insert z.subs e.1 { e.2 with vers := [(k, some y)] }
                   places := z.places ++ ps
                   images := SMap.insert z.images e.1 im })
      | _, _ => h)
  h.showUses

/-- A restarted half takes the device record and its schedule from the running half, to start again two frames on (R342). (DEDUCED, log 43) -/
def State.rejoin (s : State) (i : HalfId) : State :=
  let o := s.half i.other
  if !(o.running && s.board.bridgeUp) then s
  else
    let s := if o.isPrimary then s.on i (fun h => h.fold (List.range 64) (fun h w => h.put LSE_DREC (o.get LSE_DREC w) w)) else s
    match o.exy.peer with
    | none => s
    | some x =>
      let s := s.restoreRegs i x.regs
      let s := s.on i (fun h => h.takeShare x (o.frame + 2))
      s.on i.other (fun h => h.modExy (fun e => { e with peer := none }))

/-- A half holds a role, and some half is primary (R334, R380). -/
def Half.roleHeld (h : Half) : Bool := h.isPrimary || (h.fget LSE_STAT_ROLE == 1 && h.isl.heardPrimary)

/-- Steps 9 on, once step 8 has ended and a role is held. -/
def State.goOn (s : State) (i : HalfId) : State :=
  let h := s.half i
  if !h.inStep 8 || h.calibrating || !h.roleHeld then s
  else
    let s := s.on i (fun h => h.fset NVM_BOOT_STAGE 9)
    let s := if h.isl.rejoin then s.rejoin i else s.replayProfile i (h.fget NVM_STAT_PSEL)
    s.deviceReady i

/-- HKA_CAL_END (R375). -/
def execHkaCalEnd (i : HalfId) (ground reference : List Nat) (s : State) : Host.Outcome State Fault Refusal :=
  done (if !((s.half i).isl.powered && (s.half i).calibrating) then s
    else
      let n := s.freeCtr
      (State.onIsland { s with freeCtr := n + 4 } i (fun h => h.hkaCalEnd ground reference (fun c => Config.freeValue (n + c)))).goOn i)

/-- HELD_FRAME_RESUME (R389): TIME_VALID is set. -/
def execHeldFrameResume (i : HalfId) (s : State) : Host.Outcome State Fault Refusal :=
  let h := s.half i
  done (if !(h.mainUp && h.fget NVM_STAT_REPLAY == 2 && h.flag TMG_STAT_TIME_VALID) then s
    else
      let s := s.on i (fun h => (h.showStage.fset NVM_STAT_REPLAY 1).modExy (fun e => { e with startFrame := some h.startFrameNow }))
      (State.replay (h.exy.replayLeft.length + 1) s i).on i Half.showStage)

/-! ### Profile switches (R391) -/

/-- At tick k_e every subarray is torn down and the drain begins. (DEDUCED, log 42) -/
def Half.switchTick (h : Half) (k : Nat) : Half :=
  match h.exy.switchTo with
  | none => h
  | some (_, ke) =>
    if k < ke || h.exy.draining then h
    else h.modExy (fun e =>
      { e with draining := true
               subs := e.subs.map (fun (n, y) => if y.latest.isNone then (n, y) else
                 (n, { y with vers := (ke, none) :: y.vers.filter (fun v => v.1 < ke), next := none, readmit := [] })) })

/-- Nothing of a subarray is left, nothing waits in the outbound buffer, and every hardware producer's ring is empty. -/
def Half.switchDrained (h : Half) : Bool :=
  h.exy.subs.isEmpty && h.trw.outHeld.isEmpty
    && (h.exy.rings.filter (fun (x : RingRec) => ctxOwner (h.ctx x.ring))).all (fun x => h.ringEmpty x.ring)

/-- What is still queued is dropped and counted in its ring's DROP (R391). -/
def Half.dropQueued (h : Half) : Half :=
  let h := h.fold (h.exy.rings.filter (fun (x : RingRec) => ctxOwner (h.ctx x.ring) && !h.ringEmpty x.ring)) (fun h (x : RingRec) =>
    let h := (h.ctxLoad x.ring).setEng x.ring (fun e => { e with held := none })
    let c := h.ctx x.ring
    let n := (ctxPidx c + 2 ^ 32 - ctxDidx c) % 2 ^ 32
    let c := setPos (putField (putField c 76 4 (ctxPidx c)) 92 4 (min (2 ^ 32 - 1) (fieldAt c 92 4 + n))) (descSlot c (ctxPidx c)) 0
    let h := h.setCtx x.ring (if ctxState c = ringStopped then c else setState c ringIdle)
    h.logRing errTRW_RING_FULL x.ring)
  ({ h with trw := { h.trw with outHeld := [], outDue := [], outTag := [] } } : Half).countOut

/-- The RUN bits of every block but the timing unit, the lanes, HBM and the island are cleared. (DEDUCED, log 42) -/
def State.stopBlocks (s : State) (i : HalfId) : State :=
  s.writeWords i (runRegs.map (fun r => (r.at 0, (s.half i).getN r &&& (fieldMask r (fun f => f.acc == .rw)) / 2 * 2)))

/-- DRAIN_DONE (R391): drained, or DRAIN_MAX has passed. -/
def execDrainDone (i : HalfId) (timeout : Bool) (s : State) : Host.Outcome State Fault Refusal :=
  let h := s.half i
  done (match h.exy.switchTo with
    | none => s
    | some (n, _) =>
      if !(h.running && h.exy.draining && (timeout || h.switchDrained)) then s
      else
        let s := s.on i (fun h => h.dropQueued.modExy (fun e => { e with subs := [], places := [], images := [] }))
        let s := s.stopBlocks i
        let s := s.on i (fun h => ((h.fset DEV_SUBARR_ACT_ACTIVE 0).modExy (fun e => { e with switchTo := none, draining := false })).showUses)
        (s.replayProfile i n).on i Half.showStage)

/-! ### RESET_N (R380, R381, R432) -/

/-- RESET_N is low: the main domain is in reset, no role is held and nothing driven. -/
def Half.deviceReset (h : Half) : Half :=
  if !h.isl.powered then h
  else
    let h := if h.mainUp then h.resetMain else h
    let h := ((h.fset LSE_STAT_OWN 0).fset LSE_STAT_DRIVE 0).setRole 0
    (h.modIsl (fun x => { x with
      guard := false, copyFresh := false, imageOk := false, takingUp := false, seq := .idle, boWait := false, downThen := 0 })).setMain 0

/-- RESET_N_LOW. -/
def execResetNLow (s : State) : Host.Outcome State Fault Refusal :=
  done (((({ s with board := { s.board with resetN := false } }).onIsland .north Half.deviceReset).onIsland .south Half.deviceReset).bridgeFall)

/-- The half at a rising edge of RESET_N: the selector is sampled and the main domain starts; a thermal trip still holds it (R377). (DEDUCED, log 38) -/
def Half.resetRise (h : Half) (sel : Nat) : Half :=
  let h := h.fset NVM_STAT_PSEL sel
  let h := h.modIsl (fun x => { x with fatalF := false, rejoin := false, retries := h.fget SUP_BO_SEQ_RETRY })
  if h.isl.tripped then h else h.startMain

/-- RESET_N_RISE. -/
def execResetNRise (sel : Nat) (s : State) : Host.Outcome State Fault Refusal :=
  done (if s.board.resetN then s
    else
      let s := { s with board := { s.board with resetN := true, profileSel := sel % 8 } }
      (s.onIsland .north (fun h => h.resetRise (sel % 8))).onIsland .south (fun h => h.resetRise (sel % 8)))

/-! ### Lease commands that may end a start-up or pass on an update (R334, R340, R393) -/

/-- The other half's update in progress is taken up by a new primary, which repeats the operation abandoned. (DEDUCED, log 40) -/
def State.passUpdate (old new : State) (i : HalfId) : State :=
  let o := new.half i.other
  if !(old.half i).isPrimary && (new.half i).isPrimary && o.mainUp && new.board.bridgeUp && (o.exy.upd.state != 0 || o.exy.flashUnread) then
    let s := new.on i (fun h => h.modExy (fun e => { e with upd := { o.exy.upd with issued := false }, flashUnread := o.exy.flashUnread }))
    let s := s.on i.other (fun h => h.modExy (fun e => { e with upd := Exy.reset.upd, flashUnread := false }))
    s.flashIssue i
  else new

/-- What follows a change of the lease in half `i`. -/
def State.afterLease (old new : State) (i : HalfId) : State := (old.passUpdate new i).goOn i

/-- LEASE_LISTEN_END (R334). -/
def execLeaseListenEnd (i : HalfId) (s : State) : Host.Outcome State Fault Refusal := done (s.afterLease (s.onLeaseListenEnd i) i)

/-- HEARTBEAT_RECEIVED (R328 to R330, R333, R335). -/
def execHeartbeatReceived (i : HalfId) (path : HbPath) (hb : Heartbeat) (s : State) : Host.Outcome State Fault Refusal :=
  done (s.afterLease (s.onHeartbeatReceived i path hb) i)

/-- GUARD_EXPIRY (R330). -/
def execGuardExpiry (i : HalfId) (s : State) : Host.Outcome State Fault Refusal := done (s.afterLease (s.onGuardExpiry i) i)

/-- WITNESS_FALL (R329, R330). -/
def execWitnessFall (i : HalfId) (s : State) : Host.Outcome State Fault Refusal := done (s.afterLease (s.onWitnessFall i) i)

/-- WITNESS_LOOP_FAULT_CLEAR (R327). -/
def execWitnessLoopFaultClear (i : HalfId) (s : State) : Host.Outcome State Fault Refusal :=
  done (s.afterLease (s.onWitnessLoopFaultClear i) i)

/-- RELINQUISH_RECEIVED (R338). -/
def execRelinquishReceived (i : HalfId) (path : HbPath) (s : State) : Host.Outcome State Fault Refusal :=
  done (s.afterLease (s.onRelinquishReceived i path) i)

/-- LEASE_QUERY_ANSWER (R335). -/
def execLeaseQueryAnswer (i : HalfId) (epoch role : Nat) (s : State) : Host.Outcome State Fault Refusal :=
  done (s.afterLease (s.onLeaseQueryAnswer i epoch role) i)

end Sys2Proof.Machine
end

