-- ==== Sys2Proof/Machine/Spectrum.lean ====
section
/-! DEFINITION. Forming a y-spectrum: channelizer, flagger, phaser and requantiser in one (R66, R75, R80, R92, R93, R98,
R101, R106), with the capture tap. -/

namespace Sys2Proof.Machine

/-- The spectrum that an input forms next (R59, R60, R66, R87): its number, if `n` is it and its samples are there. The first is the one in
whose block the stream opened; it is formed, with its samples from before the opening missing. (DEDUCED, log 12) -/
def Half.spectrumReady (h : Half) (x : Inp) (q n : Nat) : Bool :=
  let d := h.blockDelay x q n
  match x.opened with
  | none => false
  | some o =>
    let first := (o + d) / h.lin
    let lastSample := n * h.lin + h.lin - 1
    let have_ (frontier : Nat) : Bool := decide (lastSample < frontier + d)
    let inTurn : Bool := match x.last with
      | none => decide (first ≤ n)
      | some l => n == max (l + 1) first
    let running : Bool := match h.flag CHN_CTL_RUN, h.front.stopAt with
      | true, _ => true
      | false, some s0 => decide (n < s0) && have_ x.stopFrontier
      | false, none => false
    inTurn && have_ x.frontier && running

/-- A coefficient entry found bad while this spectrum's sums are formed (R73). -/
def Half.noteBadCoef (h : Half) (q : Nat) (entry : Option Nat) : Half :=
  match entry with
  | none => h
  | some e =>
    if h.taps * h.fftLen / 2 ≤ e then h
    else ({ h with front := { h.front with badCoef := (q / 8, e) :: h.front.badCoef.filter (· != (q / 8, e)) } } : Half).log errCOEF_PARITY

/-- FAULT holds for spectra of input q (R73). -/
def Half.coefFault (h : Half) (q : Nat) : Bool := h.front.masterBad || h.front.badCoef.any (fun b => b.1 == q / 8)

/-- Saturation of a spectrum is counted and recorded (R75). -/
def Half.noteSat (h : Half) (q : Nat) (sats : List Nat) : Half :=
  match sats with
  | [] => h
  | step :: _ =>
    (((h.bumpWord CHN_STAT_0 1 q).fset CHN_OVF_STAT_STEP step).fset CHN_OVF_STAT_INPUT q).log errCHN_OVERFLOW

/-- What the model and the store say of a y-spectrum: flagged for its range, its span, its frame (R92, R93, R106). (DEDUCED, log 13) -/
def Half.noteModel (h : Half) (q n df : Nat) (range gap frameBad : Bool) : Half :=
  let k := n / h.fspec
  let h := if range || frameBad then h.log errMODEL_RANGE else h
  let h := if gap then h.log errMODEL_GAP else h
  let h := if range || gap || frameBad then h.bumpWord DLY_STATE_3 1 q else h
  if (h.model q k).valid && h.modelDelay q k != (df : Int) && (h.inp q).diffFrame != some k then
    ((h.setInp q (fun x => { x with diffFrame := some k })).bump DLY_STATE_2_FDLY_DIFF 1 q).log errFDLY_DIFF
  else h

/-- Phase, requantise and record a spectrum whose Y and flags stand (R98 to R101, R217). -/
def Half.emitSpectrum (h : Half) (q n flags df : Nat) (y : List (Int × Int)) (sp : Spec) : Half :=
  let k := n / h.fspec
  let m := h.model q k
  let range := m.valid && !compInRange (m.comp n)
  let gap := m.valid && !m.covers h.fspec n
  let frameBad := m.valid && h.frameFlagged q k sp.cfg
  let h := h.noteModel q n df range gap frameBad
  let o := h.requantSpectrum q n (flags != 0 || range || gap || frameBad) df y
  let h := h.sumRq q n o
  let sp := { sp with codes := o.codes, storable := !frameBad }
  (h.setInp q (fun x => { x with specs := SMap.insert x.specs n sp })).capTap q n sp

/-- Form y-spectrum `n` of input q. (DEDUCED, log 12) -/
def Half.formSpectrum (h : Half) (q n : Nat) (badCoef : Option Nat) : Half :=
  let x := h.inp q
  let k := n / h.fspec
  let df := h.blockDelay x q n
  let h := h.setInp q (fun x => { x with fdly := SMap.insert (x.fdly.filter (fun e => n < e.1 + h.taps)) n df })
  let span := h.spanSamples (h.inp q) q n
  let missing := span.any (·.isNone)
  let h := h.noteBadCoef q badCoef
  let r := h.transform (h.histGet CHN_SCALE 0 k).toNat (h.polyphase span.toArray)
  let h := h.noteSat q r.sats
  let ovf := !r.sats.isEmpty && h.flag CHN_CFG_OVF_FLAG
  let flags := b2n missing * flagMissing + b2n ovf * flagOvf + b2n (h.coefFault q) * flagFault
  let h := h.takePower q n (flags == 0) r.z
  let h := h.setInp q (fun x => { x with
    last := some n, ssfs := x.ssfs.filter (fun e => (n - h.taps) * h.lin < e.2.counter + e.2.len + h.lin) })
  let sp : Spec :=
    { flags := flags, raw := 0, y := r.z.toList, codes := [], yframe := k, ns := h.advance q k, fdly := df,
      dint := h.dInt q k, storable := false, skThr := (h.histGet CHN_SK_THR 0 k).toNat,
      cfg := (h.histGet CHN_INPUT_CFG q k).toNat }
  if h.flag DLY_CTL_RUN then h.emitSpectrum q n flags df r.z.toList sp
  else h.setInp q (fun x => { x with specs := SMap.insert x.specs n sp })

/-- R66: the span of a y-spectrum is present; `badCoef` names a coefficient entry whose parity fails as its sums are
formed. While the half is in the state that R369 describes, the front end forms nothing. -/
def execSpectrumFormed (i : HalfId) (q n : Nat) (badCoef : Option Nat) (s : State) : Host.Outcome State Fault Refusal :=
  done (s.onMain i (fun h =>
    if (h.dense q).isSome && !h.inHold && h.spectrumReady (h.inp q) q n then h.formSpectrum q n badCoef else h))

end Sys2Proof.Machine
end

