-- ==== Sys2Proof/Machine/Tick.lean ====
section
/-! DEFINITION. The tick (R307): frame k opens, every shadow hands over (R31, R32), and each block does what it does at a tick. -/

namespace Sys2Proof.Machine

/-! ### Hand-over (R31, R32) -/

def isModelAddr (a : Nat) : Bool := match findReg a with | some (r, _) => modelRegs.contains r | none => false

/-- An armed model entry hands over as it was armed, and keeps its last 17 values; a word written since stays in the shadow for the
next write of word 12 (R94, R95). -/
def Half.takeModel (h : Half) (k q : Nat) (ws : List (Option Word)) : Half :=
  h.fold (modelRegs.zip ws) (fun h (r, v) =>
    let a := r.at q
    let w := mixBits (tickMask r) (h.getN r q) (v.getD (h.get r q)).toNat
    let h := h.putN r w q
    { h with shadow := if SMap.find? h.shadow a == v then SMap.erase h.shadow a else h.shadow
             hist := SMap.insert h.hist a (((k, BitVec.ofNat 32 w) :: (SMap.getD h.hist a []).filter (fun e => e.1 != k)).take 17) })

/-- Exylo writes the front delay that each model in effect asks for (R62, R90). (DEDUCED, log 46) -/
def Half.writeDelays (h : Half) (k : Nat) : Half :=
  if !h.running then h
  else h.fold (List.range 256) (fun h q =>
    if (h.model q k).valid then
      { h with shadow := SMap.insert h.shadow (ING_FDLY.at q) (BitVec.ofNat 32 (h.modelDelay q k).toNat) }
    else h)

/-- One shadow word hands over, with its value kept under the frame of this tick (R62, R76). -/
def Half.takeShadow (h : Half) (k : Nat) (e : Nat × Word) : Half :=
  match findReg e.1 with
  | none => h
  | some (r, i) =>
    let w := BitVec.ofNat 32 (mixBits (tickMask r) (h.getN r i) e.2.toNat)
    { h.put r w i with hist := SMap.modify h.hist e.1 [] (histPush h.histFloor k w) }

/-- Shadows that wait for their entry to be armed. -/
def waitingShadows (m : SMap Word) : SMap Word := m.filter (fun e => isModelAddr e.1)

/-- Writes made inside the window come to the shadows. (DEDUCED, log 15) -/
def mergeShadow (a b : SMap Word) : SMap Word := b.foldl (fun m e => SMap.insert m e.1 e.2) a

/-- Every shadow hands over. -/
def Half.takeShadows (h : Half) (k : Nat) : Half :=
  let h := h.fold h.front.armed (fun h e => h.takeModel k e.1 e.2)
  let h := { h with hoTicks := (k :: h.hoTicks).take 17 }
  let h := h.writeDelays k
  let all := h.shadow
  let h := h.fold (all.filter (fun e => !isModelAddr e.1)) (fun h e => h.takeShadow k e)
  let f := h.front
  let h : Half :=
    { h with shadow := mergeShadow (waitingShadows all) h.shadowLate
             shadowLate := []
             front := { f with gain := mergeShadow f.gain f.gainShadow, gainShadow := f.gainLate, gainLate := [], armed := f.armedLate, armedLate := [] } }
  h.tablesTick.scaleTick

/-- HOLD: nothing hands over, SHADOW_HELD is set, and the writes of the window join those held. -/
def Half.holdShadows (h : Half) : Half :=
  let f := h.front
  let h : Half :=
    { h with shadow := mergeShadow h.shadow h.shadowLate
             shadowLate := []
             front := { f with gainShadow := mergeShadow f.gainShadow f.gainLate, gainLate := [],
                               armed := f.armedLate.foldl (fun m e => SMap.insert m e.1 e.2) f.armed, armedLate := [] } }
  let h := (h.modBmf (fun x => { x with scaleShadow := x.scaleLate.foldl (fun m e => SMap.insert m e.1 e.2) x.scaleShadow, scaleLate := [] })).lateTables
  (h.fset DEV_SHDW_CTL_SHADOW_HELD 1).raise 453

/-- The hand-over of tick `k`; region entries are checked as they take effect (R277). (DEDUCED, log 15) -/
def Half.handOver (h : Half) (k : Nat) : Half :=
  let g := if h.holdSample then h.holdShadows else Half.checkRegions h (h.takeShadows k)
  { g with holdSample := g.flag DEV_SHDW_CTL_HOLD }

/-! ### Ingest at the tick (R58, Table ING-12) -/

/-- The arrival skew of each input at tick `k` (R58). -/
def Half.skews (h : Half) (k : Nat) : Half :=
  h.fold h.front.inputs (fun h e =>
    match e.2.nmax with
    | none => h
    | some n => h.putN ING_SKEW (wrapBits 32 (clamp (-(2 ^ 31 - 1)) (2 ^ 31 - 1) ((k * h.fspec * h.lin : Nat) - (n : Int)))) e.1)

/-- Lanes that receive (R64). -/
def Half.lanesOn (h : Half) : List Nat := if h.flag ING_CTL_RUN then (List.range 32).filter (fun n => h.flag ING_LANE_CFG_EN n) else []

/-- INPUT_LOST where a lane that was on for the whole interval has a position without an SSF; the next interval begins. (DEDUCED, log 11) -/
def Half.inputsLost (h : Half) : Half :=
  let got (q : Nat) : Bool := (h.inp q).got
  let silent (n : Nat) : Bool := (List.range (if h.laneEth n then 2 else 4)).any (fun p => !got (2 * (4 * n + p)) && !got (2 * (4 * n + p) + 1))
  let h := h.fold (h.lanesOn.filter (fun n => h.front.enAtTick.contains n && silent n)) (fun h n => (h.raiseOnce (768 + n)).log errINPUT_LOST n)
  { h with front := { h.front with enAtTick := h.lanesOn, inputs := h.front.inputs.map (fun (q, x) => (q, { x with got := false })) } }

/-- The frame whose read begins (Table OVW-3). -/
def Half.readFrame (h : Half) (k : Nat) : Half :=
  let rp := (k - h.depth) * h.fspec
  { h with front := { h.front with rp := rp, rpEnd := if k < h.depth then rp else rp + h.fspec } }

/-! ### A half at the tick -/

/-- Tick `k` opens frame `k`: the frame index, device time, a new interval for what is raised or logged once in it. -/
def Half.openFrame (h : Half) (k : Nat) : Half :=
  let h := h.setTime (h.tickTime k) 0
  let h := (h.putN DEV_FRM_IDX_LO (k % 2 ^ 32)).putN DEV_FRM_IDX_HI (k / 2 ^ 32 % 65536)
  let h := { h with once := [], errq := { h.errq with created := [] }, tmg := { h.tmg with due := some (k + 1, h.fspec * h.lin, max 1 (h.fget TMG_FS_FS)) } }
  if h.srcEnabled 450 then h.raise 450 else h

/-- HOLD at a tick (R369): it ends where the warning has been clear for PFW_CLR, else the frame is marked. -/
def Half.holdTick (h : Half) (clear : Bool) : Half :=
  if !h.inHold then h
  else if clear then h.leaveHold
  else h.modLta (fun x => { x with markInc := h.frame :: x.markInc })

/-- The pulse of R322. -/
def Half.tickPulse (h : Half) (k : Nat) : Half :=
  if h.fget LSE_STAT_DRIVE = 1 && h.flag TMG_OUT_TICK_EN then h.emit (.tickOut k (max 1 (h.fget TMG_OUT_TICK_W))) else h

/-- What a half does at tick `k` up to the hand-over: bays and output lanes are replaced, then Exylo acts. -/
def Half.beforeHandOver (h : Half) (k : Nat) (failed : List Nat) (clear : Bool) : Half :=
  let h := ((h.openFrame k).holdTick clear).bayTick failed
  let h := { h.outTick with exy := { h.outTick.exy with rejoinAt := h.outTick.exy.rejoinAt.filter (fun n => k < n) } }
  (h.switchTick k).exyloTick k

/-- What it does from the hand-over on. -/
def Half.afterHandOver (h : Half) (k : Nat) : Half :=
  let h := (((h.handOver k).capTick k).lanTick).hbmTick
  let h := ((h.skews k).timebaseCheck).inputsLost
  let h := (h.readFrame k).ltaTick.beamTick
  ((h.arcSettle).showStage).tickPulse k

def Half.tick (h : Half) (k : Nat) (failed : List Nat) (clear : Bool) : Half := (h.beforeHandOver k failed clear).afterHandOver k

/-! ### The device -/

/-- The half by which ticks are placed: the primary, else one whose main domain works. -/
def State.leadHalf (s : State) : Option HalfId :=
  let up (i : HalfId) : Bool := (s.half i).mainUp
  match s.primary?.filter up with
  | some i => some i
  | none => if up .north then some .north else if up .south then some .south else none

/-- A half reset that is due (R342, R370): the half enters DOWN and starts again, or starts from DOWN. -/
def State.resetTick (s : State) (i : HalfId) (k : Nat) : State :=
  let h := s.half i
  if !(h.exy.resetAt.any (· ≤ k)) then s
  else
    let s := s.on i (fun h => h.modExy (fun e => { e with resetAt := none }))
    if h.own = 0 then s.onIsland i (fun h => h.supRestart s.board.resetN)
    else
      let s := s.enterDown i 1
      s.onIsland i (fun h => (h.modIsl (fun x => { x with retries := h.fget SUP_BO_SEQ_RETRY })).startMain)

/-- Tick `k` in every half that works. (DESIGN CHOICE, log 1) -/
def State.tickAt (s : State) (k : Nat) (failN failS : List Nat) (clear : List HalfId) : State :=
  let s := (s.resetTick .north k).resetTick .south k
  let pfw (i : HalfId) : Bool := s.board.pfwN && clear.contains i
  let s := (s.onMain .north (fun h => h.tick k failN (pfw .north))).onMain .south (fun h => h.tick k failS (pfw .south))
  s.onBoth (fun s => s.xchTick.bridgeTick)

/-- TICK (R307): the bays whose self-test failed in the interval, and the halves whose warning has been clear for PFW_CLR. -/
def execTick (failN failS : List Nat) (clear : List HalfId) (s : State) : Host.Outcome State Fault Refusal :=
  done (match s.leadHalf with
    | none => s
    | some i => s.tickAt (s.half i).nextTick failN failS clear)

/-- An idle step: grants that are due are made, each output lane sends one frame of its FIFO, and each MODE 0 lane one LM block (DESIGN
CHOICE, log 3). -/
def State.idle (s : State) : State :=
  s.onBoth (fun s =>
    let s := s.roundabout none
    { s with north := s.north.drainLanes.sendLms, south := s.south.drainLanes.sendLms })

end Sys2Proof.Machine
end

