-- ==== Sys2Proof/Machine/Dispatch.lean ====
section
/-! DEFINITION. One arm for each command: a direct call of its meaning. -/

namespace Sys2Proof.Machine

def exec (i : Instr) (s : State) : Host.Outcome State Fault Refusal :=
  match i with
  | .tick failN failS clear => Sys2Proof.Machine.execTick failN failS clear s
  | .arcadeOverrun h => Sys2Proof.Machine.execArcadeOverrun h s
  | .folderOverrun h => Sys2Proof.Machine.execFolderOverrun h s
  | .outputLate h => Sys2Proof.Machine.execOutputLate h s
  | .landingInstant h => Sys2Proof.Machine.execLandingInstant h s
  | .beamLate h => Sys2Proof.Machine.execBeamLate h s
  | .capFreezeBound h v => Sys2Proof.Machine.execCapFreezeBound h v s
  | .ppsEdge sec => Sys2Proof.Machine.execPpsEdge sec s
  | .ssfReceived h lane integrity bytes => Sys2Proof.Machine.execSsfReceived h lane integrity bytes s
  | .ethFrameReceived h lane marks bytes => Sys2Proof.Machine.execEthFrameReceived h lane marks bytes s
  | .ethGapTimeout h q => Sys2Proof.Machine.execEthGapTimeout h q s
  | .ingRunClear h lane => Sys2Proof.Machine.execIngRunClear h lane s
  | .spectrumFormed h q n badCoef => Sys2Proof.Machine.execSpectrumFormed h q n badCoef s
  | .pwrWarmupEnd h q => Sys2Proof.Machine.execPwrWarmupEnd h q s
  | .pwrReseed h q => Sys2Proof.Machine.execPwrReseed h q s
  | .coefReloadDone h pipe entry masterOk => Sys2Proof.Machine.execCoefReloadDone h pipe entry masterOk s
  | .skDecision h q b => Sys2Proof.Machine.execSkDecision h q b s
  | .delayStoreWrite h q n => Sys2Proof.Machine.execDelayStoreWrite h q n s
  | .delayStoreRead h => Sys2Proof.Machine.execDelayStoreRead h s
  | .dataBlockReceived h n integrity bytes => Sys2Proof.Machine.execDataBlockReceived h n integrity bytes s
  | .helloReceived h n bytes => Sys2Proof.Machine.execHelloReceived h n bytes s
  | .helloSend h n => Sys2Proof.Machine.execHelloSend h n s
  | .tickBlockReceived h n bytes ofs => Sys2Proof.Machine.execTickBlockReceived h n bytes ofs s
  | .probeSend h n t1 => Sys2Proof.Machine.execProbeSend h n t1 s
  | .probeReceived h n bytes t2 t3 => Sys2Proof.Machine.execProbeReceived h n bytes t2 t3 s
  | .echoReceived h n bytes t4 => Sys2Proof.Machine.execEchoReceived h n bytes t4 s
  | .creditReceived h n bytes => Sys2Proof.Machine.execCreditReceived h n bytes s
  | .creditSend h n => Sys2Proof.Machine.execCreditSend h n s
  | .xchRunClear h => Sys2Proof.Machine.execXchRunClear h s
  | .arcOpOpen h => Sys2Proof.Machine.execArcOpOpen h s
  | .arcOpStage h => Sys2Proof.Machine.execArcOpStage h s
  | .arcOpXt h => Sys2Proof.Machine.execArcOpXt h s
  | .arcOpBt h => Sys2Proof.Machine.execArcOpBt h s
  | .arcOpClose h => Sys2Proof.Machine.execArcOpClose h s
  | .arcOpSave h => Sys2Proof.Machine.execArcOpSave h s
  | .arcOpRestore h => Sys2Proof.Machine.execArcOpRestore h s
  | .arcOpSync h => Sys2Proof.Machine.execArcOpSync h s
  | .arcOpLoop h => Sys2Proof.Machine.execArcOpLoop h s
  | .arcOpNop h => Sys2Proof.Machine.execArcOpNop h s
  | .arcOpReserved h => Sys2Proof.Machine.execArcOpReserved h s
  | .passEnd h bay stall ecc => Sys2Proof.Machine.execPassEnd h bay stall ecc s
  | .lastDrainSpill h r => Sys2Proof.Machine.execLastDrainSpill h r s
  | .bayFault h p cause draining => Sys2Proof.Machine.execBayFault h p cause draining s
  | .arcRunClear h => Sys2Proof.Machine.execArcRunClear h s
  | .arcSuspend h v => Sys2Proof.Machine.execArcSuspend h v s
  | .arcHalt h w => Sys2Proof.Machine.execArcHalt h w s
  | .bayHaltReached h => Sys2Proof.Machine.execBayHaltReached h s
  | .arcProgDataWrite h d => Sys2Proof.Machine.execArcProgDataWrite h d s
  | .foldBlock h ecc => Sys2Proof.Machine.execFoldBlock h ecc s
  | .ltaRunClear h => Sys2Proof.Machine.execLtaRunClear h s
  | .beamTableCopyEnd h sub => Sys2Proof.Machine.execBeamTableCopyEnd h sub s
  | .beamTableLoad h sub => Sys2Proof.Machine.execBeamTableLoad h sub s
  | .bmfTdataWrite h d inWindow => Sys2Proof.Machine.execBmfTdataWrite h d inWindow s
  | .bmfSdataWrite h d inWindow => Sys2Proof.Machine.execBmfSdataWrite h d inWindow s
  | .beamSampleProcess h ecc => Sys2Proof.Machine.execBeamSampleProcess h ecc s
  | .bmfRunClear h => Sys2Proof.Machine.execBmfRunClear h s
  | .capArm h v => Sys2Proof.Machine.execCapArm h v s
  | .capTrig h v => Sys2Proof.Machine.execCapTrig h v s
  | .capFreeze h v => Sys2Proof.Machine.execCapFreeze h v s
  | .capRead h v => Sys2Proof.Machine.execCapRead h v s
  | .capRelease h v => Sys2Proof.Machine.execCapRelease h v s
  | .capEventTrigger h v => Sys2Proof.Machine.execCapEventTrigger h v s
  | .capReadDone h v => Sys2Proof.Machine.execCapReadDone h v s
  | .capRunClear h => Sys2Proof.Machine.execCapRunClear h s
  | .trwDoorbell h ring => Sys2Proof.Machine.execTrwDoorbell h ring s
  | .trwStop h ring => Sys2Proof.Machine.execTrwStop h ring s
  | .trwStart h ring => Sys2Proof.Machine.execTrwStart h ring s
  | .trwCtxDataWrite h w d => Sys2Proof.Machine.execTrwCtxDataWrite h w d s
  | .trwRunClear h => Sys2Proof.Machine.execTrwRunClear h s
  | .laneGrant h l t => Sys2Proof.Machine.execLaneGrant h l t s
  | .datagramDone h ring => Sys2Proof.Machine.execDatagramDone h ring s
  | .outFrameReceived h p => Sys2Proof.Machine.execOutFrameReceived h p s
  | .outRunClear h => Sys2Proof.Machine.execOutRunClear h s
  | .laneEnable h lam => Sys2Proof.Machine.execLaneEnable h lam s
  | .laneDisable h lam => Sys2Proof.Machine.execLaneDisable h lam s
  | .losDetect h lam => Sys2Proof.Machine.execLosDetect h lam s
  | .signalPresent h lam => Sys2Proof.Machine.execSignalPresent h lam s
  | .fecAlignLoss h lam => Sys2Proof.Machine.execFecAlignLoss h lam s
  | .blockLockLoss h lam => Sys2Proof.Machine.execBlockLockLoss h lam s
  | .laneAligned h lam => Sys2Proof.Machine.execLaneAligned h lam s
  | .lmBlockReceived h lam bytes => Sys2Proof.Machine.execLmBlockReceived h lam bytes s
  | .fecWindowEnd h lam corrSym corrCw faults => Sys2Proof.Machine.execFecWindowEnd h lam corrSym corrCw faults s
  | .trainingReady h lam asks pre => Sys2Proof.Machine.execTrainingReady h lam asks pre s
  | .trainTimeout h lam => Sys2Proof.Machine.execTrainTimeout h lam s
  | .relockWindowEnd h lam => Sys2Proof.Machine.execRelockWindowEnd h lam s
  | .retryTimeout h lam => Sys2Proof.Machine.execRetryTimeout h lam s
  | .laneTestWrite h lam w => Sys2Proof.Machine.execLaneTestWrite h lam w s
  | .checkerLock h lam lock errs units => Sys2Proof.Machine.execCheckerLock h lam lock errs units s
  | .injStart h lam w => Sys2Proof.Machine.execInjStart h lam w s
  | .injStop h lam => Sys2Proof.Machine.execInjStop h lam s
  | .injection h lam => Sys2Proof.Machine.execInjection h lam s
  | .hbmTransaction h now a => Sys2Proof.Machine.execHbmTransaction h now a s
  | .hbmReadResult h p now out inWindow => Sys2Proof.Machine.execHbmReadResult h p now out inWindow s
  | .refreshDue h p bank => Sys2Proof.Machine.execRefreshDue h p bank s
  | .refreshWindowEnd h stack => Sys2Proof.Machine.execRefreshWindowEnd h stack s
  | .scrubRead h p now out inWindow => Sys2Proof.Machine.execScrubRead h p now out inWindow s
  | .hbmRetrain h p ok inWindow => Sys2Proof.Machine.execHbmRetrain h p ok inWindow s
  | .hbmTempRead h stack temp => Sys2Proof.Machine.execHbmTempRead h stack temp s
  | .hbmTrainingDone h failed => Sys2Proof.Machine.execHbmTrainingDone h failed s
  | .hbmPcFence h p inWindow => Sys2Proof.Machine.execHbmPcFence h p inWindow s
  | .rdbRequest h now x => Sys2Proof.Machine.execRdbRequest h now x s
  | .bridgeCrcFail h => Sys2Proof.Machine.execBridgeCrcFail h s
  | .bridgeDown => Sys2Proof.Machine.execBridgeDown s
  | .bridgeRetrained => Sys2Proof.Machine.execBridgeRetrained s
  | .rdbTimeout h m id => Sys2Proof.Machine.execRdbTimeout h m id s
  | .referenceEvent h r obs now tai => Sys2Proof.Machine.execReferenceEvent h r obs now tai s
  | .selectionCycle h los => Sys2Proof.Machine.execSelectionCycle h los s
  | .secondUpdate h fofs => Sys2Proof.Machine.execSecondUpdate h fofs s
  | .holdoverMeanStore h => Sys2Proof.Machine.execHoldoverMeanStore h s
  | .hoTeUpdate h => Sys2Proof.Machine.execHoTeUpdate h s
  | .timeCopy h => Sys2Proof.Machine.execTimeCopy h s
  | .ptpTimestamp h => Sys2Proof.Machine.execPtpTimestamp h s
  | .tsetGo h => Sys2Proof.Machine.execTsetGo h s
  | .islandPowerUp h => Sys2Proof.Machine.execIslandPowerUp h s
  | .islandReady h => Sys2Proof.Machine.execIslandReady h s
  | .islandPowerLost h => Sys2Proof.Machine.execIslandPowerLost h s
  | .leaseListenEnd h => Sys2Proof.Machine.execLeaseListenEnd h s
  | .heartbeatSend h => Sys2Proof.Machine.execHeartbeatSend h s
  | .heartbeatReceived h path hb => Sys2Proof.Machine.execHeartbeatReceived h path hb s
  | .pathSilent h path => Sys2Proof.Machine.execPathSilent h path s
  | .primaryLeaseLapse h => Sys2Proof.Machine.execPrimaryLeaseLapse h s
  | .secondaryLeaseLapse h => Sys2Proof.Machine.execSecondaryLeaseLapse h s
  | .guardExpiry h => Sys2Proof.Machine.execGuardExpiry h s
  | .witnessFall h => Sys2Proof.Machine.execWitnessFall h s
  | .witnessLoopFault h => Sys2Proof.Machine.execWitnessLoopFault h s
  | .relinquishReceived h path => Sys2Proof.Machine.execRelinquishReceived h path s
  | .unsureEntry h => Sys2Proof.Machine.execUnsureEntry h s
  | .leaseQueryReceived h path => Sys2Proof.Machine.execLeaseQueryReceived h path s
  | .leaseQueryAnswer h epoch role => Sys2Proof.Machine.execLeaseQueryAnswer h epoch role s
  | .unsureTimeout h => Sys2Proof.Machine.execUnsureTimeout h s
  | .watchdogExpiry h => Sys2Proof.Machine.execWatchdogExpiry h s
  | .lseWdKick h => Sys2Proof.Machine.execLseWdKick h s
  | .lseHandover h => Sys2Proof.Machine.execLseHandover h s
  | .evcSelect h => Sys2Proof.Machine.execEvcSelect h s
  | .evcClaim h c => Sys2Proof.Machine.execEvcClaim h c s
  | .evcComplete h t n => Sys2Proof.Machine.execEvcComplete h t n s
  | .evcSwset h n => Sys2Proof.Machine.execEvcSwset h n s
  | .evcPendingClear h w v => Sys2Proof.Machine.execEvcPendingClear h w v s
  | .holdOffExpiry h g => Sys2Proof.Machine.execHoldOffExpiry h g s
  | .coreWfi h core => Sys2Proof.Machine.execCoreWfi h core s
  | .msixMaskClear h entry => Sys2Proof.Machine.execMsixMaskClear h entry s
  | .feedComparator h => Sys2Proof.Machine.execFeedComparator h s
  | .feedSample h va ia vb ib => Sys2Proof.Machine.execFeedSample h va ia vb ib s
  | .railPowerGood h r => Sys2Proof.Machine.execRailPowerGood h r s
  | .railStepTimeout h r => Sys2Proof.Machine.execRailStepTimeout h r s
  | .seqRetryTimer h => Sys2Proof.Machine.execSeqRetryTimer h s
  | .railDownStepDone h r => Sys2Proof.Machine.execRailDownStepDone h r s
  | .pmbAlert h words => Sys2Proof.Machine.execPmbAlert h words s
  | .avsMonitor h margin pmbOk => Sys2Proof.Machine.execAvsMonitor h margin pmbOk s
  | .avsViolation h pmbOk => Sys2Proof.Machine.execAvsViolation h pmbOk s
  | .pfwWarning => Sys2Proof.Machine.execPfwWarning s
  | .urgentRequest h r => Sys2Proof.Machine.execUrgentRequest h r s
  | .urgentBurstEnd h samples => Sys2Proof.Machine.execUrgentBurstEnd h samples s
  | .boHoldExpiry h sensesBack => Sys2Proof.Machine.execBoHoldExpiry h sensesBack s
  | .thermalTrip h sensor => Sys2Proof.Machine.execThermalTrip h sensor s
  | .hkaEntryEnd h sums => Sys2Proof.Machine.execHkaEntryEnd h sums s
  | .hkaGo h => Sys2Proof.Machine.execHkaGo h s
  | .hkaCal h => Sys2Proof.Machine.execHkaCal h s
  | .hkaCalEnd h ground reference => Sys2Proof.Machine.execHkaCalEnd h ground reference s
  | .supRestart h => Sys2Proof.Machine.execSupRestart h s
  | .throttleStart => Sys2Proof.Machine.execThrottleStart s
  | .throttleEnd => Sys2Proof.Machine.execThrottleEnd s
  | .smbusRegWrite h bytes pecOk inWindow => Sys2Proof.Machine.execSmbusRegWrite h bytes pecOk inWindow s
  | .smbusSetAddress h bytes pecOk => Sys2Proof.Machine.execSmbusSetAddress h bytes pecOk s
  | .smbusRegRead h => Sys2Proof.Machine.execSmbusRegRead h s
  | .smbusFrameFragment h bytes pecOk => Sys2Proof.Machine.execSmbusFrameFragment h bytes pecOk s
  | .smbusReplyRead h => Sys2Proof.Machine.execSmbusReplyRead h s
  | .smbusFragmentTimeout h => Sys2Proof.Machine.execSmbusFragmentTimeout h s
  | .resetNRise sel => Sys2Proof.Machine.execResetNRise sel s
  | .resetNLow => Sys2Proof.Machine.execResetNLow s
  | .pllLock h => Sys2Proof.Machine.execPllLock h s
  | .pllLockTimeout h => Sys2Proof.Machine.execPllLockTimeout h s
  | .selfTestDone h ok failed => Sys2Proof.Machine.execSelfTestDone h ok failed s
  | .flashImageReadDone h present room a b => Sys2Proof.Machine.execFlashImageReadDone h present room a b s
  | .imageChoice h => Sys2Proof.Machine.execImageChoice h s
  | .heldFrameResume h => Sys2Proof.Machine.execHeldFrameResume h s
  | .drainDone h timeout => Sys2Proof.Machine.execDrainDone h timeout s
  | .flashOpDone h ok back => Sys2Proof.Machine.execFlashOpDone h ok back s
  | .flashOpTimeout h => Sys2Proof.Machine.execFlashOpTimeout h s
  | .mbxReqGo h => Sys2Proof.Machine.execMbxReqGo h s
  | .mbxRspValidClear h => Sys2Proof.Machine.execMbxRspValidClear h s
  | .mgmtPortFrame h f => Sys2Proof.Machine.execMgmtPortFrame h f s
  | .functionLevelReset h => Sys2Proof.Machine.execFunctionLevelReset h s
  | .tclkLost => Sys2Proof.Machine.execTclkLost s
  | .errorHandle h => Sys2Proof.Machine.execErrorHandle h s
  | .errHeadRead h => Sys2Proof.Machine.execErrHeadRead h s
  | .errPop h => Sys2Proof.Machine.execErrPop h s
  | .errClear h => Sys2Proof.Machine.execErrClear h s
  | .subarrayStopped h sub => Sys2Proof.Machine.execSubarrayStopped h sub s
  | .chnRunSet h => Sys2Proof.Machine.execChnRunSet h s
  | .chnRunClear h boundary => Sys2Proof.Machine.execChnRunClear h boundary s
  | .chnCoefDataWrite h d => Sys2Proof.Machine.execChnCoefDataWrite h d s
  | .dlyRunClear h => Sys2Proof.Machine.execDlyRunClear h s
  | .dlyGainDataWrite h d inWindow => Sys2Proof.Machine.execDlyGainDataWrite h d inWindow s
  | .dlyModelArm h q d inWindow => Sys2Proof.Machine.execDlyModelArm h q d inWindow s
  | .registerWrite v addr w marks => Sys2Proof.Machine.execRegisterWrite v addr w marks s
  | .rcRead v r => Sys2Proof.Machine.execRcRead v r s
  | .latchingRead v r => Sys2Proof.Machine.execLatchingRead v r s
  | .ping h rx => Sys2Proof.Machine.execPing h rx s
  | .regRead h rx => Sys2Proof.Machine.execRegRead h rx s
  | .regWrite h rx => Sys2Proof.Machine.execRegWrite h rx s
  | .mgmtCfg h rx => Sys2Proof.Machine.execMgmtCfg h rx s
  | .authKey h rx => Sys2Proof.Machine.execAuthKey h rx s
  | .snapshot h rx => Sys2Proof.Machine.execSnapshot h rx s
  | .profileSwitch h rx => Sys2Proof.Machine.execProfileSwitch h rx s
  | .flashInfo h rx => Sys2Proof.Machine.execFlashInfo h rx s
  | .flashBegin h rx => Sys2Proof.Machine.execFlashBegin h rx s
  | .flashData h rx => Sys2Proof.Machine.execFlashData h rx s
  | .flashCommit h rx => Sys2Proof.Machine.execFlashCommit h rx s
  | .flashAbort h rx => Sys2Proof.Machine.execFlashAbort h rx s
  | .schedBegin h rx => Sys2Proof.Machine.execSchedBegin h rx s
  | .schedInputs h rx => Sys2Proof.Machine.execSchedInputs h rx s
  | .schedVis h rx => Sys2Proof.Machine.execSchedVis h rx s
  | .schedBeam h rx => Sys2Proof.Machine.execSchedBeam h rx s
  | .schedCapture h rx => Sys2Proof.Machine.execSchedCapture h rx s
  | .schedDrop h rx => Sys2Proof.Machine.execSchedDrop h rx s
  | .schedCommit h rx => Sys2Proof.Machine.execSchedCommit h rx s
  | .subTeardown h rx => Sys2Proof.Machine.execSubTeardown h rx s
  | .quotaSet h rx => Sys2Proof.Machine.execQuotaSet h rx s
  | .readmit h rx => Sys2Proof.Machine.execReadmit h rx s
  | .frameCfg h rx => Sys2Proof.Machine.execFrameCfg h rx s
  | .schedQuery h rx => Sys2Proof.Machine.execSchedQuery h rx s
  | .modelSet h rx => Sys2Proof.Machine.execModelSet h rx s
  | .gainSet h rx => Sys2Proof.Machine.execGainSet h rx s
  | .inputFlags h rx => Sys2Proof.Machine.execInputFlags h rx s
  | .maskSet h rx => Sys2Proof.Machine.execMaskSet h rx s
  | .skySet h rx => Sys2Proof.Machine.execSkySet h rx s
  | .beamDelays h rx => Sys2Proof.Machine.execBeamDelays h rx s
  | .beamRaw h rx => Sys2Proof.Machine.execBeamRaw h rx s
  | .beamScale h rx => Sys2Proof.Machine.execBeamScale h rx s
  | .ringCreate h rx => Sys2Proof.Machine.execRingCreate h rx s
  | .ringSet h rx => Sys2Proof.Machine.execRingSet h rx s
  | .ringCmdStop h rx => Sys2Proof.Machine.execRingCmdStop h rx s
  | .ringCmdStart h rx => Sys2Proof.Machine.execRingCmdStart h rx s
  | .ringCmdDestroy h rx => Sys2Proof.Machine.execRingCmdDestroy h rx s
  | .ringQuery h rx => Sys2Proof.Machine.execRingQuery h rx s
  | .portCfg h rx => Sys2Proof.Machine.execPortCfg h rx s
  | .capCmd h rx => Sys2Proof.Machine.execCapCmd h rx s
  | .capTrigcfg h rx => Sys2Proof.Machine.execCapTrigcfg h rx s
  | .capQuery h rx => Sys2Proof.Machine.execCapQuery h rx s
  | .timeQuery h rx => Sys2Proof.Machine.execTimeQuery h rx s
  | .refCfg h rx => Sys2Proof.Machine.execRefCfg h rx s
  | .timeCtl h rx => Sys2Proof.Machine.execTimeCtl h rx s
  | .timeSet h rx => Sys2Proof.Machine.execTimeSet h rx s
  | .ptpCfg h rx => Sys2Proof.Machine.execPtpCfg h rx s
  | .laneCfg h rx => Sys2Proof.Machine.execLaneCfg h rx s
  | .laneTest h rx => Sys2Proof.Machine.execLaneTest h rx s
  | .laneQuery h rx => Sys2Proof.Machine.execLaneQuery h rx s
  | .evtSubscribe h rx => Sys2Proof.Machine.execEvtSubscribe h rx s
  | .evtCancel h rx => Sys2Proof.Machine.execEvtCancel h rx s
  | .errRead h rx => Sys2Proof.Machine.execErrRead h rx s
  | .eventMsg h slot => Sys2Proof.Machine.execEventMsg h slot s
  | .handover h rx => Sys2Proof.Machine.execHandover h rx s
  | .halfReset h rx => Sys2Proof.Machine.execHalfReset h rx s
  | .bayRepair h rx => Sys2Proof.Machine.execBayRepair h rx s
  | .pcFence h rx => Sys2Proof.Machine.execPcFence h rx s
  | .halfQuery h rx => Sys2Proof.Machine.execHalfQuery h rx s
  | .hkRead h rx => Sys2Proof.Machine.execHkRead h rx s
  | .hkSeq h rx => Sys2Proof.Machine.execHkSeq h rx s
  | .supCfg h rx => Sys2Proof.Machine.execSupCfg h rx s
  | .halfRestart h rx => Sys2Proof.Machine.execHalfRestart h rx s
  | .autoNegotiationDone h lam common => Sys2Proof.Machine.execAutoNegotiationDone h lam common s
  | .remoteFaultSequence h lam => Sys2Proof.Machine.execRemoteFaultSequence h lam s
  | .pfwNRise => Sys2Proof.Machine.execPfwNRise s
  | .witnessLoopFaultClear h => Sys2Proof.Machine.execWitnessLoopFaultClear h s
  | .deviceRecordTakenUp h => Sys2Proof.Machine.execDeviceRecordTakenUp h s
  | .mbxEvtValidClear h => Sys2Proof.Machine.execMbxEvtValidClear h s
  | .unknownOpcode h rx => Sys2Proof.Machine.execUnknownOpcode h rx s

end Sys2Proof.Machine
end

