-- ==== Sys2Proof/Safety.lean ====
section
/-! DEFINITION. What a safe run is, and the terms in which claims are stated: what a half works on, and what a command leaves
as it was. -/

namespace Sys2Proof.Machine

/-- No class H error stands unanswered: each took its half DOWN in the command that found it (R427, R433). -/
abbrev State.Settled (s : State) : Prop := s.north.fatal = none ∧ s.south.fatal = none

/-- The halves know their place, and HBM and the Courtyard are in canonical form. -/
def Half.wf (h : Half) (i : HalfId) : Prop := h.id = i ∧ Memory.wf h.hbm.mem = true ∧ SMap.canon 0 h.arc.cy = true

/-- A safe state: settled, with both halves well formed. -/
def State.Safe (s : State) : Prop := s.Settled ∧ s.north.wf .north ∧ s.south.wf .south

/-- A safe run: every step from the state answers a next state, and every state is safe. -/
def SafeRun : Nat → State → Prop
  | 0, s => s.Safe
  | n + 1, s => s.Safe ∧ ∃ t, step s = .next t ∧ SafeRun n t

/-- The main domain of the half works, and nothing stands unanswered. -/
abbrev State.Works (s : State) (i : HalfId) : Prop := s.Settled ∧ (s.half i).mainUp = true

/-- The island of the half has power, and nothing stands unanswered. -/
abbrev State.Powered (s : State) (i : HalfId) : Prop := s.Settled ∧ (s.half i).isl.powered = true

/-- Nothing but half `i` differs between the machines. -/
def State.OnlyHalf (s t : State) (i : HalfId) : Prop := t = s.setHalf i (t.half i)

/-- As `OnlyHalf`, but that offers of the other half whose conditions have ended are withdrawn too (R354). -/
def State.OnlyHalfBoth (s t : State) (i : HalfId) : Prop :=
  t = (s.setHalf i (t.half i)).setHalf i.other (Half.finish (s.half i.other) (s.half i.other))

/-- The registers of a withdrawn offer (R354), which the end of any command may change. -/
def standingAddr (a : Nat) : Bool := a == MSIX_PBA.at 0 || (List.range 12).any (fun t => a == EVC_TGT_6.at t)

/-- Every register word reads in `h` as in `g`, except at the window offsets listed and in the words of withdrawn offers. -/
def Half.RegsBut (g h : Half) (ws : List Nat) : Prop :=
  ∀ (r : RegDef) (i : Nat), r.at i ∉ ws → standingAddr (r.at i) = false → h.get r i = g.get r i

/-- The words that an error occurrence changes (R430, R431). -/
def errAddrs : List Nat := [ERR_STAT.at 0, ERR_SUPPR.at 0]

/-- The word of pending bits of a source. -/
def pendAddr (n : Nat) : Nat := EVC_PENDING.at (n / 32)

/-- One byte of HBM as it reads. (DESIGN CHOICE, log 4) -/
def Half.byte (h : Half) (a : Nat) : Byte := SMap.getD h.hbm.mem a unwrittenByte

/-- Outside `[a, a + n)` every byte of HBM reads in `h` as in `g`. -/
def Half.BytesBut (g h : Half) (a n : Nat) : Prop := ∀ b, ¬ (a ≤ b ∧ b < a + n) → h.byte b = g.byte b

/-- Source `n`, which its owner raises at most once in a tick interval, has been raised in this one: it is pending, unless it was raised before in the
interval (R47). -/
def Half.RaisedOnce (g h : Half) (n : Nat) : Prop := n ∈ h.once ∧ (n ∉ g.once → h.srcBit EVC_PENDING n = true)

/-- An error occurrence stands in the queue, where the pair has no record or suppression of this tick interval yet and the queue has room (R430, R431). -/
def Half.Logged (g h : Half) (code inst : Nat) : Prop :=
  g.errq.created.contains (code, inst) = false → g.errq.recs.length < 60 → h.errq.recs.any (fun r => r.code == code && r.inst == inst) = true

/-- The word of field `f` is as it was but for the field, which holds `v`. -/
def Half.FieldSet (g h : Half) (f : Fld) (v : Nat) (i : Nat := 0) : Prop := h.getN f.reg i = setBits (g.getN f.reg i) f.hi f.lo v

/-- The counter that fills word `r` has counted `n` more, up to its highest value. (DEDUCED, log 16) -/
def Half.Counted (g h : Half) (r : RegDef) (n : Nat) (i : Nat := 0) : Prop := h.getN r i = min (g.getN r i + n) (2 ^ 32 - 1)

/-- What `h` stores is what `g` stored: every byte of HBM (with the rows of the delay store and the blocks of the corner turn), which rows and
blocks are there, every word of the Courtyard, the rings, the accumulators and the beams. -/
def Half.StoresKept (g h : Half) : Prop :=
  (∀ b, h.byte b = g.byte b) ∧ (∀ a, h.cyWord a = g.cyWord a) ∧ h.front.store = g.front.store ∧ h.xch.ct0 = g.xch.ct0 ∧ h.xch.ct1 = g.xch.ct1
    ∧ h.trw = g.trw ∧ h.lta = g.lta ∧ h.bmf = g.bmf

/-- Only registers, the event controller, the error queue and the emissions differ. -/
def Half.RegsOnly (g h : Half) : Prop :=
  h = { g with regs := h.regs, evc := h.evc, errq := h.errq, once := h.once, out := h.out }

/-! Only registers, the event controller, the error queue, the emissions and one unit differ. -/

/-- As `RegsOnly`, and the front end. -/
def Half.FrontOnly (g h : Half) : Prop :=
  h = { g with regs := h.regs, evc := h.evc, errq := h.errq, once := h.once, out := h.out, front := h.front }

/-- As `FrontOnly`, and the memory, in which the delay store lies. -/
def Half.StoreOnly (g h : Half) : Prop :=
  h = { g with regs := h.regs, evc := h.evc, errq := h.errq, once := h.once, out := h.out, front := h.front, hbm := h.hbm }

/-- As `RegsOnly`, and the exchange and the memory, in which the corner turn lies. -/
def Half.CornerOnly (g h : Half) : Prop :=
  h = { g with regs := h.regs, evc := h.evc, errq := h.errq, once := h.once, out := h.out, xch := h.xch, hbm := h.hbm }

/-- As `RegsOnly`, and the exchange. -/
def Half.XchOnly (g h : Half) : Prop :=
  h = { g with regs := h.regs, evc := h.evc, errq := h.errq, once := h.once, out := h.out, xch := h.xch }

/-- As `RegsOnly`, and the Arcade and the Courtyard. -/
def Half.ArcOnly (g h : Half) : Prop :=
  h = { g with regs := h.regs, evc := h.evc, errq := h.errq, once := h.once, out := h.out, arc := h.arc }

/-- As `ArcOnly`, and the order to compute admission anew, which a fenced bay gives (R35). -/
def Half.ArcFrame (g h : Half) : Prop :=
  h = { g with regs := h.regs, evc := h.evc, errq := h.errq, once := h.once, out := h.out, arc := h.arc
               exy := { g.exy with recompute := h.exy.recompute } }

/-- As `RegsOnly`, and long-term accumulation. -/
def Half.LtaOnly (g h : Half) : Prop :=
  h = { g with regs := h.regs, evc := h.evc, errq := h.errq, once := h.once, out := h.out, lta := h.lta }

/-- As `RegsOnly`, and beamforming. -/
def Half.BmfOnly (g h : Half) : Prop :=
  h = { g with regs := h.regs, evc := h.evc, errq := h.errq, once := h.once, out := h.out, bmf := h.bmf }

/-- As `RegsOnly`, and the capture feeds. -/
def Half.CapsOnly (g h : Half) : Prop :=
  h = { g with regs := h.regs, evc := h.evc, errq := h.errq, once := h.once, out := h.out, caps := h.caps }

/-- As `CapsOnly`, and what the packets of a feed take: the Tramway, the memory and the staged headers. -/
def Half.FeedFrame (g h : Half) : Prop :=
  h = { g with regs := h.regs, evc := h.evc, errq := h.errq, once := h.once, out := h.out, caps := h.caps, trw := h.trw, hbm := h.hbm, stage := h.stage }

/-- As `RegsOnly`, and the Tramway. -/
def Half.TrwOnly (g h : Half) : Prop :=
  h = { g with regs := h.regs, evc := h.evc, errq := h.errq, once := h.once, out := h.out, trw := h.trw }

/-- As `RegsOnly`, and the serial lanes. -/
def Half.LanesOnly (g h : Half) : Prop :=
  h = { g with regs := h.regs, evc := h.evc, errq := h.errq, once := h.once, out := h.out, lanes := h.lanes }

/-- As `RegsOnly`, and the memory and its controllers. -/
def Half.HbmOnly (g h : Half) : Prop :=
  h = { g with regs := h.regs, evc := h.evc, errq := h.errq, once := h.once, out := h.out, hbm := h.hbm }

/-- As `RegsOnly`, and the Roundabout. -/
def Half.RdbOnly (g h : Half) : Prop :=
  h = { g with regs := h.regs, evc := h.evc, errq := h.errq, once := h.once, out := h.out, rdb := h.rdb }

/-- As `RegsOnly`, and the timing unit. -/
def Half.TmgOnly (g h : Half) : Prop :=
  h = { g with regs := h.regs, evc := h.evc, errq := h.errq, once := h.once, out := h.out, tmg := h.tmg }

/-- As `RegsOnly`, and the island. -/
def Half.IslOnly (g h : Half) : Prop :=
  h = { g with regs := h.regs, evc := h.evc, errq := h.errq, once := h.once, out := h.out, isl := h.isl }

/-- As `RegsOnly`, and the resident firmware. -/
def Half.ExyOnly (g h : Half) : Prop :=
  h = { g with regs := h.regs, evc := h.evc, errq := h.errq, once := h.once, out := h.out, exy := h.exy }

/-- No test feature of serial lane `lam` is set: its consumer's traffic passes as it is (R267 to R269). -/
abbrev Half.laneClear (h : Half) (lam : Nat) : Prop :=
  h.fget LAN_TEST_LOOP lam = 0 ∧ h.fget LAN_TEST_CHK lam = 0 ∧ h.fget LAN_TEST_GEN lam = 0

/-- Exchange lane `n` of the half is live, no test feature is set on it, and it joins the half to device `p` (R111, R117). -/
abbrev State.LiveLane (s : State) (i : HalfId) (n p : Nat) : Prop :=
  s.Works i ∧ n < 16 ∧ (s.half i).lanePeer n = some p ∧ (s.half i).xLaneUp n = true ∧ (s.half i).laneClear (32 + n)

/-- A link group of half `i` changes nothing but the exchange, the registers listed and the error record of its half. -/
def State.LinkFrame (s t : State) (i : HalfId) (ws : List Nat) : Prop :=
  s.OnlyHalf t i ∧ Half.XchOnly (s.half i) (t.half i) ∧ Half.RegsBut (s.half i) (t.half i) (ws ++ errAddrs)

/-- The group to `p` is held for a reason (R114 to R117): its queue and what waited to land over it are gone. -/
def Half.IsHeld (g h : Half) (p reason code : Nat) : Prop :=
  h.linkState p = xlHeld ∧ h.fget XCH_LINK_STAT_0_REASON p = reason ∧ (h.link p).queue = [] ∧ (h.link p).peerReady = false
    ∧ h.xch.waiting = g.xch.waiting.filter (fun w => !(w.lane.isSome && w.entry == p)) ∧ Half.Logged g h code 0xFFFF

/-- What a command on serial lane `lam` leaves as it was: everything but registers, events, errors, emissions, the lane's own record, transmit
FIFOs and link groups; no word of the lane block changes but those listed. -/
def Half.LaneFrame (g h : Half) (lam : Nat) (ws : List Nat) : Prop :=
  h = { g with regs := h.regs, evc := h.evc, errq := h.errq, once := h.once, out := h.out, lanes := h.lanes, trw := h.trw, xch := h.xch }
    ∧ (∀ m, m ≠ lam → h.lane m = g.lane m) ∧ h.trw.ctx = g.trw.ctx ∧ h.trw.eng = g.trw.eng
    ∧ ∀ a, 0xE01000 ≤ a → a < 0xE01000 + 54 * 0x40 → a ∉ ws → SMap.find? h.regs a = SMap.find? g.regs a

/-- Lane `lam` of half `i` comes to state `st`, raising its source where that is a change (R272), within the frame; where it carries no
exchange lane and no output, nothing else changes but its words of service (R262). -/
def State.LaneGoes (s t : State) (i : HalfId) (lam st : Nat) (ws : List Nat) : Prop :=
  (t.half i).lanState lam = st ∧ s.OnlyHalf t i ∧ Half.LaneFrame (s.half i) (t.half i) lam ws
    ∧ (st ≠ (s.half i).lanState lam → (t.half i).srcBit EVC_PENDING (128 + lam) = true)
    ∧ (lam < 32 ∨ lam = 53 → Half.LanesOnly (s.half i) (t.half i)
        ∧ Half.RegsBut (s.half i) (t.half i) (ws ++ [LAN_UP.at 0, LAN_UP_HI.at 0, pendAddr (128 + lam), pendAddr 768] ++ errAddrs))

/-- The sequencer of the half's Arcade has come to op `op` of its run `r` (R146, R148). -/
abbrev State.AtOp (s : State) (i : HalfId) (r : ArcRun) (op : Op) : Prop := s.Works i ∧ (s.half i).curOp = some (r, op)

/-- No finished pass waits to drain (R140). -/
abbrev Half.NoDrain (h : Half) : Prop := ∀ p ∈ h.arc.passes, p.status ≠ 2

/-- The transport is the management port (R398). -/
def isUdp : Rx → Bool
  | .udp _ _ _ _ => true
  | .mailbox => false
  | .smbus => false

/-- A command frame `bs` waits at transport `rx` of half `i`, which is RUNNING or answers over its SMBus; it passes checks 1 to 6, and is neither
a repetition nor out of order (R397, R398, R401, R402, R405). No test feature is set on the lane of the management port. -/
abbrev State.FrameRuns (s : State) (i : HalfId) (rx : Rx) (bs : List Byte) : Prop :=
  s.Settled ∧ ((s.half i).running = true ∨ (rx = .smbus ∧ (s.half i).isl.powered = true)) ∧ (s.half i).waitingFrame rx = some bs
    ∧ 20 ≤ bs.length ∧ fieldAt bs 0 2 = 0x4558 ∧ (s.half i).frameFault rx bs = none
    ∧ (s.half i).seqRule (srcOf rx bs) (frSeq bs) = .execute ∧ s.channelBusy = false
    ∧ (isUdp rx = true → (s.half i).laneClear mgmtLane)

/-- The frame asks for `op`, which half `j` alone executes (R399), and its payload passes check 8 there (R397); a half that is not RUNNING answers a few
opcodes by its island (R398). -/
abbrev State.RunsIn (s : State) (i j : HalfId) (rx : Rx) (bs : List Byte) (op : Nat) : Prop :=
  s.FrameRuns i rx bs ∧ frOpcode bs = op ∧ s.reaches i j = true ∧ (s.half j).isl.powered = true ∧ (s.half j).opFormat op (frPayload bs) = true
    ∧ (if (s.half i).running then
        (if opDeviceWide op then s.primary? = some j
         else opTiming op = false ∧ (frTarget bs = portOf j ∨ (frTarget bs = 3 ∧ s.primary? = some j)))
       else j = i ∧ op ∈ [0x0100, 0x0B04, 0x0C00, 0x0C03])

/-- The frame asks for `op`, which both halves execute (R399, R400), and its payload passes check 8 in both. -/
abbrev State.RunsInBoth (s : State) (i : HalfId) (rx : Rx) (bs : List Byte) (op : Nat) : Prop :=
  s.FrameRuns i rx bs ∧ (s.half i).running = true ∧ frOpcode bs = op ∧ opDeviceWide op = false ∧ (opTiming op = true ∨ frTarget bs = 2)
    ∧ ∀ j ∈ [HalfId.north, .south], s.reaches i j = true ∧ (s.half j).isl.powered = true ∧ (s.half j).opFormat op (frPayload bs) = true

/-- Reply `r` has left half `i` by transport `rx` (R398). -/
def State.Sent (s t : State) (i : HalfId) (rx : Rx) (r : List Byte) : Prop :=
  let h := s.half i
  let g := t.half i
  match rx with
  | .udp mac ip port _ => g.out.getLast? = some (.datagram mac ip port r)
  | .mailbox => g.flag DEV_MBX_CTL_RSP_VALID = true
      ∧ (if h.flag DEV_MBX_CTL_RSP_VALID then g.exy.mbxReply = some r
         else g.exy.mbxReply = none ∧ g.flag DEV_MBX_CTL_BUSY = false
           ∧ ∀ n, n < (toWords r).length → n < 4096 → g.get DEV_MBX_RSP n = (toWords r).getD n 0)
  | .smbus => g.isl.smbFrame = none ∧ g.isl.smbReply = h.isl.smbReply ++ r

/-- Half `i` has answered frame `bs` (R396, R402): the reply is the session's last, and it has left. -/
def State.Replied (s t : State) (i : HalfId) (rx : Rx) (bs : List Byte) (st hn hs : Nat) (data : List Byte) : Prop :=
  let r := (s.half i).reply bs st hn hs data
  let src := srcOf rx bs
  (t.half i).exy.sessions.head? = some ⟨src.kind, src.ip, src.port, src.num, frSeq bs, r⟩ ∧ s.Sent t i rx r

/-- The words by which a reply leaves in the mailbox. -/
def mbxAddrs : List Nat := DEV_MBX_CTL.at 0 :: (List.range 4096).map DEV_MBX_RSP.at

/-- As `RegsOnly`, and the command channel; of the registers only the mailbox's and those listed differ. -/
def Half.ChannelOnly (g h : Half) (ws : List Nat) : Prop :=
  h = { g with regs := h.regs, evc := h.evc, errq := h.errq, once := h.once, out := h.out, exy := h.exy, latch := h.latch
               isl := { g.isl with smbFrame := h.isl.smbFrame, smbReply := h.isl.smbReply } }
    ∧ Half.RegsBut g h (mbxAddrs ++ ws)

/-- Of the firmware's state, only sessions and the waiting reply differ. -/
def Half.SessionsOnly (g h : Half) : Prop := h.exy = { g.exy with sessions := h.exy.sessions, mbxReply := h.exy.mbxReply }

/-- A frame that half `i` took and half `j` executed changed nothing else: outside the two halves, in the taking half but for its reply, and in
the executing half but for its firmware's state and the registers listed. -/
def State.OpFrame (s t : State) (i j : HalfId) (ws : List Nat) : Prop :=
  t = { s with north := t.north, south := t.south } ∧ Half.ChannelOnly (s.half j) (t.half j) ws
    ∧ (if i = j then t.half i.other = s.half i.other
       else Half.ChannelOnly (s.half i) (t.half i) [] ∧ Half.SessionsOnly (s.half i) (t.half i))

/-- As `SessionsOnly`, and what `f` does. -/
def Half.ExyWith (g h : Half) (f : Exy → Exy) : Prop := h.exy = { f g.exy with sessions := h.exy.sessions, mbxReply := h.exy.mbxReply }

/-- The machine after a list of commands. -/
def State.after (s : State) (cs : List Instr) : State := cs.foldl (fun s c => match exec c s with | .next t => t | _ => s) s

/-- Writes of register words of half `j` by a master of its own. -/
def regWrites (j : HalfId) (ws : List (Nat × Nat)) : List Instr :=
  ws.map (fun e => .registerWrite j (e.1 + 0x4000000 * portOf j) (BitVec.ofNat 32 e.2) ⟨false, false, 0⟩)

/-- The machine once half `i` has taken a frame from its transport. -/
def State.taken (s : State) (i : HalfId) (rx : Rx) : State := s.on i (fun g => g.takeFrame rx true)

/-- The effect of a frame is the machine `u`, and `t` differs from it only by the reply's way out of half `i`. -/
def State.AnsweredFrom (u t : State) (i : HalfId) : Prop :=
  t = u.setHalf i (t.half i) ∧ Half.ChannelOnly (u.half i) (t.half i) [] ∧ Half.SessionsOnly (u.half i) (t.half i)

/-- Half `i` can still answer by transport `rx` in the machine `u` (R261, R398): it is RUNNING, or answers over its SMBus; the lane of the management port
is in service with no test feature set; mailbox and SMBus are as they were in `s`. -/
abbrev State.CanReply (s u : State) (i : HalfId) (rx : Rx) : Prop :=
  let h := s.half i
  let g := u.half i
  (g.running = true ∨ (rx = .smbus ∧ g.isl.powered = true)) ∧ g.exy.mbxReply = h.exy.mbxReply ∧ g.isl.smbReply = h.isl.smbReply ∧ g.isl.smbFrame = h.isl.smbFrame
    ∧ (isUdp rx = true → g.laneUp mgmtLane = true ∧ g.laneClear mgmtLane)
    ∧ (rx = .mailbox → g.getN DEV_MBX_CTL = h.getN DEV_MBX_CTL)

/-- The frame is no command of a row of its own: its opcode is unknown, or it is a RING_CMD with an OP that there is not. -/
def frameOdd (bs : List Byte) : Bool := !opKnown (frOpcode bs) || (frOpcode bs == 0x0602 && !(1 ≤ byteAt (frPayload bs) 4 && byteAt (frPayload bs) 4 ≤ 3))

/-- `x` is a row of the command frames (R397, Tables EXY-6 to EXY-15), with the frames that are its own. -/
def IsFrameRow (inWindow : Bool) (x : (HalfId → Rx → Instr) × (List Byte → Bool)) : Prop :=
  let op (c : HalfId → Rx → Instr) (n : Nat) : (HalfId → Rx → Instr) × (List Byte → Bool) := (c, fun bs => frOpcode bs == n)
  let ring (c : HalfId → Rx → Instr) (n : Nat) : (HalfId → Rx → Instr) × (List Byte → Bool) := (c, fun bs => frOpcode bs == 0x0602 && byteAt (frPayload bs) 4 == n)
  x ∈ [(.unknownOpcode, frameOdd), op .ping 0x0100, op .regRead 0x0101, op .mgmtCfg 0x0103, op .authKey 0x0104, op .snapshot 0x0105, op .profileSwitch 0x0200,
    op .flashInfo 0x0201, op .flashBegin 0x0202, op .flashData 0x0203, op .flashCommit 0x0204, op .flashAbort 0x0205, op .schedBegin 0x0300,
    op .schedInputs 0x0301, op .schedVis 0x0302, op .schedBeam 0x0303, op .schedCapture 0x0304, op .schedDrop 0x0305, op .schedCommit 0x0306,
    op .subTeardown 0x0307, op .quotaSet 0x0308, op .readmit 0x0309, op .frameCfg 0x030A, op .schedQuery 0x030B, op .modelSet 0x0400,
    op .gainSet 0x0401, op .inputFlags 0x0402, op .maskSet 0x0403, op .skySet 0x0404, op .beamDelays 0x0500, op .beamRaw 0x0501,
    op .beamScale 0x0502, op .ringCreate 0x0600, op .ringSet 0x0601, op .ringQuery 0x0603, op .portCfg 0x0604, op .capCmd 0x0700,
    op .capTrigcfg 0x0701, op .capQuery 0x0702, op .timeQuery 0x0800, op .refCfg 0x0801, op .timeCtl 0x0802, op .timeSet 0x0803,
    op .ptpCfg 0x0804, op .laneCfg 0x0900, op .laneTest 0x0901, op .laneQuery 0x0902, op .evtSubscribe 0x0A00, op .evtCancel 0x0A01,
    op .errRead 0x0A02, op .handover 0x0B00, op .halfReset 0x0B01, op .bayRepair 0x0B02, op .pcFence 0x0B03, op .halfQuery 0x0B04,
    op .hkRead 0x0C00, op .hkSeq 0x0C01, op .supCfg 0x0C02, op .halfRestart 0x0C03, op (fun i rx => .regWrite i ⟨rx, inWindow⟩) 0x0102, ring .ringCmdStop 1,
    ring .ringCmdStart 2, ring .ringCmdDestroy 3]

/-- What a register word holds after a write of `w` that is neither refused nor a command (R6, R8, R31, R417): LIVE fields at once, LOCKED fields where
they are not locked, W1C bits cleared by ones but for those `same` that hardware set in the cycle of the write (R7), and TICK fields in the shadow, or
past it inside the hand-over window. -/
def Half.Stored (g h : Half) (r : RegDef) (n w : Nat) (late : Bool) (same : Nat) : Prop :=
  h.getN r n = (mixBits (liveMask r ||| (if g.regLocked r n then 0 else lockMask r)) (g.getN r n) w) &&& (2 ^ 32 - 1 - ((w &&& w1cMask r) &&& (2 ^ 32 - 1 - same)))
    ∧ (tickMask r ≠ 0 → SMap.find? (if late then h.shadowLate else h.shadow) (r.at n) = some (BitVec.ofNat 32 (w &&& tickMask r)))

/-- Registers whose writes do more than store their fields, or in its place (R417). -/
def actingRegs : List RegDef :=
  [CHN_COEF_DATA, DLY_GAIN_DATA, DLY_MODEL_12, ARC_PROG_DATA, ARC_DBG, CY_WIN, BMF_TDATA, BMF_SDATA, TRW_DOORBELL, TRW_RING_CMD, TRW_CTX_DATA, EVC_SWSET,
   EVC_PENDING, EVC_TGT_3, ERR_CTL, LAN_TEST, LAN_INJ, CAP_CMD, LSE_DREC, HBM_PC_0, SUP_CTL, ING_CTL, CHN_CTL, DLY_CTL, XCH_CTL, XCH_CFG, XCH_LANE_CFG,
   ARC_CTL, LTA_CTL, BMF_CTL, CAP_CTL, TRW_CTL, OUT_CTL, LAN_CFG, TMG_TSET_1, EVC_ENABLE, MSIX_3, HKA_CTL, SUP_THERM, SUP_RAIL_0, LSE_CTL, DEV_MBX_CTL]

/-- The machine answers a next state with these properties. -/
def Completes (c : Instr) (s : State) (p : State → Prop) : Prop := ∃ t, exec c s = .next t ∧ p t

end Sys2Proof.Machine
end

