-- ==== Sys2Proof/Certificates/Slice0/Obligations.lean ====
section
/-! DEFINITION. The statements for the provers: what each command does, what it leaves as it was, and what every step keeps. -/

open Sys2Proof Sys2Proof.Machine

/-! ### Ingest (03_ingest.md) -/

/-- R56, R60: a frame that passes every check of Table ING-3 is accepted. Its samples join the stream of its input, which passes the spectrum boundaries it
has reached (R62); ACCEPTED of its lane counts it, POS_SRC takes its word, and the samples that no longer can come count in GAP. No other input, no
store and no other register changes. Where it rests on a reading or a choice of the model, that is log 11 and log 12. -/
def Obligations.SsfAccepted : Prop :=
  ∀ (s : State) (i : HalfId) (phys n lo : Nat) (bs : List Byte),
    let h := s.half i
    let q := ssfInput n (bits (byteAt bs 6) 1 0) (bits (byteAt bs 6) 2 2)
    let c := fieldAt bs 8 8
    let len := 512 * 2 ^ bits (byteAt bs 7) 1 0
    let r := (h.inp q).accept false c len lo (!bit (byteAt bs 3) 0) ((bs.drop 24).take (bs.length - 28))
    s.Works i → h.logicalLane phys = some n → h.laneReceives n = true → h.laneEth n = false → h.laneLocked n = true → h.laneDelivers phys bs = true →
    crcGood bs = true → h.ssfFormatOk n bs = true → h.ssfRouteOk n bs = true → c + len ≤ (h.frame + 2) * h.fspec * h.lin →
    (h.inp q).firstNew c len = some lo →
    Completes (.ssfReceived i phys .good bs) s (fun t =>
      s.OnlyHalf t i
      ∧ (t.half i).inp q = (h.setStream q r.1).inp q
      ∧ (∀ p, p ≠ q → (t.half i).inp p = h.inp p)
      ∧ Half.Counted h (t.half i) ING_LANE_CNT_0 1 n ∧ Half.Counted h (t.half i) ING_LANE_CNT_5 r.2 n
      ∧ (t.half i).getN ING_POS_SRC_0 q = fieldAt bs 16 4 % 2 ^ 32
      ∧ Half.FrontOnly { h with lanes := (t.half i).lanes } (t.half i) ∧ Half.StoresKept h (t.half i)
      ∧ Half.RegsBut h (t.half i)
          ([ING_LANE_CNT_0.at n, ING_LANE_CNT_5.at n, ING_POS_SRC_0.at q, ING_POS_SRC_1.at q, pendAddr 805] ++ errAddrs))

/-- R57: an Ethernet frame on a locked lane with Ethernet framing that is not let through is counted in ETH_DROP of the lane, its source is raised once in the
tick interval and its error logged, and no input changes; one let through is checked as a sample-stream frame: with no block marked bad and every check
of Table ING-3 passed it is accepted, and with a block marked bad it fails check 1 (R260). R60: when the time of the oldest open gap of an input is over,
the gap closes, GAP of the lane counts its samples, and the source is raised once and the error logged. R64: a cleared RUN or EN of ingest reads clear, and
nothing else changes. Where it rests on a reading or a choice of the model, that is log 11 and log 12. -/
def Obligations.IngestFramesAndRun : Prop :=
  (∀ (s : State) (i : HalfId) (phys n : Nat) (integrity : Integrity) (fcsOk : Bool) (bs : List Byte),
    let h := s.half i
    s.Works i → h.logicalLane phys = some n → h.laneReceives n = true → h.laneEth n = true → h.laneLocked n = true → h.laneDelivers phys bs = true →
    (h.ethPayload fcsOk bs = none → Completes (.ethFrameReceived i phys ⟨integrity, fcsOk⟩ bs) s (fun t =>
      s.OnlyHalf t i ∧ Half.Counted h (t.half i) ING_LANE_CNT_7 1 n ∧ Half.RaisedOnce h (t.half i) 807 ∧ Half.Logged h (t.half i) errETH_DROP 0xFFFF
      ∧ Half.RegsOnly { h with lanes := (t.half i).lanes } (t.half i) ∧ Half.RegsBut h (t.half i) (ING_LANE_CNT_7.at n :: pendAddr 807 :: errAddrs)))
    ∧ (∀ p, h.ethPayload fcsOk bs = some p → integrity = .bad → Completes (.ethFrameReceived i phys ⟨integrity, fcsOk⟩ bs) s (fun t =>
      s.OnlyHalf t i ∧ Half.Counted h (t.half i) ING_LANE_CNT_1 1 n ∧ Half.RaisedOnce h (t.half i) 800 ∧ Half.Logged h (t.half i) errSSF_CRC 0xFFFF
      ∧ Half.RegsOnly { h with lanes := (t.half i).lanes } (t.half i) ∧ Half.RegsBut h (t.half i) (ING_LANE_CNT_1.at n :: pendAddr 800 :: errAddrs)))
    ∧ (∀ p lo, h.ethPayload fcsOk bs = some p → integrity = .good → crcGood p = true → h.ssfFormatOk n p = true → h.ssfRouteOk n p = true →
        let q := ssfInput n (bits (byteAt p 6) 1 0) (bits (byteAt p 6) 2 2)
        let c := fieldAt p 8 8
        let len := 512 * 2 ^ bits (byteAt p 7) 1 0
        let r := (h.inp q).accept true c len lo (!bit (byteAt p 3) 0) ((p.drop 24).take (p.length - 28))
        c + len ≤ (h.frame + 2) * h.fspec * h.lin → (h.inp q).firstNew c len = some lo →
        Completes (.ethFrameReceived i phys ⟨integrity, fcsOk⟩ bs) s (fun t =>
          s.OnlyHalf t i
          ∧ (t.half i).inp q = (h.setStream q r.1).inp q
          ∧ (∀ p, p ≠ q → (t.half i).inp p = h.inp p)
          ∧ Half.Counted h (t.half i) ING_LANE_CNT_0 1 n ∧ Half.Counted h (t.half i) ING_LANE_CNT_5 r.2 n
          ∧ Half.FrontOnly { h with lanes := (t.half i).lanes } (t.half i) ∧ Half.StoresKept h (t.half i))))
  ∧ (∀ (s : State) (i : HalfId), let h := s.half i
    s.Works i →
    (∀ q g gs, q < 256 → (h.inp q).gaps = g :: gs → Completes (.ethGapTimeout i q) s (fun t =>
      let lost := (((h.inp q).gaps.filter (· == g)).map (fun k => k.hi - k.lo)).sum
      s.OnlyHalf t i ∧ ((t.half i).inp q).gaps = gs.filter (· != g) ∧ ((t.half i).inp q).top = (h.inp q).top
      ∧ ((t.half i).inp q).frontier = (match gs.filter (· != g) with | k :: _ => k.lo | [] => (h.inp q).top)
      ∧ Half.Counted h (t.half i) ING_LANE_CNT_5 lost (q / 8)
      ∧ (lost ≠ 0 → Half.RaisedOnce h (t.half i) 805 ∧ Half.Logged h (t.half i) errSAMPLE_GAP 0xFFFF)
      ∧ (∀ p, p ≠ q → (t.half i).inp p = h.inp p) ∧ Half.FrontOnly h (t.half i) ∧ Half.StoresKept h (t.half i)
      ∧ Half.RegsBut h (t.half i) (ING_LANE_CNT_5.at (q / 8) :: pendAddr 805 :: errAddrs)))
    ∧ Completes (.ingRunClear i none) s (fun t =>
      s.OnlyHalf t i ∧ (t.half i).flag ING_CTL_RUN = false ∧ Half.FieldSet h (t.half i) ING_CTL_RUN 0
      ∧ Half.RegsOnly h (t.half i) ∧ Half.RegsBut h (t.half i) [ING_CTL.at 0])
    ∧ (∀ n, n < 32 → Completes (.ingRunClear i (some n)) s (fun t =>
      s.OnlyHalf t i ∧ (t.half i).flag ING_LANE_CFG_EN n = false ∧ Half.FieldSet h (t.half i) ING_LANE_CFG_EN 0 n
      ∧ Half.RegsOnly h (t.half i) ∧ Half.RegsBut h (t.half i) [ING_LANE_CFG.at n])))

/-! ### Channelizer and flagger (04_channelizer.md) -/

/-- R66: the spectrum whose turn it is and whose samples are present is formed. It is the last formed of its input; its record holds the frame that it
belongs to and the transform of the polyphase sums of its span, with bit 0 of its flags set where a sample of the span is missing; no other input and no
row of the delay store changes, and while capture does not run and no feed has a boundary to reach, neither memory nor feeds. R81: the warm-up ends with
its 2^TAU eligible spectra: the mean is that of their powers, and the register shows it; 2^TAU consecutive raw flags start it again, and the error is
logged. R84, R85: once the block and its guard spectra have left the FFT its decision stands: with fewer clean spectra than half of M no channel is flagged
and SK_SHORT counts; else, where SK flagging is on, the channels whose estimate over the clean spectra lies outside the thresholds. CHN_STAT_2 counts
the flagged channels. Where it rests on a reading or a choice of the model, that is log 12, log 13 and log 14. -/
def Obligations.SpectrumAndFlags : Prop :=
  (∀ (s : State) (i : HalfId) (q n : Nat) (bad : Option Nat), let h := s.half i
    let x := h.inp q
    let df := h.blockDelay x q n
    let span := h.spanSamples { x with fdly := SMap.insert (x.fdly.filter (fun e => n < e.1 + h.taps)) n df } q n
    s.Works i → h.inHold = false → (h.dense q).isSome = true → h.spectrumReady x q n = true →
    Completes (.spectrumFormed i q n bad) s (fun t =>
      s.OnlyHalf t i ∧ ((t.half i).inp q).last = some n
      ∧ (∃ sp, SMap.find? ((t.half i).inp q).specs n = some sp ∧ sp.yframe = n / h.fspec
          ∧ sp.y = (h.transform (h.histGet CHN_SCALE 0 (n / h.fspec)).toNat (h.polyphase span.toArray)).z.toList
          ∧ bit sp.flags 0 = span.any (·.isNone))
      ∧ (∀ p, p ≠ q → (t.half i).inp p = h.inp p) ∧ (t.half i).front.store = h.front.store
      ∧ (h.flag CAP_CTL_RUN = false → (∀ v, (h.cap v).stopAt = none) → (∀ a, (t.half i).byte a = h.byte a) ∧ (t.half i).caps = h.caps)))
  ∧ (∀ (s : State) (i : HalfId) (q : Nat), let h := s.half i
    s.Works i → q < 256 →
    ((h.inp q).warm = true → (h.inp q).warmCnt = 2 ^ h.tau → Completes (.pwrWarmupEnd i q) s (fun t =>
      s.OnlyHalf t i ∧ ((t.half i).inp q).warm = false ∧ ((t.half i).inp q).mu = f32OfRatio (h.inp q).warmSum (2 ^ h.tau)
      ∧ ((t.half i).inp q).rawRun = 0 ∧ (t.half i).getN CHN_PWR_MEAN q = f32Bits (f32OfRatio (h.inp q).warmSum (2 ^ h.tau)) % 2 ^ 32
      ∧ (∀ p, p ≠ q → (t.half i).inp p = h.inp p) ∧ Half.FrontOnly h (t.half i) ∧ Half.RegsBut h (t.half i) [CHN_PWR_MEAN.at q]))
    ∧ ((h.inp q).warm = false → 2 ^ h.tau ≤ (h.inp q).rawRun → Completes (.pwrReseed i q) s (fun t =>
      s.OnlyHalf t i ∧ ((t.half i).inp q).warm = true ∧ ((t.half i).inp q).warmCnt = 0 ∧ ((t.half i).inp q).warmSum = 0
      ∧ ((t.half i).inp q).rawRun = 0 ∧ Half.Logged h (t.half i) errPWR_RESEED 0xFFFF ∧ (∀ p, p ≠ q → (t.half i).inp p = h.inp p)
      ∧ Half.FrontOnly h (t.half i) ∧ Half.RegsBut h (t.half i) errAddrs)))
  ∧ (∀ (s : State) (i : HalfId) (q b n : Nat), let h := s.half i
    let x := h.inp q
    let (thr, cfg) := h.skSettings x q b
    let clean := (x.specs.filter (fun e => e.1 / h.skm == b)).filter (fun e => (e.2.flags + h.pwrFlags x e.1 e.2.cfg) % 32 == 0)
    s.Works i → q < 256 → x.last = some n → (b + 1) * h.skm + (if h.powerFlagging cfg then h.guardSpec else 0) ≤ n + 1 → SMap.find? x.sk b = none →
    Completes (.skDecision i q b) s (fun t => s.OnlyHalf t i
      ∧ (∃ l, SMap.find? ((t.half i).inp q).sk b = some l ∧ Half.Counted h (t.half i) CHN_STAT_2 l.length q
          ∧ ∀ c, c ∈ l ↔ (h.skm / 2 ≤ clean.length ∧ h.flag CHN_CFG_SK_EN = true ∧ bit cfg 0 = false ∧ c < h.chans
              ∧ skBit thr clean.length (clean.map (fun e => power (e.2.y.getD c (0, 0)))) = true))
      ∧ (clean.length < h.skm / 2 → Half.Counted h (t.half i) CHN_STAT_3 1 q ∧ Half.Logged h (t.half i) errSK_SHORT 0xFFFF)
      ∧ (∀ p, p ≠ q → (t.half i).inp p = h.inp p) ∧ Half.FrontOnly h (t.half i)
      ∧ Half.RegsBut h (t.half i) ([CHN_STAT_1.at q, CHN_STAT_2.at q, CHN_STAT_3.at q] ++ errAddrs)))

/-- R69, R87: setting RUN starts every input afresh, but where the running other half has another LCODE or TAPS it stays clear and the error is logged;
clearing it fixes the boundary at which spectra stop. R72, R73: a coefficient word is stored at ADDR, which advances, with −131,072 stored as −131,071; while
the block runs it is refused and logged; a reload from a good master ends the fault of its entry, and an uncorrectable master stays known and is
logged. Nothing else changes. Where it rests on a reading or a choice of the model, that is log 12. -/
def Obligations.ChannelizerRunAndTable : Prop :=
  (∀ (s : State) (i : HalfId), let h := s.half i
    let o := s.half i.other
    s.Works i →
    (h.flag CHN_CTL_RUN = false →
      (o.flag CHN_CTL_RUN = true → o.fget CHN_CFG_LCODE ≠ h.fget CHN_CFG_LCODE ∨ o.fget CHN_CFG_TAPS ≠ h.fget CHN_CFG_TAPS →
        Completes (.chnRunSet i) s (fun t => s.OnlyHalf t i ∧ (t.half i).flag CHN_CTL_RUN = false ∧ Half.RegsOnly h (t.half i)
          ∧ Half.Logged h (t.half i) errCHN_CFG_MISMATCH 0xFFFF ∧ Half.RegsBut h (t.half i) errAddrs))
      ∧ (o.flag CHN_CTL_RUN = false ∨ (o.fget CHN_CFG_LCODE = h.fget CHN_CFG_LCODE ∧ o.fget CHN_CFG_TAPS = h.fget CHN_CFG_TAPS) →
        Completes (.chnRunSet i) s (fun t => s.OnlyHalf t i ∧ (t.half i).flag CHN_CTL_RUN = true ∧ Half.FieldSet h (t.half i) CHN_CTL_RUN 1
          ∧ (t.half i).front.stopAt = none
          ∧ (∀ q, ((t.half i).inp q).last = none ∧ ((t.half i).inp q).warm = true ∧ ((t.half i).inp q).specs = [])
          ∧ Half.FrontOnly h (t.half i) ∧ Half.RegsBut h (t.half i) [CHN_CTL.at 0])))
    ∧ (h.flag CHN_CTL_RUN = true → ∀ b, Completes (.chnRunClear i b) s (fun t =>
        s.OnlyHalf t i ∧ (t.half i).flag CHN_CTL_RUN = false ∧ Half.FieldSet h (t.half i) CHN_CTL_RUN 0 ∧ (t.half i).front.stopAt = some b
        ∧ Half.FrontOnly h (t.half i) ∧ Half.RegsBut h (t.half i) [CHN_CTL.at 0])))
  ∧ (∀ (s : State) (i : HalfId), let h := s.half i
    s.Works i →
    (h.flag CHN_CTL_RUN = false → ∀ d : Word, Completes (.chnCoefDataWrite i d) s (fun t =>
      s.OnlyHalf t i ∧ SMap.find? (t.half i).front.coef (h.fget CHN_COEF_ADDR_ADDR) = some (max (-131071) (sext 18 d.toNat))
      ∧ (∀ a, a ≠ h.fget CHN_COEF_ADDR_ADDR → SMap.find? (t.half i).front.coef a = SMap.find? h.front.coef a)
      ∧ Half.FieldSet h (t.half i) CHN_COEF_ADDR_ADDR ((h.fget CHN_COEF_ADDR_ADDR + 1) % 131072)
      ∧ (t.half i).front = { h.front with coef := (t.half i).front.coef } ∧ Half.FrontOnly h (t.half i) ∧ Half.RegsBut h (t.half i) [CHN_COEF_ADDR.at 0]))
    ∧ (h.flag CHN_CTL_RUN = true → ∀ d : Word, Completes (.chnCoefDataWrite i d) s (fun t =>
      s.OnlyHalf t i ∧ Half.Logged h (t.half i) (errLockedWrite 9) 0xFFFF ∧ Half.RegsOnly h (t.half i) ∧ Half.RegsBut h (t.half i) errAddrs))
    ∧ (∀ pipe entry, Completes (.coefReloadDone i pipe entry true) s (fun t =>
      s.OnlyHalf t i ∧ (t.half i).front = { h.front with badCoef := h.front.badCoef.filter (· != (pipe, entry)) }
      ∧ Half.FrontOnly h (t.half i) ∧ Half.RegsBut h (t.half i) []))
    ∧ (∀ pipe entry, Completes (.coefReloadDone i pipe entry false) s (fun t =>
      s.OnlyHalf t i ∧ (t.half i).front = { h.front with masterBad := true } ∧ Half.Logged h (t.half i) errCOEF_FAIL 0xFFFF
      ∧ Half.FrontOnly h (t.half i) ∧ Half.RegsBut h (t.half i) errAddrs)))

/-! ### Delay, phase and requantisation (05_delay_phase_requant.md) -/

/-- R102, R104: a y-spectrum with final flags that the store may take is written: its codes to the row of its output spectrum and its deferred flags to the
flag plane, as `putRow` and `putFlags` lay them out, and the row's valid bit is set, unless a re-lay took its output frame; its record is used up, and the
state registers show its n_s and front delay. One for a spectrum already read is late: counted in DEV_LATE_CNT, its source raised once and its error logged;
one too far ahead is early: counted in DLY_EARLY_CNT and logged. Neither of these changes the store. R103: the next output spectrum of the frame
being read is read once; the read pointer moves to the one after it, and no row of it stays valid. Where it rests on a reading or a choice of the
model, that is log 17 and log 24. -/
def Obligations.DelayStore : Prop :=
  (∀ (s : State) (i : HalfId) (q n d : Nat) (sp : Spec) (sk : List Nat), let h := s.half i
    let sigma : Int := (n : Int) - sp.ns
    let row := sigma.toNat % h.storeRows
    let h1 := h.setInp q (fun x => { x with specs := SMap.erase x.specs n, deferred := SMap.erase x.deferred n })
    s.Works i → h.inHold = false → q < 256 → SMap.find? (h.inp q).specs n = some sp → SMap.find? (h.inp q).sk (n / h.skm) = some sk →
    h.dense q = some d → h.flag DLY_CTL_RUN = true → sp.storable = true →
    ((h.front.rp : Int) ≤ sigma → sigma < ((h.front.rp + h.storeRows : Nat) : Int) →
      Completes (.delayStoreWrite i q n) s (fun t => s.OnlyHalf t i
        ∧ (t.half i).hbm = ((h1.putRow row d sp.codes).putFlags d n (SMap.getD (h.inp q).deferred n 0) sk).hbm
        ∧ (h.front.voidBelow ≤ sigma.toNat / h.fspec → SMap.find? (t.half i).front.store (storeKey row d) = some n)
        ∧ (sigma.toNat / h.fspec < h.front.voidBelow → (t.half i).front.store = h.front.store)
        ∧ (∀ k, k ≠ storeKey row d → SMap.find? (t.half i).front.store k = SMap.find? h.front.store k)
        ∧ ((t.half i).inp q).specs = SMap.erase (h.inp q).specs n ∧ ((t.half i).inp q).written = some (n / h.fspec, sp.ns)
        ∧ (t.half i).fget DLY_STATE_0_NS q = wrapBits 16 sp.ns ∧ (t.half i).fget DLY_STATE_0_FDLY q = sp.fdly % 2 ^ 16
        ∧ (∀ p, p ≠ q → (t.half i).inp p = h.inp p) ∧ Half.StoreOnly h (t.half i)
        ∧ Half.RegsBut h (t.half i) ([DLY_STATE_0.at q, DLY_STATE_1.at q, DLY_STATE_2.at q] ++ errAddrs)))
    ∧ (sigma < (h.front.rp : Int) → Completes (.delayStoreWrite i q n) s (fun t => s.OnlyHalf t i
        ∧ Half.Counted h (t.half i) DEV_LATE_CNT 1 ∧ Half.RaisedOnce h (t.half i) 454 ∧ Half.Logged h (t.half i) errLATE_SPECTRUM 0xFFFF
        ∧ (t.half i).front.store = h.front.store ∧ (∀ p, p ≠ q → (t.half i).inp p = h.inp p)
        ∧ Half.FrontOnly h (t.half i) ∧ Half.RegsBut h (t.half i) (DEV_LATE_CNT.at 0 :: pendAddr 454 :: errAddrs)))
    ∧ ((h.front.rp : Int) ≤ sigma → ((h.front.rp + h.storeRows : Nat) : Int) ≤ sigma →
      Completes (.delayStoreWrite i q n) s (fun t => s.OnlyHalf t i
        ∧ Half.Counted h (t.half i) DLY_EARLY_CNT 1 ∧ Half.Logged h (t.half i) errDLY_EARLY 0xFFFF
        ∧ (t.half i).front.store = h.front.store ∧ (∀ p, p ≠ q → (t.half i).inp p = h.inp p)
        ∧ Half.FrontOnly h (t.half i) ∧ Half.RegsBut h (t.half i) (DLY_EARLY_CNT.at 0 :: errAddrs))))
  ∧ (∀ (s : State) (i : HalfId), let h := s.half i
    s.Works i → h.inHold = false → h.front.rp < h.front.rpEnd →
    Completes (.delayStoreRead i) s (fun t =>
      (t.half i).front.rp = h.front.rp + 1 ∧ (t.half i).front.rpEnd = h.front.rpEnd
      ∧ (t.half i).front.store = h.front.store.filter (fun e => e.1 / 256 != h.front.rp % h.storeRows)
      ∧ (t.half i.other).front = (s.half i.other).front ∧ t.pending = s.pending ∧ t.board = s.board))

/-- R109: with RUN cleared the delay block stops and no row of its store stays valid. R97: a gain word lands in the shadow table at DLY_GAIN_ADDR, which
advances, and takes effect in neither case yet; past the hand-over window it waits behind the shadow, and SHADOW_LATE is set, source 452 raised and the
error logged (R31). R94: the control word of a model entry lands in the shadow, or past the window behind it with SHADOW_LATE set, and arms the entry with
the words that stand in its shadow then. Nothing else changes. Where it rests on a reading or a choice of the model, that is log 15. -/
def Obligations.DelayTables : Prop :=
  ∀ (s : State) (i : HalfId), let h := s.half i
    let a := h.getN DLY_GAIN_ADDR % 2 ^ 18
    let late (t : State) : Prop := (t.half i).flag DEV_SHDW_CTL_SHADOW_LATE = true ∧ (t.half i).srcBit EVC_PENDING 452 = true
      ∧ Half.Logged h (t.half i) errSHADOW_LATE 0xFFFF
    s.Works i →
    Completes (.dlyRunClear i) s (fun t => s.OnlyHalf t i ∧ (t.half i).flag DLY_CTL_RUN = false ∧ Half.FieldSet h (t.half i) DLY_CTL_RUN 0
      ∧ (t.half i).front = { h.front with store := [] } ∧ Half.FrontOnly h (t.half i) ∧ Half.RegsBut h (t.half i) [DLY_CTL.at 0])
    ∧ (∀ d : Word, Completes (.dlyGainDataWrite i d false) s (fun t => s.OnlyHalf t i
      ∧ (t.half i).front = { h.front with gainShadow := (t.half i).front.gainShadow } ∧ SMap.find? (t.half i).front.gainShadow a = some (storedGain d)
      ∧ (∀ b, b ≠ a → SMap.find? (t.half i).front.gainShadow b = SMap.find? h.front.gainShadow b)
      ∧ (t.half i).getN DLY_GAIN_ADDR = (a + 1) % 2 ^ 18 ∧ Half.FrontOnly h (t.half i) ∧ Half.RegsBut h (t.half i) [DLY_GAIN_ADDR.at 0]))
    ∧ (∀ d : Word, Completes (.dlyGainDataWrite i d true) s (fun t => s.OnlyHalf t i
      ∧ (t.half i).front = { h.front with gainLate := (t.half i).front.gainLate } ∧ SMap.find? (t.half i).front.gainLate a = some (storedGain d)
      ∧ (∀ b, b ≠ a → SMap.find? (t.half i).front.gainLate b = SMap.find? h.front.gainLate b)
      ∧ late t ∧ (t.half i).getN DLY_GAIN_ADDR = (a + 1) % 2 ^ 18 ∧ Half.FrontOnly h (t.half i)
      ∧ Half.RegsBut h (t.half i) (DLY_GAIN_ADDR.at 0 :: DEV_SHDW_CTL.at 0 :: pendAddr 452 :: errAddrs)))
    ∧ (∀ (q : Nat) (d : Word), q < 256 → Completes (.dlyModelArm i q d false) s (fun t => s.OnlyHalf t i
      ∧ SMap.find? (t.half i).front.armed q = some (modelRegs.map (fun r => SMap.find? (t.half i).shadow (r.at q)))
      ∧ (∀ p, p ≠ q → SMap.find? (t.half i).front.armed p = SMap.find? h.front.armed p)
      ∧ (t.half i).front = { h.front with armed := (t.half i).front.armed }
      ∧ SMap.find? (t.half i).shadow (DLY_MODEL_12.at q) = some (d &&& 0x8000FFFF)
      ∧ (∀ b, b ≠ DLY_MODEL_12.at q → SMap.find? (t.half i).shadow b = SMap.find? h.shadow b)
      ∧ Half.FrontOnly { h with shadow := (t.half i).shadow } (t.half i) ∧ Half.RegsBut h (t.half i) []))
    ∧ (∀ (q : Nat) (d : Word), q < 256 → Completes (.dlyModelArm i q d true) s (fun t => s.OnlyHalf t i
      ∧ SMap.find? (t.half i).front.armedLate q = some (modelRegs.map (fun r =>
          (SMap.find? (t.half i).shadowLate (r.at q)).or (SMap.find? h.shadow (r.at q))))
      ∧ (∀ p, p ≠ q → SMap.find? (t.half i).front.armedLate p = SMap.find? h.front.armedLate p)
      ∧ (t.half i).front = { h.front with armedLate := (t.half i).front.armedLate }
      ∧ SMap.find? (t.half i).shadowLate (DLY_MODEL_12.at q) = some (d &&& 0x8000FFFF)
      ∧ (∀ b, b ≠ DLY_MODEL_12.at q → SMap.find? (t.half i).shadowLate b = SMap.find? h.shadowLate b)
      ∧ late t ∧ Half.FrontOnly { h with shadowLate := (t.half i).shadowLate } (t.half i)
      ∧ Half.RegsBut h (t.half i) (DEV_SHDW_CTL.at 0 :: pendAddr 452 :: errAddrs)))

/-! ### The Plaza exchange and the corner turn (06_exchange_cornerturn.md) -/

/-- R113, R119: HELLO, PROBE, ECHO and CREDIT blocks go out on a live lane with what the rules put in them; a CREDIT gives back what the lane's share of the
landing buffer leaves, and nothing else of the machine changes. R114: a HELLO holds the group for its wiring or its configuration, moves HELLO to MEASURE, and
moves HELD to MEASURE once the cause is gone; in any other state it tells only whether the peer is ready. R115: an exchange of MEASURE is summed, the
sixteenth gives the lane's latency, and once every live lane has its latency the group is READY, or held above 4 µs; later the latency follows by 1/16. R116: a TICK block of the local frame gives θ, which is logged
beyond the threshold and holds the group beyond 6 µs; one of another frame holds it. R119: credits come back to the sender of a lane, which spends
each on a block that waited. Where it rests on a reading or a choice of the model, that is log 18. -/
def Obligations.ExchangeControlBlocks : Prop :=
  (∀ (s : State) (i : HalfId) (n p : Nat), let h := s.half i
    s.LiveLane i n p →
    Completes (.helloSend i n) s (fun t => s.OnlyHalf t i ∧ (t.half i).out = h.out ++ [.kradel n (h.ctlBlock 2 (s.helloBody i n p))]
      ∧ Half.RegsOnly h (t.half i) ∧ Half.RegsBut h (t.half i) [])
    ∧ (∀ t1, Completes (.probeSend i n t1) s (fun t => s.OnlyHalf t i ∧ (t.half i).out = h.out ++ [.kradel n (h.ctlBlock 4 (leBytes 8 t1))]
      ∧ Half.RegsOnly h (t.half i) ∧ Half.RegsBut h (t.half i) []))
    ∧ (∀ bs t2 t3, ctlOk 4 bs = true → Completes (.probeReceived i n bs t2 t3) s (fun t => s.OnlyHalf t i
      ∧ (t.half i).out = h.out ++ [.kradel n (h.ctlBlock 5 (slice bs 4 8 ++ leBytes 8 t2 ++ leBytes 8 t3))]
      ∧ Half.RegsOnly h (t.half i) ∧ Half.RegsBut h (t.half i) []))
    ∧ ((h.xlane n).given + (h.xlane n).waits < h.xch.allot → Completes (.creditSend i n) s (fun t => s.OnlyHalf t i
      ∧ (t.half i).out = h.out ++ [.kradel n (h.ctlBlock 6 (leBytes 2 (h.xch.allot - (h.xlane n).given - (h.xlane n).waits)))]
      ∧ ((t.half i).xlane n).given + (h.xlane n).waits = h.xch.allot
      ∧ (∀ m, m ≠ n → (t.half i).xlane m = h.xlane m) ∧ Half.XchOnly h (t.half i) ∧ Half.RegsBut h (t.half i) [])))
  ∧ (∀ (s : State) (i : HalfId) (n p : Nat) (bs : List Byte), let h := s.half i
    let st := h.linkState p
    let wired := bits (byteAt bs 3) 3 0 = p ∧ bits (byteAt bs 3) 7 7 = halfBit h.id
    let alike := slice bs 4 8 = h.helloConfig ∧ fieldAt bs 16 2 = h.depth
    s.LiveLane i n p → ctlOk 2 bs = true →
    (¬ wired → Completes (.helloReceived i n bs) s (fun t => Half.IsHeld h (t.half i) p 1 errXCH_WIRING ∧ s.LinkFrame t i [XCH_LINK_STAT_0.at p]))
    ∧ (wired → ¬ alike → Completes (.helloReceived i n bs) s (fun t =>
        Half.IsHeld h (t.half i) p 2 errPEER_CONFIG ∧ s.LinkFrame t i [XCH_LINK_STAT_0.at p]))
    ∧ (wired → alike →
        let stays := st = xlHeld ∧ ((h.fget XCH_LINK_STAT_0_REASON p = 3 ∧ h.latencyOk p = false)
          ∨ (h.fget XCH_LINK_STAT_0_REASON p = 4 ∧ (h.link p).tickOk = false))
        Completes (.helloReceived i n bs) s (fun t => ((t.half i).link p).peerReady = bit (byteAt bs 12) 0
          ∧ ((st = xlHello ∨ st = xlHeld) ∧ ¬ stays → (t.half i).linkState p = xlMeasure ∧ (t.half i).fget XCH_LINK_STAT_0_REASON p = 0
              ∧ ((t.half i).xlane n).cnt = 0 ∧ ((t.half i).xlane n).sum = 0)
          ∧ ((st ≠ xlHello ∧ st ≠ xlHeld) ∨ stays → (t.half i).linkState p = st ∧ (t.half i).xch.lanes = h.xch.lanes)
          ∧ s.LinkFrame t i [XCH_LINK_STAT_0.at p])))
  ∧ (∀ (s : State) (i : HalfId) (n p : Nat) (bs : List Byte) (ofs : Int), let h := s.half i
    let st := h.linkState p
    let theta := ofs - h.groupLat p / 2 ^ 16
    s.LiveLane i n p → ctlOk 3 bs = true → xlHello ≤ st →
    (fieldAt bs 4 6 ≠ h.frame → Completes (.tickBlockReceived i n bs ofs) s (fun t =>
      Half.IsHeld h (t.half i) p 4 errPEER_CONFIG ∧ ((t.half i).link p).tickOk = false ∧ s.LinkFrame t i [XCH_LINK_STAT_0.at p]))
    ∧ (fieldAt bs 4 6 = h.frame → Completes (.tickBlockReceived i n bs ofs) s (fun t => let g := t.half i
      g.getN XCH_LINK_STAT_2 p = wrapBits 32 theta ∧ (g.link p).theta = theta ∧ (g.link p).tickAt = some h.frame ∧ (g.link p).tickOk = true
      ∧ (h.fget XCH_CFG_OFS_THR ≠ 0 → h.fget XCH_CFG_OFS_THR * 10000 < theta.natAbs → Half.Logged h g errPLAZA_SKEW 0xFFFF)
      ∧ (if xlReady ≤ st ∧ st ≠ xlHeld ∧ 6 * 10 ^ 6 * 2 ^ 16 < g.groupReach p then g.linkState p = xlHeld ∧ g.fget XCH_LINK_STAT_0_REASON p = 3
         else g.linkState p = st)
      ∧ s.LinkFrame t i [XCH_LINK_STAT_0.at p, XCH_LINK_STAT_2.at p])))
  ∧ (∀ (s : State) (i : HalfId) (n p : Nat) (bs : List Byte) (t4 : Nat), let h := s.half i
    let x := h.xlane n
    let sample : Int := (((t4 : Int) - (fieldAt bs 4 8 : Int)) - ((fieldAt bs 20 8 : Int) - (fieldAt bs 12 8 : Int))) * 2 ^ 15
    let others (g : Half) : Prop := ∀ m, m ≠ n → (g.xlane m).lat = (h.xlane m).lat ∧ (g.xlane m).cnt = (h.xlane m).cnt
    let ends (g : Half) (far : Prop) [Decidable far] (good : Nat) : Prop := g.getN XCH_LINK_STAT_1 p = (g.groupLat p / 2 ^ 16).toNat % 2 ^ 32
      ∧ (if far then g.linkState p = xlHeld ∧ g.fget XCH_LINK_STAT_0_REASON p = 3 else g.linkState p = good)
    s.LiveLane i n p → ctlOk 5 bs = true →
    (h.linkState p = xlMeasure → x.cnt < 15 → Completes (.echoReceived i n bs t4) s (fun t => let g := t.half i
        s.OnlyHalf t i ∧ (g.xlane n).cnt = x.cnt + 1 ∧ (g.xlane n).sum = x.sum + sample
        ∧ others g ∧ g.linkState p = xlMeasure ∧ Half.XchOnly h g ∧ Half.RegsBut h g []))
    ∧ (h.linkState p = xlMeasure → x.cnt = 15 → (∀ m ∈ h.liveLanes p, m ≠ n → (h.xlane m).cnt = 16) →
        Completes (.echoReceived i n bs t4) s (fun t => let g := t.half i
          (g.xlane n).cnt = 16 ∧ (g.xlane n).lat = (x.sum + sample) / 16 ∧ others g
          ∧ ends g (4 * 10 ^ 6 * 2 ^ 16 < g.groupLat p) xlReady ∧ s.LinkFrame t i [XCH_LINK_STAT_0.at p, XCH_LINK_STAT_1.at p]))
    ∧ (xlMeasure < h.linkState p → 0 < x.cnt → Completes (.echoReceived i n bs t4) s (fun t => let g := t.half i
          (g.xlane n).lat = x.lat + (sample - x.lat) / 16 ∧ others g
          ∧ ends g (h.linkState p ≠ xlHeld ∧ (4 * 10 ^ 6 * 2 ^ 16 < g.groupLat p ∨ 6 * 10 ^ 6 * 2 ^ 16 < g.groupReach p)) (h.linkState p)
          ∧ s.LinkFrame t i [XCH_LINK_STAT_0.at p, XCH_LINK_STAT_1.at p])))
  ∧ (∀ (s : State) (i : HalfId) (n p : Nat) (bs : List Byte), let h := s.half i
    let sentOn (g : Half) : Nat := ((g.out.drop h.out.length).filter (fun e => match e with | .kradel m _ => m == n | _ => false)).length
    s.LiveLane i n p → ctlOk 6 bs = true →
    Completes (.creditReceived i n bs) s (fun t => ((t.half i).xlane n).credits + sentOn (t.half i) = (h.xlane n).credits + fieldAt bs 4 2
      ∧ (t.half i).out.take h.out.length = h.out)
    ∧ ((∀ j d, ((s.half j).link d).queue = []) → Completes (.creditReceived i n bs) s (fun t => s.OnlyHalf t i
        ∧ ((t.half i).xlane n).credits = (h.xlane n).credits + fieldAt bs 4 2 ∧ (∀ m, m ≠ n → (t.half i).xlane m = h.xlane m)
        ∧ (t.half i).out = h.out ∧ Half.XchOnly h (t.half i) ∧ Half.RegsBut h (t.half i) [])))

/-- R120, R122: a whole data block for this half that passes Table XCH-4, over a group in service, whose frame is being landed and whose place is empty, lands
in the corner-turn buffer of its frame: its mark is set, its runs are in the memory as `putRuns` turns them, and it is counted. R120, R126: a block with a bad
codeword or CRC is counted BAD and lands nowhere. R11, R117: nor does any block land over a group that carries nothing. R119, R120: a block for the other half
crosses the die bridge, while that has a credit. R117, R123, R124: the landing instant hands the buffer of frame k − Δ to the Arcade once and counts the
blocks it misses, and an Arcade that runs takes up the frame at its first op; a cleared RUN takes every group to DOWN and drops what waited to land. Where it rests on a reading or a choice of the model, that is
log 18. -/
def Obligations.CornerTurn : Prop :=
  (∀ (s : State) (i : HalfId) (n p : Nat) (bs : List Byte), let h := s.half i
    let j := blkSigma bs / h.fspec
    let seen := h.takeSeq p n (fieldAt bs 14 2)
    let noted := [XCH_LINK_STAT_6.at p] ++ errAddrs
    s.LiveLane i n p →
    (h.inHold = false → h.linkInService p = true → crcGood bs = true → h.blockFormatOk p bs = true → blkDstHalf bs = halfBit i →
      h.xch.closed ≤ j → j + h.depth ≤ h.frame → (h.ctBuf j).contains (h.ctKey bs) = false →
      Completes (.dataBlockReceived i n .good bs) s (fun t => s.OnlyHalfBoth t i
        ∧ (t.half i).ctBuf j = h.ctKey bs :: h.ctBuf j ∧ (t.half i).ctBuf (j + 1) = h.ctBuf (j + 1)
        ∧ (t.half i).hbm = (Half.putRuns (seen.setCtBuf j (h.ctKey bs :: h.ctBuf j)) bs).hbm
        ∧ Half.Counted h (t.half i) XCH_LINK_STAT_4 1 p ∧ (t.half i).xch.waiting = h.xch.waiting
        ∧ Half.CornerOnly h (t.half i) ∧ Half.RegsBut h (t.half i) (XCH_LINK_STAT_4.at p :: noted)))
    ∧ (∀ integrity, h.carries p j = true → integrity = .bad ∨ crcGood bs = false →
      Completes (.dataBlockReceived i n integrity bs) s (fun t => s.OnlyHalfBoth t i
        ∧ Half.Counted h (t.half i) XCH_LINK_STAT_6 1 p ∧ Half.Logged h (t.half i) errXCH_BAD 0xFFFF
        ∧ (t.half i).xch.ct0 = h.xch.ct0 ∧ (t.half i).xch.ct1 = h.xch.ct1 ∧ (t.half i).xch.waiting = h.xch.waiting ∧ Half.XchOnly h (t.half i)
        ∧ Half.RegsBut h (t.half i) noted))
    ∧ (∀ integrity, h.carries p j = false → Completes (.dataBlockReceived i n integrity bs) s (fun t => s.OnlyHalfBoth t i
        ∧ (t.half i).xch.ct0 = h.xch.ct0 ∧ (t.half i).xch.ct1 = h.xch.ct1 ∧ (t.half i).xch.waiting = h.xch.waiting ∧ Half.XchOnly h (t.half i)
        ∧ Half.RegsBut h (t.half i) []))
    ∧ (h.linkInService p = true → crcGood bs = true → h.blockFormatOk p bs = true → blkDstHalf bs ≠ halfBit i →
      h.xch.closed ≤ j → j ≤ h.frame → s.board.bridgeUp = true → (s.half i.other).mainUp = true → h.xch.bridgeQ = [] →
      (s.half i.other).bridgeRoom (bs.take 4120) = true →
      Completes (.dataBlockReceived i n .good bs) s (fun t => (t.half i).out = h.out ++ [.bridgeBlock (bs.take 4120)]
        ∧ (t.half i).xch.ct0 = h.xch.ct0 ∧ (t.half i).xch.ct1 = h.xch.ct1 ∧ (t.half i).hbm = h.hbm
        ∧ Half.CornerOnly (s.half i.other) (t.half i.other) ∧ Half.XchOnly h (t.half i))))
  ∧ (∀ (s : State) (i : HalfId), let h := s.half i
    let j := h.frame - h.delta
    s.Works i →
    (h.inHold = false → h.delta ≤ h.frame → h.xch.closed ≤ j → h.xch.handed ≠ some j → Completes (.landingInstant i) s (fun t =>
      s.OnlyHalf t i ∧ (t.half i).xch.handed = some j ∧ (t.half i).xch.closed = j + 1
      ∧ Half.Counted h (t.half i) XCH_CT_MISS (h.fspec * h.plazaBlocks * h.groupsPerHalf - (h.ctBuf j).length)
      ∧ (t.half i).xch.ct0 = h.xch.ct0 ∧ (t.half i).xch.ct1 = h.xch.ct1
      ∧ (h.arcGoes = true → ∃ r, (t.half i).arc.run = some r ∧ r.frame = j ∧ r.pc = 0 ∧ r.o = 0 ∧ r.blk = 0 ∧ r.closed = [])))
    ∧ Completes (.xchRunClear i) s (fun t => (t.half i).flag XCH_CTL_RUN = false
      ∧ (∀ p, p < 16 → p ≠ h.ord → (t.half i).linkState p = xlDown) ∧ (t.half i).xch.waiting = [] ∧ (t.half i).xch.lanes = []
      ∧ (t.half i).xch.bridgeQ = [] ∧ (t.half i).xch.ct0 = h.xch.ct0 ∧ (t.half i).xch.ct1 = h.xch.ct1 ∧ s.OnlyHalf t i ∧ Half.XchOnly h (t.half i)
      ∧ Half.RegsBut h (t.half i) (XCH_CTL.at 0 :: (errAddrs ++ (List.range 16).flatMap (fun p => [XCH_LINK_STAT_0.at p, XCH_LINK_STAT_1.at p, XCH_LINK_STAT_2.at p])))))

/-! ### The Arcade and the Courtyard (07_arcade_courtyard.md) -/

/-- R146 to R148: NOP does nothing, SYNC goes on once every pass has left, LOOP begins its first iteration or skips an empty body, and a reserved or
ill-formed op is discarded, logged and kept in ARC_BADOP; each moves the sequencer to the next op. R147, R150 to R152: OPEN, once its slots and records have
drained and the folder holds none of them, tags its slots, and zeroes both and takes their suspect marks away; CLOSE, once its block has drained, hands it to
the folder as its youngest block, bad where a slot of it is suspect. Nothing outside the Arcade changes but for that and the error record, and where no finished
pass waits to drain, nothing in it but the words named and which passes run. Where it rests on a reading or a choice of the model, that is log 20. -/
def Obligations.SequencerOps : Prop :=
  ∀ (s : State) (i : HalfId) (r : ArcRun), let h := s.half i
    let moved (t : State) (r' : ArcRun) : Prop := s.OnlyHalf t i ∧ (t.half i).arc.run = some (h.stepPc r')
    let plain (t : State) (r' : ArcRun) : Prop := moved t r' ∧ Half.ArcFrame h (t.half i)
      ∧ (h.NoDrain → (t.half i).arc = { h.arc with run := some (h.stepPc r'), passes := (t.half i).arc.passes }
          ∧ (t.half i).arc.passes.length = h.arc.passes.length)
    (s.AtOp i r .nop → Completes (.arcOpNop i) s (fun t => plain t r ∧ (h.NoDrain → Half.RegsBut h (t.half i) [ARC_STAT.at 0])))
    ∧ (s.AtOp i r .sync → h.arc.passes = [] → Completes (.arcOpSync i) s (fun t => plain t r ∧ Half.RegsBut h (t.half i) [ARC_STAT.at 0]))
    ∧ (∀ body count, s.AtOp i r (.loop body count) →
      (0 < body → 0 < count → Completes (.arcOpLoop i) s (fun t => plain t { r with loop := some (r.pc + 1, body, count, 0) }))
      ∧ (body = 0 ∨ count = 0 → Completes (.arcOpLoop i) s (fun t => plain t { r with pc := r.pc + body })))
    ∧ (s.AtOp i r .bad → Completes (.arcOpReserved i) s (fun t => plain t r ∧ (t.half i).fget ARC_BADOP_INDEX = h.opIndex r % 2 ^ 12
      ∧ (t.half i).fget ARC_BADOP_OPC = ((h.opWords (h.opIndex r)).getD 0 0).toNat / 2 ^ 28
      ∧ (h.NoDrain → Half.Logged h (t.half i) errARC_BAD_OP 0xFFFF ∧ Half.RegsBut h (t.half i) ([ARC_BADOP.at 0, ARC_STAT.at 0] ++ errAddrs))))
    ∧ (∀ bank tag slot count tcount trec, let a := h.slotOf r bank slot
      s.AtOp i r (.open_ bank tag slot count tcount trec) → h.drained a count trec tcount none = true → h.released a count = true →
      Completes (.arcOpOpen i) s (fun t => let g := t.half i
        moved t r ∧ Half.ArcFrame h g
        ∧ (∀ n, n < count → SMap.find? g.arc.tags (a + n) = some tag)
        ∧ (∀ n, ¬ (a ≤ n ∧ n < a + count) → SMap.find? g.arc.tags n = SMap.find? h.arc.tags n)
        ∧ (h.NoDrain → (∀ n, n < count * slotWords → g.cyWord (a * slotWords + n) = 0) ∧ (∀ n, n < tcount * recWords → g.cyWord (trec * recWords + n) = 0)
            ∧ (∀ x, ¬ (a * slotWords ≤ x ∧ x < (a + count) * slotWords) → ¬ (trec * recWords ≤ x ∧ x < (trec + tcount) * recWords) → g.cyWord x = h.cyWord x)
            ∧ (∀ n, n < count → g.slotSuspect (a + n) = false) ∧ (∀ n, n < tcount → g.recSuspect (trec + n) = false))))
    ∧ (∀ bank part slot count, let a := h.slotOf r bank slot
      s.AtOp i r (.close bank part slot count) → h.blockDrained r = true →
      Completes (.arcOpClose i) s (fun t => let g := t.half i
        moved t { r with blk := r.blk + 1, closed := (r.sub, r.blk) :: r.closed } ∧ Half.ArcFrame { h with lta := g.lta } g
        ∧ (h.NoDrain → g.arc.cy = h.arc.cy)
        ∧ (∃ b, g.lta = { h.lta with blocks := h.lta.blocks ++ [b] } ∧ b.frame = r.frame ∧ b.sub = r.sub ∧ b.o = r.o ∧ b.blk = r.blk ∧ b.part = part
            ∧ b.slot = a ∧ b.count = count ∧ (b.bad = false → ∀ n, n < count → h.slotSuspect (a + n) = false))))

/-- R147, R149: STAGE fills the stripe buffer of its iteration once no pass reads it, with the codes that `stageData` gives; XT issues a pass for each tile of its
sweep, or one for its quadrants, onto slots and records that are not suspect and whose TAG it needs, and on the first slot of another TAG it is
discarded and logged and the slot and record are suspect (R152); BT issues a pass for each window of the stripe. R137, R140, R142: a pass ends on its bay, its cycles and its
waits are counted, and where it is the only one and its slot or hand-off slot is free its sums and counts are added into its slot and record, or its cells handed
to the post-processor. R168, R169: a LAST drain writes its record to the spill buffer, zeroes it and leaves; a record outside the spill area makes its slot
suspect. Where it rests on a reading or a choice of the model, that is log 20. -/
def Obligations.PassesIssueAndDrain : Prop :=
  (∀ (s : State) (i : HalfId) (r : ArcRun), let h := s.half i
    (∀ sc na ga nb gb, s.AtOp i r (.stage sc na ga nb gb) → h.arc.passes.any (fun p => p.status < 2 && p.s % 2 == r.iter % 2) = false →
      let sst := 512 * 2 ^ sc
      let codes := (h.stageData r sst (stageBlocks na ga nb gb)).1
      Completes (.arcOpStage i) s (fun t => let g := t.half i
        s.OnlyHalf t i ∧ g.stripe r.iter = some ⟨r.iter, sst, r.o, stageBlocks na ga nb gb, na⟩ ∧ g.stripe (r.iter + 1) = h.stripe (r.iter + 1)
        ∧ g.arc.run = some (h.stepPc { r with stripe := some r.iter }) ∧ Half.ArcFrame { h with hbm := g.hbm } g ∧ g.hbm.mem = h.hbm.mem
        ∧ (h.NoDrain → g.arc.cy = (h.cyWrite (h.stageBase + r.iter % 2 * stripeWords) (toWords codes)).arc.cy)))
    ∧ (∀ shape amode k last bank tri slot tcnt trec w3 st, s.AtOp i r (.xt shape amode k last bank tri slot tcnt trec w3) →
      h.curStripe r = some st → h.flag ARC_CTL_SUSPEND = false →
      let a := h.slotOf r bank slot
      let tiles := if shape = 0 then (sweep tri st.na (st.blocks.length - st.na)).length else 1
      let tag := (if shape = 0 then 1 else 3) + b2n (amode == 2)
      Completes (.arcOpXt i) s (fun t => let g := t.half i
        s.OnlyHalf t i ∧ g.arc.run = some (h.stepPc r) ∧ Half.ArcFrame h g
        ∧ (h.NoDrain → g.arc.cy = h.arc.cy
            ∧ ((∀ n, n < tiles → h.slotSuspect (a + n) = false ∧ h.recSuspect (trec + n) = false ∧ SMap.getD h.arc.tags (a + n) 0 = tag) →
                g.arc.passes.length = h.arc.passes.length + tiles)
            ∧ (0 < tiles → h.slotSuspect a = false → h.recSuspect trec = false → SMap.getD h.arc.tags a 0 ≠ tag →
                g.slotSuspect a = true ∧ g.recSuspect trec = true ∧ Half.Logged h g errARC_SLOT_FORMAT 0xFFFF
                ∧ (tiles = 1 → g.arc.passes.length = h.arc.passes.length)))))
    ∧ (∀ shape grp nib inb st, s.AtOp i r (.bt shape grp nib inb) → h.curStripe r = some st → h.flag ARC_CTL_SUSPEND = false →
      h.tableIn r.sub = true → Completes (.arcOpBt i) s (fun t => let g := t.half i
        s.OnlyHalf t i ∧ g.arc.run = some (h.stepPc r) ∧ Half.ArcFrame h g
        ∧ (h.NoDrain → g.arc.cy = h.arc.cy ∧ g.arc.passes.length = h.arc.passes.length + st.sst / windowLen shape))))
  ∧ (∀ (s : State) (i : HalfId), let h := s.half i
    s.Works i → h.inHold = false → h.arc.contained = false →
    (∀ bay q stall p ecc, h.passOn bay = some p → h.bayOf bay = some q → h.bayState q = bayActive →
      h.arc.passes.any (fun x => 2 ≤ x.status && x.bay == bay) = false →
      Completes (.passEnd i bay stall ecc) s (fun t => let g := t.half i
        s.OnlyHalf t i ∧ g.arc.used = h.arc.used + p.len ∧ Half.Counted h g ARC_STALL stall ∧ Half.ArcFrame h g ∧ g.arc.run = h.arc.run
        ∧ (p.shape < 2 → h.arc.passes = [p] → ecc = [] → h.slotHeld p.slot = false → h.slotSuspect p.slot = false → h.recSuspect p.trec = false →
            SMap.getD h.arc.tags p.slot 0 = p.tag →
            let d := h.passDone p p.sst
            g.arc.passes = (if p.last then [{ d with status := 3, init := [] }] else []) ∧ g.arc.cy = (h.addPass { d with status := 2 }).arc.cy)
        ∧ (2 ≤ p.shape → h.arc.passes = [p] → ecc = [] → h.arc.hand.any (fun x => x.idx == h.arc.handNext) = false →
            (h.groupsAhead p).all (fun n => p.winStart == 0 && p.grp ≤ n) = true →
            g.arc.passes = [] ∧ g.arc.handNext = (h.arc.handNext + 1) % 32
            ∧ g.arc.hand = h.arc.hand ++ [⟨h.arc.handNext, p.frame, p.sub, p.o, p.blk, h.windowChan p, h.windowSpec p, p.grp, p.shape⟩]))))
  ∧ (∀ (s : State) (i : HalfId) (rec : Nat) (p : Pass), let h := s.half i
    s.Works i → (h.arc.contained = true → h.NoDrain) → h.arc.passes.find? (fun p => p.status == 3 && p.trec == rec) = some p → h.spillFree p.blk = true →
      Completes (.lastDrainSpill i rec) s (fun t => let g := t.half i
        s.OnlyHalf t i ∧ Half.ArcFrame { h with hbm := g.hbm } g
        ∧ (h.spillArea.holds rec = true → (p.frame, p.sub, p.blk, rec) ∈ g.arc.spills
            ∧ g.hbm = (h.memWrite (h.spillArea.addr (p.blk % 2) rec) (h.cyBytes (rec * recWords) recWords)).hbm)
        ∧ (h.spillArea.holds rec = false → g.arc.spills = h.arc.spills ∧ g.hbm = h.hbm)
        ∧ (h.NoDrain → (∀ n, n < recWords → g.cyWord (rec * recWords + n) = 0)
            ∧ (∀ x, ¬ (rec * recWords ≤ x ∧ x < (rec + 1) * recWords) → g.cyWord x = h.cyWord x)
            ∧ g.arc.passes.length + 1 = h.arc.passes.length ∧ (h.spillArea.holds rec = false → g.slotSuspect p.slot = true))))

/-- R157: SAVE, once its slots have drained and the folder has released them, writes the context image of its slots, with its records and the halted bay's pass where
it asks for them, at its address and no other byte. R158: RESTORE of a good image writes its slots, marks and records back, and the bay's pass where it asks for
that; an image without its signature and version, outside the memory, or in error leaves the Courtyard as it is, marks the slots suspect and logs. Where it
rests on a reading or a choice of the model, that is log 20. -/
def Obligations.Contexts : Prop :=
  ∀ (s : State) (i : HalfId) (r : ArcRun) (bank : Bool) (bay : Nat) (cells tally : Bool) (slot trec count addr : Nat), let h := s.half i
    let a := h.slotOf r bank slot
    let free := h.drained a count trec (if tally then count else 0) (if cells then some bay else none) = true ∧ h.released a count = true
    (s.AtOp i r (.save bank bay cells tally slot trec count addr) → free →
      let img := h.contextImage r (h.nextPart r) a trec count tally (if cells then (h.passOn bay).map (fun p => (bay, p)) else none)
      Completes (.arcOpSave i) s (fun t => let g := t.half i
        s.OnlyHalf t i ∧ g.arc.run = some (h.stepPc r) ∧ g.hbm = (h.memWrite (addr * 4096) img).hbm
        ∧ Half.BytesBut h g (addr * 4096) img.length ∧ Half.ArcFrame { h with hbm := g.hbm } g ∧ (h.NoDrain → g.arc.cy = h.arc.cy)))
    ∧ (s.AtOp i r (.restore bank bay cells tally slot trec count addr) → free →
      let head := h.memRead (addr * 4096) 64
      let len := imageLen head.1.1 + 4
      let img := head.2.memRead (addr * 4096) len
      let headed := fieldAt head.1.1 0 2 == 0x4358 && byteAt head.1.1 2 == 1 && inHbm (addr * 4096) len
      let fits := fieldAt head.1.1 0 2 = 0x4358 ∧ byteAt head.1.1 2 = 1 ∧ inHbm (addr * 4096) len = true ∧ img.1.2 = false ∧ crcGood img.1.1 = true
      let back := img.2.restoreSlots img.1.1 a trec count tally
      Completes (.arcOpRestore i) s (fun t => let g := t.half i
        s.OnlyHalf t i ∧ g.arc.run = some (h.stepPc r) ∧ g.hbm.mem = h.hbm.mem ∧ Half.ArcFrame { h with hbm := g.hbm } g
        ∧ (fits → g.arc.tags = back.arc.tags ∧ (h.NoDrain → g.arc.cy = back.arc.cy)
            ∧ (h.NoDrain → cells = true → g.passOn bay = (back.restoreCells r img.1.1 bay).passOn bay))
        ∧ (¬ fits → g.arc.tags = h.arc.tags ∧ (h.NoDrain → g.arc.cy = h.arc.cy
            ∧ (∀ n, n < count → g.slotSuspect (a + n) = true) ∧ Half.Logged (if headed then img.2 else head.2) g errCY_CTX_CRC 0xFFFF))))

/-- R159: a fault of a working bay fences it, counts it and raises its source, keeps every pass, and orders admission anew; in a fenced bay it is counted, and
where the bay was fenced since the last tick the half Arcade is contained (R161); in a FAILED bay it does nothing. R156: SUSPEND and the halt word read as
written, and bays that the word no longer halts go on; a bay whose next pass has run AT cycles halts with its cells as they stand. R27: the overrun of a frame
whose bound has come abandons it, keeping LAST drains, and raises the source where a block was not closed. R154, R162: a cleared RUN abandons the frame; a program word is stored at ADDR,
which advances, unless it lies in a running subarray's program, where it is refused and logged. Where it rests on a reading or a choice of the model,
that is log 20 and log 21 and log 47. -/
def Obligations.BaysAndStops : Prop :=
  (∀ (s : State) (i : HalfId) (p cause : Nat) (draining : Bool), let h := s.half i
    let counted (t : State) : Prop := s.OnlyHalf t i ∧ (t.half i).fget ARC_BAY_STAT_CAUSE p = cause
      ∧ (t.half i).fget ARC_BAY_STAT_FAULTS p = min (h.fget ARC_BAY_STAT_FAULTS p + 1) 255
    s.Works i → h.arc.contained = false → p < 66 → cause < 8 →
    (h.bayState p = bayFailed → Completes (.bayFault i p cause draining) s (fun t => s.OnlyHalf t i ∧ Half.RegsOnly h (t.half i) ∧ Half.RegsBut h (t.half i) []))
    ∧ (h.bayState p = bayFenced → Completes (.bayFault i p cause draining) s (fun t => counted t ∧ (t.half i).bayState p = bayFenced
        ∧ (h.arc.fenced.contains p = false → (t.half i).arc = h.arc)
        ∧ (h.arc.fenced.contains p = true → (t.half i).arc.contained = true ∧ (t.half i).arc.run = none)))
    ∧ (h.bayState p ≠ bayFailed → h.bayState p ≠ bayFenced → Completes (.bayFault i p cause draining) s (fun t => let g := t.half i
        counted t ∧ g.bayState p = bayFenced ∧ p ∈ g.arc.fenced ∧ g.exy.recompute = true ∧ g.srcBit EVC_PENDING (384 + p) = true
        ∧ Half.ArcFrame h g ∧ g.arc.run = h.arc.run
        ∧ (h.NoDrain → g.arc.cy = h.arc.cy ∧ g.arc.passes.length = h.arc.passes.length
            ∧ (∀ ss rs, draining = true ∨ cause = 3 → SMap.find? h.arc.lastDrain (h.bayLogical p) = some (ss, rs) →
                (∀ x ∈ ss, g.slotSuspect x = true) ∧ (∀ x ∈ rs, g.recSuspect x = true))))))
  ∧ (∀ (s : State) (i : HalfId), let h := s.half i
    s.Works i → (h.arc.contained = true → h.NoDrain) →
    (∀ v, Completes (.arcSuspend i v) s (fun t => s.OnlyHalf t i ∧ Half.FieldSet h (t.half i) ARC_CTL_SUSPEND (b2n v)
        ∧ (t.half i).arc.run = h.arc.run ∧ Half.ArcFrame h (t.half i)))
    ∧ (∀ w : Word, Completes (.arcHalt i w) s (fun t => let g := t.half i
        let asked (p : Nat) : Bool := g.flag ARC_DBG_HALT && g.fget ARC_DBG_BAY == h.bayLogical p
        s.OnlyHalf t i ∧ g.getN ARC_DBG = w.toNat &&& 0x803FFFFF ∧ g.arc.run = h.arc.run ∧ Half.ArcFrame h g
        ∧ (h.NoDrain → ∀ p, p < 66 → g.bayState p = (if h.bayState p = bayHalted ∧ asked p = false then bayActive else h.bayState p))))
    ∧ (∀ p q, let n := h.fget ARC_DBG_AT
        h.flag ARC_DBG_HALT = true → h.passOn (h.fget ARC_DBG_BAY) = some p → h.bayOf (h.fget ARC_DBG_BAY) = some q →
        n < p.len → p.start ≤ p.posAt n → p.exempt = false → h.bayState q = bayActive → Completes (.bayHaltReached i) s (fun t => let g := t.half i
        s.OnlyHalf t i ∧ g.bayState q = bayHalted ∧ g.arc = { h.arc with passes := modFirst (· == p) (fun _ => h.passTo p (p.posAt n)) h.arc.passes }
        ∧ Half.ArcOnly h g ∧ Half.RegsBut h g [ARC_BAY_STAT.at q, ARC_STAT.at 0]))
    ∧ (∀ d : Word, let a := h.fget ARC_PROG_ADDR_ADDR
      (h.progLocked (a / 4) = false → Completes (.arcProgDataWrite i d) s (fun t => s.OnlyHalf t i ∧ SMap.getD (t.half i).arc.prog a 0 = d
        ∧ (∀ b, b ≠ a → SMap.getD (t.half i).arc.prog b 0 = SMap.getD h.arc.prog b 0) ∧ (t.half i).arc = { h.arc with prog := (t.half i).arc.prog }
        ∧ (t.half i).fget ARC_PROG_ADDR_ADDR = (a + 1) % 16384 ∧ Half.ArcOnly h (t.half i) ∧ Half.RegsBut h (t.half i) [ARC_PROG_ADDR.at 0]))
      ∧ (h.progLocked (a / 4) = true → Completes (.arcProgDataWrite i d) s (fun t => s.OnlyHalf t i ∧ Half.Logged h (t.half i) (errLockedWrite 12) 0xFFFF
        ∧ Half.RegsOnly h (t.half i) ∧ Half.RegsBut h (t.half i) errAddrs))))
  ∧ (∀ (s : State) (i : HalfId) (r : ArcRun), let h := s.half i
    let left (t : State) : Prop := s.OnlyHalf t i ∧ (t.half i).arc.run = none ∧ (t.half i).arc.passes = h.arc.passes.filter (fun p => p.status == 3)
      ∧ (t.half i).arc.hand = h.arc.hand.filter (fun x => !(x.frame == r.frame && !r.closed.contains (x.sub, x.blk))) ∧ (t.half i).front = h.front
      ∧ (t.half i).xch = h.xch
    s.Works i → h.arc.run = some r →
    (r.frame + h.delta + 1 ≤ h.frame → Completes (.arcadeOverrun i) s (fun t => left t ∧ (t.half i).flag ARC_CTL_RUN = h.flag ARC_CTL_RUN
      ∧ (((h.allBlocks r.frame).any (fun x => !r.closed.contains (x.1, x.2.1 * (h.plan x.1 r.frame).blocks.length + x.2.2.1))) = true →
          Half.RaisedOnce h (t.half i) 451)))
    ∧ (h.flag ARC_CTL_RUN = true → Completes (.arcRunClear i) s (fun t => left t ∧ Half.FieldSet h (t.half i) ARC_CTL_RUN 0
      ∧ (t.half i).flag ARC_CTL_RUN = false)))

/-! ### The folder and long-term accumulation (08_tally.md, 09_visibility_products.md) -/

/-- R170, R171, R181: the oldest closed block, good and with good records, counts within the frame check and no overflow, is folded into the products of its
subarray: it is counted, it leaves the folder, and while no integration ends with its frame the memory is that of the fold and its records are no longer fresh.
R153: a bad block, or one with a suspect slot or record, leaves the folder unfolded. R28, R182: at its bound no block of the frame or an earlier one is left with the
folder, each counted as rolled back, the source is raised once, and the others stay. R29: an output late is told once for its dump, and once in the interval.
R193: a cleared RUN drops every block and leaves no integration, every fresh bit set and no frame done. What passes then may drain changes the Arcade alone. Where it rests on a reading
or a choice of the model, that is log 21 and log 22. -/
def Obligations.Folder : Prop :=
  (∀ (s : State) (i : HalfId) (b : Block) (rest : List Block) (pb : PBlock), let h := s.half i
    let p := h.plan b.sub b.frame
    let g := (h.partials b pb).2
    let ps := (h.partials b pb).1.1
    let suspect := b.bad || (List.range b.count).any (fun n => h.slotSuspect (b.slot + n)) || (pb.tiles.map (·.trec)).any h.recSuspect
    s.Works i → h.inHold = false → h.flag LTA_CTL_RUN = true → h.lta.blocks = b :: rest → p.blocks[h.placeOf b]? = some pb →
    (suspect = false → (h.arc.contained = true → h.NoDrain) → (h.partials b pb).1.2 = false → b.spillLost = false →
      ps.all (fun x => x.cells.all (h.cellOk p.fg)) = true → (g.foldAll b.sub b.frame b.o p pb ps).1 = none →
      Completes (.foldBlock i []) s (fun t => let k := t.half i
        s.OnlyHalf t i ∧ k.lta.blocks = h.lta.blocks.filter (fun y => y != b)
        ∧ k.fget LTA_FOLDED_FOLDED = min (h.fget LTA_FOLDED_FOLDED + 1) (2 ^ 16 - 1) ∧ k.fget LTA_FOLDED_ROLLBACK = h.fget LTA_FOLDED_ROLLBACK
        ∧ ((∀ x ∈ h.integsOf b.sub b.frame, x.last ≠ b.frame) → k.hbm.mem = (g.foldAll b.sub b.frame b.o p pb ps).2.hbm.mem
            ∧ (pb.tiles ≠ [] → ∀ x ∈ h.integsOf b.sub b.frame, k.isFresh x.v b.o pb.part = false))
        ∧ (h.NoDrain → k.arc.cy = h.arc.cy)))
    ∧ (suspect = true → h.arc.contained = false → Completes (.foldBlock i []) s (fun t => let k := t.half i
        s.OnlyHalf t i ∧ k.lta.blocks = h.lta.blocks.filter (fun y => y != b)
        ∧ k.fget LTA_FOLDED_FOLDED = h.fget LTA_FOLDED_FOLDED ∧ (h.NoDrain → k.arc.cy = h.arc.cy))))
  ∧ (∀ (s : State) (i : HalfId), let h := s.half i
    let late (b : Block) : Bool := b.frame + h.delta + 2 ≤ h.frame
    s.Works i →
    ((h.arc.contained = true → h.NoDrain) → h.lta.blocks.any late = true → Completes (.folderOverrun i) s (fun t => let k := t.half i
      s.OnlyHalf t i ∧ k.lta.blocks = h.lta.blocks.filter (fun b => !late b)
      ∧ k.fget LTA_FOLDED_ROLLBACK = min (h.fget LTA_FOLDED_ROLLBACK + (h.lta.blocks.filter late).length) (2 ^ 16 - 1)
      ∧ Half.RaisedOnce h k 451 ∧ (h.NoDrain → k.arc.cy = h.arc.cy)))
    ∧ (h.trw.outDue.any (fun e => e.2 ≤ h.frame) = true → Completes (.outputLate i) s (fun t => let k := t.half i
      s.OnlyHalf t i ∧ k.trw = { h.trw with outDue := h.trw.outDue.filter (fun e => h.frame < e.2) } ∧ Half.RaisedOnce h k 458
      ∧ Half.Logged h k errOUTPUT_LATE 0xFFFF ∧ Half.TrwOnly h k ∧ Half.RegsBut h k (pendAddr 458 :: errAddrs)))
    ∧ ((h.arc.contained = true → h.NoDrain) → h.flag LTA_CTL_RUN = true → Completes (.ltaRunClear i) s (fun t => let k := t.half i
      s.OnlyHalf t i ∧ k.flag LTA_CTL_RUN = false ∧ k.lta = { h.lta with blocks := [], stale := [], integs := [] }
      ∧ (∀ v, v < 32 → k.fget LTA_VIS_6_DONE v = 0) ∧ k.fget DEV_OVR_STAT_DROPPED = min (h.fget DEV_OVR_STAT_DROPPED + h.lta.blocks.length) (2 ^ 16 - 1)
      ∧ Half.ArcFrame { h with lta := k.lta } k
      ∧ (h.NoDrain → k.arc.cy = h.arc.cy
          ∧ Half.RegsBut h k ([LTA_CTL.at 0, DEV_OVR_STAT.at 0, ARC_STAT.at 0] ++ (List.range 32).map LTA_VIS_6.at)))))

/-! ### Beamforming (10_beams.md) -/

/-- R31, R196: a beam-entry word goes to the shadow image and marks it dirty, and the address goes over words and then positions; while a copy runs the
write is ignored and logged; inside the window it waits, with SHADOW_LATE set, and the address advances too. The end of a copy leaves the shadow with the
bytes of the current image, and the words that waited for it alone wait no longer. R198: the loader brings the current table into the region of the Courtyard, where no entry has
an uncorrectable word, and touches no other word of it. R206: a scale value goes to the shadow at the address, which advances. Nothing else changes. Where it rests on a reading
or a choice of the model, that is log 15. -/
def Obligations.BeamTables : Prop :=
  (∀ (s : State) (i : HalfId) (d : Word), let h := s.half i
    let sub := h.fget BMF_TADDR_SUB
    let pos := h.fget BMF_TADDR_POS
    let w := h.fget BMF_TADDR_WORD
    let index := h.tabIndex sub (h.fget BMF_TADDR_BEAM) pos w
    let a := h.tabBase sub (1 - h.tabCur sub) + 4 * index
    let next (g : Half) : Prop := g.fget BMF_TADDR_WORD = (if 5 ≤ w then 0 else w + 1) ∧ g.fget BMF_TADDR_POS = (if 5 ≤ w then (pos + 1) % 2 ^ 13 else pos)
    s.Works i →
    (h.flag BMF_TAB_2_COPY sub = false → Completes (.bmfTdataWrite i d false) s (fun t => let g := t.half i
      s.OnlyHalf t i ∧ g.hbm = (h.memWrite a (leBytes 4 (storedEntry index d).toNat)).hbm ∧ Half.BytesBut h g a 4
      ∧ Half.FieldSet h g BMF_TAB_2_DIRTY 1 sub ∧ next g ∧ Half.HbmOnly h g
      ∧ Half.RegsBut h g ([BMF_TAB_2.at sub, BMF_TADDR.at 0] ++ errAddrs)))
    ∧ (∀ late, h.flag BMF_TAB_2_COPY sub = true → Completes (.bmfTdataWrite i d late) s (fun t => s.OnlyHalf t i
      ∧ Half.Logged h (t.half i) errBMF_TAB_BUSY 0xFFFF ∧ Half.RegsOnly h (t.half i) ∧ Half.RegsBut h (t.half i) errAddrs))
    ∧ (h.flag BMF_TAB_2_COPY sub = false → Completes (.bmfTdataWrite i d true) s (fun t => let g := t.half i
      s.OnlyHalf t i ∧ g.bmf = { h.bmf with tabLate := h.bmf.tabLate ++ [(sub, index, d)] } ∧ g.flag DEV_SHDW_CTL_SHADOW_LATE = true
      ∧ g.srcBit EVC_PENDING 452 = true ∧ Half.Logged h g errSHADOW_LATE 0xFFFF ∧ next g ∧ Half.BmfOnly h g
      ∧ Half.RegsBut h g ([BMF_TADDR.at 0, DEV_SHDW_CTL.at 0, pendAddr 452] ++ errAddrs))))
  ∧ (∀ (s : State) (i : HalfId) (u : Nat), let h := s.half i
    let cur := h.tabBase u (h.tabCur u)
    let copy := h.memRead cur (h.tabSize u)
    let entry (e : Nat) : List Byte × Bool := (h.memRead (cur + 24 * e) 24).1
    s.Works i → u < 16 →
    (h.flag BMF_TAB_2_COPY u = true → Completes (.beamTableCopyEnd i u) s (fun t => let g := t.half i
      s.OnlyHalf t i ∧ g.flag BMF_TAB_2_COPY u = false ∧ g.tabCur u = h.tabCur u
      ∧ g.bmf = { h.bmf with tabLate := h.bmf.tabLate.filter (fun x => h.flag BMF_TAB_2_COPY x.1 && x.1 != u) }
      ∧ (h.bmf.tabLate = [] → g.hbm.mem = (copy.2.memWrite (h.tabBase u (1 - h.tabCur u)) copy.1.1).hbm.mem)
      ∧ Half.HbmOnly { h with bmf := g.bmf } g))
    ∧ (h.inHold = false → h.tableIn u = false → Completes (.beamTableLoad i u) s (fun t => let g := t.half i
      s.OnlyHalf t i ∧ g.tableIn u = true ∧ g.arc.tabBad = [] ∧ g.hbm.mem = h.hbm.mem
      ∧ (∀ x, ¬ (h.tableBase ≤ x ∧ x < h.tableBase + h.fget CY_TABLE_SIZE * slotWords) → g.cyWord x = h.cyWord x)
      ∧ ((∀ e, e < h.tabSize u / 24 → (entry e).2 = false) → ∀ e w, e < h.tabSize u / 24 → w < 6 → 6 * e + w < h.fget CY_TABLE_SIZE * slotWords →
          g.cyWord (h.tableBase + 6 * e + w) = fieldAt (entry e).1 (4 * w) 4)
      ∧ Half.ArcOnly { h with hbm := g.hbm } g)))
  ∧ (∀ (s : State) (i : HalfId) (d : Word), let h := s.half i
    let a := h.getN BMF_SADDR % 2 ^ 19
    s.Works i →
    Completes (.bmfSdataWrite i d false) s (fun t => let g := t.half i
      s.OnlyHalf t i ∧ g.bmf = { h.bmf with scaleShadow := g.bmf.scaleShadow } ∧ SMap.find? g.bmf.scaleShadow a = some (d.toNat % 2 ^ 16)
      ∧ (∀ b, b ≠ a → SMap.find? g.bmf.scaleShadow b = SMap.find? h.bmf.scaleShadow b)
      ∧ g.getN BMF_SADDR = (a + 1) % 2 ^ 19 ∧ Half.BmfOnly h g ∧ Half.RegsBut h g [BMF_SADDR.at 0])
    ∧ Completes (.bmfSdataWrite i d true) s (fun t => let g := t.half i
      s.OnlyHalf t i ∧ g.bmf = { h.bmf with scaleLate := g.bmf.scaleLate } ∧ SMap.find? g.bmf.scaleLate a = some (d.toNat % 2 ^ 16)
      ∧ (∀ b, b ≠ a → SMap.find? g.bmf.scaleLate b = SMap.find? h.bmf.scaleLate b)
      ∧ g.flag DEV_SHDW_CTL_SHADOW_LATE = true ∧ g.srcBit EVC_PENDING 452 = true ∧ Half.Logged h g errSHADOW_LATE 0xFFFF
      ∧ g.getN BMF_SADDR = (a + 1) % 2 ^ 19 ∧ Half.BmfOnly h g ∧ Half.RegsBut h g ([BMF_SADDR.at 0, DEV_SHDW_CTL.at 0, pendAddr 452] ++ errAddrs)))

/-- R204: the oldest hand-off slot is accounted for its window and freed. R205: at its bound no slot of the frame or an earlier one is left, each counted with its
4,096 samples, and the others stay. R215: a cleared RUN counts every slot so and leaves none, and nothing open. What passes then may drain changes the Arcade
alone. Where it rests on a reading or a choice of the model, that is log 21. -/
def Obligations.BeamSamples : Prop :=
  ∀ (s : State) (i : HalfId), let h := s.half i
    let j := h.frame - h.delta - 2
    s.Works i → (h.arc.contained = true → h.NoDrain) →
    (∀ x rest, h.inHold = false → h.flag BMF_CTL_RUN = true → h.arc.hand = x :: rest → Completes (.beamSampleProcess i []) s (fun t => let g := t.half i
      s.OnlyHalf t i ∧ (x.frame, x.sub, windowKey x.c x.t x.grp x.shape) ∈ g.bmf.seen ∧ g.arc.run = h.arc.run ∧ g.front = h.front ∧ g.xch = h.xch ∧ g.lta = h.lta
      ∧ (h.NoDrain → g.arc.hand = rest ∧ g.arc.cy = h.arc.cy)))
    ∧ (h.delta + 2 ≤ h.frame → Completes (.beamLate i) s (fun t => let g := t.half i
      s.OnlyHalf t i ∧ Half.Counted h g BMF_CNT_2 (4096 * (h.arc.hand.filter (fun x => decide (x.frame ≤ j))).length)
      ∧ g.arc.run = h.arc.run ∧ g.front = h.front ∧ g.xch = h.xch ∧ g.lta = h.lta
      ∧ (h.NoDrain → g.arc.hand = h.arc.hand.filter (fun x => !decide (x.frame ≤ j)) ∧ g.arc.cy = h.arc.cy)))
    ∧ (h.flag BMF_CTL_RUN = true → Completes (.bmfRunClear i) s (fun t => let g := t.half i
      s.OnlyHalf t i ∧ g.flag BMF_CTL_RUN = false ∧ Half.FieldSet h g BMF_CTL_RUN 0 ∧ Half.Counted h g BMF_CNT_2 (4096 * h.arc.hand.length)
      ∧ g.bmf = { h.bmf with vpkts := [], recs := [], dpkts := [] } ∧ Half.ArcFrame { h with bmf := g.bmf } g
      ∧ (h.NoDrain → g.arc.hand = [] ∧ g.arc.cy = h.arc.cy)))

/-! ### Voltage capture (11_capture.md) -/

/-- R221, R224: ARM clears and starts a feed whose geometry it takes, in the state that MODE names, with SEQ 0 and nothing held; a feed that is READING, or
whose geometry it does not take, is left as it is and the command counted as ignored and logged. R222, R223: a trigger of an ARMED feed, by command or by its event, is taken
with the σ that the rule gives (free where nothing has been written): the feed is TRIGGERED, or FROZEN where it holds all its records, late where its oldest
record is younger; a trigger of any other feed is counted, and a TRIG command there counted as ignored too. Nothing else changes. Where it rests on a
reading or a choice of the model, that is log 5 and log 27. -/
def Obligations.CaptureArmAndTrigger : Prop :=
  (∀ (s : State) (i : HalfId) (v : Nat), let h := s.half i
    s.Works i → v < 16 →
    (h.capState v ≠ capReading → h.capRangeOk v = true → Completes (.capArm i v) s (fun t => let g := t.half i
      s.OnlyHalf t i ∧ g.capState v = (if h.flag CAP_FEED_0_MODE v then capStreaming else capArmed) ∧ g.capSeq v = 0
      ∧ g.cap v = Cap.reset ∧ (∀ w, w ≠ v → g.cap w = h.cap w) ∧ g.getN CAP_FSTAT_1 v = 0 ∧ g.getN CAP_FSTAT_2 v = 0
      ∧ g.flag CAP_FSTAT_0_TRIGD v = false ∧ g.flag CAP_FSTAT_0_TLATE v = false ∧ g.flag CAP_FSTAT_0_SHORT v = false ∧ Half.FeedFrame h g
      ∧ Half.RegsBut h g ([CAP_FSTAT_0.at v, CAP_FSTAT_1.at v, CAP_FSTAT_2.at v] ++ errAddrs)
      ∧ ((h.cap v).outs = [] → Half.CapsOnly h g)))
    ∧ (∀ code, (h.capState v = capReading ∧ code = errCAP_BUSY) ∨ (h.capState v ≠ capReading ∧ h.capRangeOk v = false ∧ code = errCAP_CFG_RANGE) →
      Completes (.capArm i v) s (fun t => s.OnlyHalf t i ∧ Half.Counted h (t.half i) CAP_FSTAT_5 1 v ∧ Half.Logged h (t.half i) code 0xFFFF
        ∧ Half.RegsOnly h (t.half i) ∧ Half.RegsBut h (t.half i) (CAP_FSTAT_5.at v :: errAddrs))))
  ∧ (∀ (s : State) (i : HalfId) (v : Nat), let h := s.half i
    let sigma := h.capSigma v (Config.freeValue s.freeCtr)
    let late := (h.cap v).recs.head?.any (fun r => decide (sigma < r.spec))
    let taken (c : Instr) : Prop := Completes c s (fun t => let g := t.half i
      s.free.2.OnlyHalf t i ∧ g.flag CAP_FSTAT_0_TRIGD v = true ∧ g.getN CAP_FSTAT_3 v = sigma % 2 ^ 32
      ∧ g.fget CAP_FSTAT_4_TRIG_HI v = sigma / 2 ^ 32 % 2 ^ 16 ∧ g.capState v = (if h.capMet v sigma then capFrozen else capTriggered)
      ∧ (g.cap v).trig = (if h.capMet v sigma then none else some sigma) ∧ (h.capMet v sigma = true → g.srcBit EVC_PENDING (832 + v) = true)
      ∧ g.flag CAP_FSTAT_0_TLATE v = (late || h.flag CAP_FSTAT_0_TLATE v) ∧ (late = true → Half.Logged h g errCAP_TRIG_LATE 0xFFFF)
      ∧ (∀ w, w ≠ v → g.cap w = h.cap w) ∧ Half.CapsOnly h g
      ∧ Half.RegsBut h g ([CAP_FSTAT_0.at v, CAP_FSTAT_3.at v, CAP_FSTAT_4.at v, pendAddr (832 + v)] ++ errAddrs))
    s.Works i → v < 16 →
    (h.capState v = capArmed → taken (.capTrig i v) ∧ (h.fget CAP_FEED_5_TRIGSRC v < 1024 → taken (.capEventTrigger i v)))
    ∧ (h.capState v ≠ capArmed →
      Completes (.capTrig i v) s (fun t => s.free.2.OnlyHalf t i ∧ Half.Counted h (t.half i) CAP_FSTAT_5 1 v ∧ Half.Counted h (t.half i) CAP_FSTAT_7 1 v
        ∧ Half.RegsOnly h (t.half i) ∧ Half.RegsBut h (t.half i) [CAP_FSTAT_5.at v, CAP_FSTAT_7.at v])
      ∧ (h.fget CAP_FEED_5_TRIGSRC v < 1024 → Completes (.capEventTrigger i v) s (fun t => s.free.2.OnlyHalf t i
        ∧ Half.Counted h (t.half i) CAP_FSTAT_7 1 v ∧ Half.RegsOnly h (t.half i) ∧ Half.RegsBut h (t.half i) [CAP_FSTAT_7.at v]))))

/-- R221, R223: FREEZE, and the freeze bound of a TRIGGERED feed, leave a writing feed FROZEN, SHORT where it is TRIGGERED and has not all its records, and raise its source;
FREEZE of any other feed is counted as ignored. R228: a cleared RUN freezes a writing feed at once where every input has written the highest
y-spectrum written, and else fixes that as the last it writes. R221: RELEASE leaves a feed IDLE with nothing held, a READING one once no packet of it is being
moved. R225: READ of a FROZEN feed begins the readout with the packets of the records asked for; of any other it is ignored, logged where that is armed;
after the last packet the feed is FROZEN again and its source is raised. Where it rests on a reading or a choice of the model, that is log 27. -/
def Obligations.CaptureFreezeAndRead : Prop :=
  (∀ (s : State) (i : HalfId) (v : Nat), let h := s.half i
    let frozen (t : State) (short : Bool) : Prop := s.OnlyHalf t i ∧ (t.half i).capState v = capFrozen
      ∧ (t.half i).flag CAP_FSTAT_0_SHORT v = (short || h.flag CAP_FSTAT_0_SHORT v) ∧ (t.half i).srcBit EVC_PENDING (832 + v) = true
      ∧ ((t.half i).cap v).trig = none ∧ ((t.half i).cap v).recs = (h.cap v).recs ∧ (∀ w, w ≠ v → (t.half i).cap w = h.cap w)
      ∧ Half.FeedFrame h (t.half i) ∧ (h.capState v ≠ capStreaming → Half.CapsOnly h (t.half i))
      ∧ Half.RegsBut h (t.half i) ([CAP_FSTAT_0.at v, pendAddr (832 + v)] ++ errAddrs)
    s.Works i → v < 16 →
    (h.capState v = capTriggered → Completes (.capFreeze i v) s (fun t => frozen t (!(h.cap v).trig.any (h.capMet v))))
    ∧ (h.capState v = capArmed ∨ h.capState v = capStreaming → Completes (.capFreeze i v) s (fun t => frozen t false))
    ∧ (h.capWriting v = false → Completes (.capFreeze i v) s (fun t => s.OnlyHalf t i ∧ Half.Counted h (t.half i) CAP_FSTAT_5 1 v
        ∧ Half.RegsOnly h (t.half i) ∧ Half.RegsBut h (t.half i) [CAP_FSTAT_5.at v]))
    ∧ (∀ sigma, h.capState v = capTriggered → (h.cap v).trig = some sigma → h.capBound v sigma ≤ h.frame →
      Completes (.capFreezeBound i v) s (fun t => frozen t (!h.capMet v sigma))))
  ∧ (∀ (s : State) (i : HalfId), let h := s.half i
    s.Works i → Completes (.capRunClear i) s (fun t => let g := t.half i
      s.OnlyHalf t i ∧ g.flag CAP_CTL_RUN = false ∧ Half.FieldSet h g CAP_CTL_RUN 0 ∧ Half.FeedFrame h g
      ∧ ∀ v, v < 16 → (h.capWriting v = false → g.capState v = h.capState v ∧ g.cap v = h.cap v)
        ∧ (h.capWriting v = true →
            let m := ((h.cap v).lastSpec.map (·.2)).foldl max 0
            if (h.cap v).lastSpec = [] ∨ (h.capInputs v).all (fun q => (SMap.find? (h.cap v).lastSpec q).any (m ≤ ·)) = true
            then g.capState v = capFrozen ∧ g.srcBit EVC_PENDING (832 + v) = true ∧ (h.capState v = capTriggered → g.flag CAP_FSTAT_0_SHORT v = true)
            else g.capState v = h.capState v ∧ (g.cap v).stopAt = some m)))
  ∧ (∀ (s : State) (i : HalfId) (v : Nat), let h := s.half i
    let moving := (h.cap v).outs.any (fun e => (h.eng (stageRing e.1)).held.any (fun d => d.descs.any (fun x => x.src == e.1)))
    s.Works i → v < 16 →
    (h.capState v = capIdle → Completes (.capRelease i v) s (fun t => s.OnlyHalf t i ∧ Half.RegsOnly h (t.half i) ∧ Half.RegsBut h (t.half i) []))
    ∧ (h.capState v ≠ capIdle → h.capState v ≠ capReading ∨ moving = false → Completes (.capRelease i v) s (fun t => let g := t.half i
      s.OnlyHalf t i ∧ g.capState v = capIdle ∧ g.cap v = Cap.reset ∧ g.getN CAP_FSTAT_2 v = 0 ∧ (∀ w, w ≠ v → g.cap w = h.cap w)
      ∧ Half.FeedFrame h g ∧ Half.RegsBut h g ([CAP_FSTAT_0.at v, CAP_FSTAT_2.at v] ++ errAddrs)))
    ∧ (h.capState v = capReading → moving = true → Completes (.capRelease i v) s (fun t => let g := t.half i
      s.OnlyHalf t i ∧ g.capState v = capReading ∧ (g.cap v).releasing = true ∧ (g.cap v).recs = (h.cap v).recs ∧ Half.FeedFrame h g)))
  ∧ (∀ (s : State) (i : HalfId) (v : Nat), let h := s.half i
    let asked := capCut (h.capAsked v).2 (h.capPerPacket v) (h.capAsked v).1 (h.capAsked v).2
    let sent := (h.fset CAP_FSTAT_0_STATE capReading v).fold asked (fun h p => h.capSend v p.1 p.2)
    s.Works i → v < 16 →
    (h.capState v = capFrozen → Completes (.capRead i v) s (fun t => let g := t.half i
      s.OnlyHalf t i ∧ g.capState v = capReading ∧ g.caps = sent.caps ∧ g.trw = sent.trw ∧ g.hbm = sent.hbm ∧ g.stage = sent.stage
      ∧ (g.cap v).recs = (h.cap v).recs ∧ Half.FeedFrame h g))
    ∧ (h.capState v = capArmed ∨ h.capState v = capTriggered → Completes (.capRead i v) s (fun t => s.OnlyHalf t i
      ∧ Half.Counted h (t.half i) CAP_FSTAT_5 1 v ∧ Half.Logged h (t.half i) errCAP_BUSY 0xFFFF
      ∧ Half.RegsOnly h (t.half i) ∧ Half.RegsBut h (t.half i) (CAP_FSTAT_5.at v :: errAddrs)))
    ∧ (h.capState v = capIdle ∨ h.capState v = capReading ∨ h.capState v = capStreaming → Completes (.capRead i v) s (fun t => s.OnlyHalf t i
      ∧ Half.Counted h (t.half i) CAP_FSTAT_5 1 v ∧ Half.RegsOnly h (t.half i) ∧ Half.RegsBut h (t.half i) [CAP_FSTAT_5.at v]))
    ∧ (h.capState v = capReading → (h.cap v).outs = [] → (h.cap v).releasing = false → Completes (.capReadDone i v) s (fun t => s.OnlyHalf t i
      ∧ (t.half i).capState v = capFrozen ∧ (t.half i).srcBit EVC_PENDING (848 + v) = true ∧ (t.half i).caps = h.caps
      ∧ Half.RegsOnly h (t.half i) ∧ Half.RegsBut h (t.half i) [CAP_FSTAT_0.at v, pendAddr (848 + v)])))

/-! ### Tramway and output flows (12_tramway_output.md) -/

/-- R230, R231, R238, R239: a doorbell on a ring that the half serves and that has no hardware producer acts by the ring's state: it starts an IDLE ring, is
kept by a RUNNING one, counts on a STOPPED one, and has the last descriptor of a PARKED one read again, which goes on at NEXT, waits on, or is stopped by a bad descriptor; with the context not
cached it is kept in the scheduler's table; any other doorbell, and a ring command for a ring of the other half, is ignored and logged. No other ring changes. R240: STOP stops a
ring that no engine holds at once and raises TRW_STOPPED, and waits for the engine of one that is held; START makes a STOPPED ring of POSMODE 0 IDLE, and of POSMODE 1 goes on as a
doorbell does; on other rings neither does anything. A cleared RUN stops every ring of the half so. Where it rests on a reading or a choice of the model,
that is log 28. -/
def Obligations.RingCommands : Prop :=
  (∀ (s : State) (i : HalfId) (r : Nat), let h := s.half i
    let c := h.ctx r
    let alone (t : State) : Prop := s.OnlyHalf t i ∧ (t.half i).trw.fifo = h.trw.fifo ∧ ∀ q, q ≠ r → (t.half i).ctx q = h.ctx q
    let only (t : State) : Prop := alone t ∧ Half.TrwOnly h (t.half i)
    let read (t : State) : Prop := alone t ∧ Half.TrwOnly { h with hbm := (t.half i).hbm } (t.half i) ∧ (t.half i).hbm.mem = h.hbm.mem
    s.Works i → r < 2 ^ 20 →
    (ringHalf r = h.id → ctxOwner c = false →
      (ctxState c = ringStopped → Completes (.trwDoorbell i r) s (fun t => only t ∧ (t.half i).trw = h.trw
          ∧ Half.Counted h (t.half i) TRW_STAT_2 1 ∧ Half.RegsBut h (t.half i) [TRW_STAT_2.at 0]))
      ∧ (ctxState c ≠ ringStopped → SMap.find? h.trw.ctx r = none →
          Completes (.trwDoorbell i r) s (fun t => only t ∧ ((t.half i).eng r).bell = true ∧ (t.half i).ctx r = c ∧ Half.RegsBut h (t.half i) []))
      ∧ ((SMap.find? h.trw.ctx r).isSome = true → let pos := fieldAt c 0 8
          let d := (h.memRead pos 32).1
          (ctxState c = ringIdle → Completes (.trwDoorbell i r) s (fun t => only t ∧ (t.half i).ctx r = setState c ringRunning ∧ Half.RegsBut h (t.half i) []))
          ∧ (ctxState c = ringRunning → Completes (.trwDoorbell i r) s (fun t => only t ∧ (t.half i).ctx r = setDbpend c true ∧ Half.RegsBut h (t.half i) []))
          ∧ (ctxState c = ringParked → d.2 = false → descBad false d.1 = false → bit (fieldAt d.1 0 8) 63 = false →
              Completes (.trwDoorbell i r) s (fun t => read t ∧ (t.half i).ctx r = setPos (setState c ringRunning) (fieldAt d.1 8 8) 0))
          ∧ (ctxState c = ringParked → d.2 = false → descBad false d.1 = false → bit (fieldAt d.1 0 8) 63 = true →
              Completes (.trwDoorbell i r) s (fun t => read t ∧ (t.half i).ctx r = setPos (setState c ringParked) pos 1 ∧ Half.Counted h (t.half i) TRW_STAT_2 1))
          ∧ (ctxState c = ringParked → d.2 = true ∨ descBad false d.1 = true → c.length = ctxBytes →
              Completes (.trwDoorbell i r) s (fun t => s.OnlyHalf t i ∧ (t.half i).trw.fifo = h.trw.fifo ∧ ctxState ((t.half i).ctx r) = ringStopped ∧ (t.half i).srcBit EVC_PENDING 713 = true))))
    ∧ (ringHalf r = h.id → ctxOwner c = true → Completes (.trwDoorbell i r) s (fun t => s.OnlyHalf t i
      ∧ Half.Logged h (t.half i) errTRW_DB_OWNER 0xFFFF ∧ Half.RegsOnly h (t.half i) ∧ Half.RegsBut h (t.half i) errAddrs))
    ∧ (ringHalf r ≠ h.id → ∀ x ∈ [Instr.trwDoorbell i r, .trwStop i r, .trwStart i r], Completes x s (fun t => s.OnlyHalf t i
      ∧ Half.Logged h (t.half i) errTRW_CFG_RANGE 0xFFFF ∧ Half.RegsOnly h (t.half i) ∧ Half.RegsBut h (t.half i) errAddrs)))
  ∧ (∀ (s : State) (i : HalfId) (r : Nat), let h := s.half i
    let g := h.ctxLoad r
    let c := g.ctx r
    let alone (t : State) : Prop := s.OnlyHalf t i ∧ (t.half i).trw.fifo = h.trw.fifo ∧ ∀ q, q ≠ r → (t.half i).ctx q = g.ctx q
    let kept (t : State) : Prop := alone t ∧ (t.half i).ctx r = c ∧ Half.TrwOnly g (t.half i) ∧ Half.RegsBut g (t.half i) []
    s.Works i → r < 2 ^ 20 → ringHalf r = h.id →
    (ctxState c = ringStopped → Completes (.trwStop i r) s (fun t => kept t))
    ∧ (ctxState c ≠ ringStopped → (g.eng r).held.isSome = true → Completes (.trwStop i r) s (fun t => kept t ∧ ((t.half i).eng r).stopAsked = true))
    ∧ (ctxState c ≠ ringStopped → (g.eng r).held = none → Completes (.trwStop i r) s (fun t => alone t
        ∧ (t.half i).ctx r = setDbpend (match (g.eng r).last with
            | some a => if ctxState c = ringRunning then setPos (setState c ringStopped) a 1 else setState c ringStopped
            | none => setState c ringStopped) false
        ∧ ((t.half i).eng r).bell = false ∧ (t.half i).srcBit EVC_PENDING 704 = true ∧ Half.TrwOnly g (t.half i) ∧ Half.RegsBut g (t.half i) [pendAddr 704]))
    ∧ (ctxState c ≠ ringStopped → Completes (.trwStart i r) s (fun t => kept t))
    ∧ (ctxState c = ringStopped → ctxPosmode c = 0 → Completes (.trwStart i r) s (fun t => alone t ∧ (t.half i).ctx r = setState c ringIdle
        ∧ Half.TrwOnly g (t.half i) ∧ Half.RegsBut g (t.half i) []))
    ∧ (ctxState c = ringStopped → ctxPosmode c = 1 → c.length = ctxBytes → let d := (g.memRead (fieldAt c 0 8) 32).1
        d.2 = false → descBad (ctxOwner c) d.1 = false → Completes (.trwStart i r) s (fun t => alone t
          ∧ ctxState ((t.half i).ctx r) = (if bit (fieldAt d.1 0 8) 63 then ringParked else ringRunning)
          ∧ fieldAt ((t.half i).ctx r) 0 8 = (if bit (fieldAt d.1 0 8) 63 then fieldAt c 0 8 else fieldAt d.1 8 8)
          ∧ (t.half i).hbm.mem = g.hbm.mem)))
  ∧ (∀ (s : State) (i : HalfId), let h := s.half i
    let seen (r : Nat) : Prop := ∃ e ∈ h.trw.eng, e.1 = r
    s.Works i → (∀ e ∈ h.trw.eng, (SMap.find? h.trw.ctx e.1).isSome = true ∧ (h.ctx e.1).length = ctxBytes) →
    (∀ r, (SMap.find? h.trw.ctx r).isSome = true → seen r) →
    Completes (.trwRunClear i) s (fun t => let g := t.half i
      s.OnlyHalf t i ∧ g.flag TRW_CTL_RUN = false ∧ Half.FieldSet h g TRW_CTL_RUN 0 ∧ g.trw.fifo = h.trw.fifo
      ∧ (∀ e ∈ h.trw.eng, (h.eng e.1).held = none → ctxState (g.ctx e.1) = ringStopped)
      ∧ (∀ e ∈ h.trw.eng, (h.eng e.1).held.isSome = true → ctxState (h.ctx e.1) ≠ ringStopped → (g.eng e.1).stopAsked = true)
      ∧ (∀ r ∈ h.ringsServed, ¬ seen r → (h.addrPcs (h.ctxAddr r)).any h.pcLive = true → ctxState (g.ctx r) = ringStopped)
      ∧ Half.TrwOnly { h with hbm := g.hbm } g ∧ Half.RegsBut h g ([TRW_CTL.at 0, pendAddr 704] ++ errAddrs)))

/-- R242: through the window, any field of an IDLE or STOPPED ring's context is written, and of a RUNNING or PARKED ring only those that may change then; a
write that would change another is refused for that field and logged; no other ring changes. R244: a bucket whose RATE becomes not zero is full, and any other change of RATE or BURST
finds it filled up to the present. R230: a ring of the other half is logged. R247, R252: a frame received on an output lane in service is counted in RX and discarded; clearing RUN of the output
loses the frames in the FIFOs, counted and logged. Where it rests on a reading or a choice of the model, that is log 28. -/
def Obligations.ContextWindowAndLanes : Prop :=
  (∀ (s : State) (i : HalfId) (w : Nat) (d : Word), let h := s.half i
    let r := h.fget TRW_CTX_SEL_RING
    let g := h.ctxLoad r
    let c := g.ctx r
    let active := ctxState c = ringRunning ∨ ctxState c = ringParked
    let mask := if active then ctxLiveMask w else ctxMask w
    let old := fieldAt c (4 * w) 4
    let new := (old &&& (0xFFFFFFFF ^^^ mask)) ||| (d.toNat &&& mask)
    s.Works i → w < 32 →
    (ringHalf r = h.id → Completes (.trwCtxDataWrite i w d) s (fun t => let k := t.half i
      s.OnlyHalf t i ∧ k.ctx r = (if mask = 0 then c else putField c (4 * w) 4 new) ∧ (∀ q, q ≠ r → k.ctx q = g.ctx q) ∧ k.trw.fifo = h.trw.fifo
      ∧ (active → w < 23 → (d.toNat ^^^ old) &&& ctxMask w &&& (0xFFFFFFFF ^^^ mask) ≠ 0 → Half.Logged g k (errLockedWrite 18) 0xFFFF)
      ∧ (w = 3 → ctxRate c = 0 → new ≠ 0 → (k.eng r).tokens = ((ctxBurst (putField c 12 4 new) * 1024 * 800 : Nat) : Int))
      ∧ (w = 4 ∨ (w = 3 ∧ (ctxRate c ≠ 0 ∨ new = 0)) → (k.eng r).tokens = g.tokensAt r g.trwNow)
      ∧ Half.TrwOnly g k ∧ Half.RegsBut g k errAddrs))
    ∧ (ringHalf r ≠ h.id → Completes (.trwCtxDataWrite i w d) s (fun t => s.OnlyHalf t i
      ∧ Half.Logged h (t.half i) errTRW_CFG_RANGE 0xFFFF ∧ Half.RegsOnly h (t.half i) ∧ Half.RegsBut h (t.half i) errAddrs)))
  ∧ (∀ (s : State) (i : HalfId), let h := s.half i
    s.Works i →
    (∀ p, p < 5 → h.flag OUT_CTL_RUN = true → h.laneUp (48 + p) = true → h.laneClear (48 + p) →
      (h.flag OUT_CTL_PMODE = true → ∀ m, m < 4 → h.laneUp (48 + m) = true) → Completes (.outFrameReceived i p) s (fun t => s.OnlyHalf t i
      ∧ Half.Counted h (t.half i) OUT_LANE_STAT_3 1 p ∧ Half.RegsOnly h (t.half i) ∧ Half.RegsBut h (t.half i) [OUT_LANE_STAT_3.at p]))
    ∧ Completes (.outRunClear i) s (fun t => s.OnlyHalf t i ∧ (t.half i).flag OUT_CTL_RUN = false ∧ Half.FieldSet h (t.half i) OUT_CTL_RUN 0
      ∧ (∀ l, l < 4 → (t.half i).fifo l = []) ∧ (t.half i).trw = { h.trw with fifo := (t.half i).trw.fifo }
      ∧ (∀ l p, l < 4 → h.sendLane l = some p → (∀ m, m < 4 → m ≠ l → (h.sendLane m).getD 0 ≠ p ∨ h.fifo m = []) →
          Half.Counted h (t.half i) OUT_LANE_STAT_2 (h.fifo l).length p)
      ∧ ((∃ l, l < 4 ∧ h.fifo l ≠ []) → Half.Logged h (t.half i) errOUT_FIFO_LOST 0xFFFF) ∧ Half.TrwOnly h (t.half i)
      ∧ Half.RegsBut h (t.half i) (OUT_CTL.at 0 :: (errAddrs ++ (List.range 16).map OUT_LANE_STAT_2.at))))

/-- R232, R243, R244: a lane with room grants the ring that its choice names; an engine holds the ring's next datagram, and the ring's tokens pay for it, or, of a chain that
ends inside a datagram, nothing is sent. R232, R236, R242: the engine's datagram, once moved, joins the lane's FIFO in the frame of the flow as it was granted, counts in DIDX
and SENT, frees its space in the outbound buffer and releases the ring, which goes on at NEXT, or is PARKED at END with a completion record; R235: one with a bad
descriptor is not sent and stops the ring, raising TRW_FAULT. Where it rests on a reading or a choice of the model, that is log 5 and log 28. -/
def Obligations.GrantAndSend : Prop :=
  (∀ (s : State) (i : HalfId) (l time p r : Nat) (turn : Bool), let h := s.half i
    let k := (h.ctxLoad r).takeBell r
    let g := { k with trw := { k.trw with served := SMap.insert k.trw.served (l * 8 + p) r, clock := max k.trw.clock time } }
    s.Works i → h.flag TRW_CTL_RUN = true → h.inHold = false → h.outLaneUp l = true → h.fifoRoom l = true → h.fget TRW_STAT_0_BUSY < 64 →
    h.pickRing l time = some (p, r, turn) → ctxState (g.ctx r) = ringRunning →
    (∀ d, (g.nextGram r l).1 = .gram d → Completes (.laneGrant i l time) s (fun t => let x := t.half i
      s.OnlyHalf t i ∧ (x.eng r).held = some d ∧ (x.eng r).tokTime = time
      ∧ (x.eng r).tokens = g.tokensAt r time - (((if d.status = 0 then wireBytes (g.frameOf r l d.payload) else 0) * 800 : Nat) : Int)
      ∧ SMap.find? x.trw.served (l * 8 + p) = some r ∧ (∀ q, x.ctx q = g.ctx q) ∧ x.trw.fifo = h.trw.fifo ∧ x.hbm.mem = g.hbm.mem
      ∧ Half.TrwOnly { h with hbm := x.hbm } x))
    ∧ ((g.nextGram r l).1 = .short → Completes (.laneGrant i l time) s (fun t => let x := t.half i
      s.OnlyHalf t i ∧ (x.eng r).held = (g.eng r).held ∧ x.trw.fifo = h.trw.fifo ∧ (∀ q, q ≠ r → x.ctx q = g.ctx q) ∧ Half.TrwOnly { h with hbm := x.hbm } x)))
  ∧ (∀ (s : State) (i : HalfId) (r : Nat) (d : Datagram), let h := s.half i
    let c := incField (h.ctx r) 76 d.descs.length
    let f := h.frameWith (d.flowDef c) r d.lane d.payload
    let freed (x : Half) : Prop := (∀ e ∈ d.descs, SMap.find? x.trw.outHeld e.src = none) ∧ (x.eng r).held = none
      ∧ x.fifo d.lane = h.fifo d.lane ++ [⟨r, wireBytes f, f⟩] ∧ (∀ l, l ≠ d.lane → x.fifo l = h.fifo l) ∧ (∀ q, q ≠ r → SMap.find? x.trw.ctx q = SMap.find? h.trw.ctx q)
    s.Works i → (h.eng r).held = some d →
    (∀ e, d.status = 0 → (h.eng r).stopAsked = false → d.descs.getLast? = some e → (∀ x ∈ d.descs, x.notify = false ∧ x.ended = false ∧ x.src < headerStage) →
      Completes (.datagramDone i r) s (fun t => let x := t.half i
        s.OnlyHalf t i ∧ freed x ∧ (x.eng r).last = some e.addr ∧ x.ctx r = setPos (incField c 88 1) e.next 0 ∧ x.hbm = h.hbm
        ∧ Half.TrwOnly { h with stage := x.stage } x ∧ Half.RegsBut h x [TRW_STAT_0.at 0, LTA_OUT_USE.at 0]))
    ∧ (∀ e, d.status = 0 → (h.eng r).stopAsked = false → d.descs = [e] → e.ended = true → e.notify = false → e.src < headerStage → ctxDbpend c = false →
      (h.ctx r).length = ctxBytes → Completes (.datagramDone i r) s (fun t => let x := t.half i
        let cidx := fieldAt c 80 4
        let cc := ctxCcode c
        s.OnlyHalf t i ∧ freed x ∧ ctxState (x.ctx r) = ringParked ∧ fieldAt (x.ctx r) 0 8 = e.addr % 2 ^ 64 ∧ ctxPosmode (x.ctx r) = 1
        ∧ (cc = 0 → x.hbm = h.hbm)
        ∧ (cc ≠ 0 → x.hbm = (h.memWrite (fieldAt c 64 8 + cidx % 2 ^ cc * 16) (leBytes 4 e.tag ++ leBytes 4 e.crc ++ leBytes 4 (fieldAt (incField c 88 1) 88 4)
            ++ [0, BitVec.ofNat 8 (b2n (cidx / 2 ^ cc % 2 == 0) * 128 + 3), 0, 0])).hbm ∧ fieldAt (x.ctx r) 80 4 = (cidx + 1) % 2 ^ 32)))
    ∧ (d.status = 2 ∨ d.status = 3 → (h.ctx r).length = ctxBytes → Completes (.datagramDone i r) s (fun t => let x := t.half i
        s.OnlyHalf t i ∧ (x.eng r).held = none ∧ ctxState (x.ctx r) = ringStopped ∧ x.trw.fifo = h.trw.fifo
        ∧ (∀ a, (h.eng r).sentAt = some a → fieldAt (x.ctx r) 0 8 = a % 2 ^ 64) ∧ x.srcBit EVC_PENDING 713 = true
        ∧ Half.Logged (h.complete r d.fault.tag d.fault.crc d.status d.fault.ended d.fault.dgend) x (if d.status = 2 then errTRW_BAD_DESC else errTRW_DESC_ECC) 0xFFFF
        ∧ (∀ q, q ≠ r → SMap.find? x.trw.ctx q = SMap.find? h.trw.ctx q))))

/-! ### Serial lanes (13_lanes.md) -/

/-- R15, R262, R265, R266: the rows of Table LAN-6 that bring a lane up: from OFF by EN (a left-over exchange lane stays OFF, R15), through TRAINING and
ALIGNING to UP; out of FAULT when the signal returns, when the relock window ends and when RETRY has passed; and to OFF by EN. In training the far receiver's
requests move the taps one step or to preset 1 and are answered, and PRE_ACT and the lane's own precoding are as asked and granted. Where it rests on a
reading or a choice of the model, that is log 29. -/
def Obligations.LaneComesUp : Prop :=
  ∀ (s : State) (i : HalfId) (lam : Nat), let h := s.half i
    let st := h.lanState lam
    let trains := h.flag LAN_CFG_TRAIN_EN lam || h.flag LAN_CFG_AN_EN lam
    let goes (c : Instr) (state : Nat) (ws : List Nat) (p : Half → Prop) : Prop :=
      Completes c s (fun t => s.LaneGoes t i lam state (LAN_STAT.at lam :: ws) ∧ p (t.half i))
    s.Works i → lam < 54 →
    (st = lanOff → goes (.laneEnable i lam) (if h.laneIdle lam then lanOff else if trains then lanTraining else lanAligning) [LAN_CFG.at lam] (fun g =>
      g.flag LAN_CFG_EN lam = true ∧ g.fget LAN_CFG_MODE lam = h.fget LAN_CFG_MODE lam))
    ∧ (st ≠ lanOff → goes (.laneEnable i lam) st [LAN_CFG.at lam] (fun g => g.flag LAN_CFG_EN lam = true))
    ∧ goes (.laneDisable i lam) lanOff [LAN_CFG.at lam] (fun g =>
      g.flag LAN_CFG_EN lam = false ∧ g.fget LAN_CFG_MODE lam = h.fget LAN_CFG_MODE lam)
    ∧ (st = lanTraining → h.flag LAN_CFG_AN_EN lam = true →
      goes (.autoNegotiationDone i lam true) (if h.flag LAN_CFG_TRAIN_EN lam then lanTraining else lanAligning) [] (fun _ => True))
    ∧ (st = lanTraining →
      (∀ asks pre farAsks, goes (.trainingReady i lam asks ⟨pre, farAsks⟩) lanAligning [LAN_COEF.at lam] (fun g =>
        g.flag LAN_STAT_PRE_ACT lam = pre ∧ (g.lane lam).txPre = (farAsks && h.flag LAN_CFG_PRECODE lam)))
      ∧ (∀ pre farAsks, let ready (asks : List TapAsk) (p : Half → Prop) : Prop := Completes (.trainingReady i lam asks ⟨pre, farAsks⟩) s (fun t => p (t.half i))
        ready [] (fun g => g.getN LAN_COEF lam = h.getN LAN_COEF lam)
        ∧ ready [.preset 1] (fun g => g.getN LAN_COEF lam = 0 ∧ Emission.tapAnswer lam 0 ∈ g.out)
        ∧ ∀ tap up, let c := h.getN LAN_COEF lam
          let v := sext 6 (bits c (6 * tap + 5) (6 * tap)) + (if up then 1 else -1)
          let lim := Config.tapLimit (h.lanMode lam) tap
          (5 ≤ tap → ready [.step tap up] (fun g => g.getN LAN_COEF lam = c ∧ Emission.tapAnswer lam 2 ∈ g.out))
          ∧ (tap < 5 → v < lim.1 ∨ lim.2 < v → ready [.step tap up] (fun g => g.getN LAN_COEF lam = c ∧ Emission.tapAnswer lam 1 ∈ g.out))
          ∧ (tap < 5 → lim.1 ≤ v → v ≤ lim.2 → ready [.step tap up] (fun g =>
              g.getN LAN_COEF lam = setBits c (6 * tap + 5) (6 * tap) (wrapBits 6 v) ∧ Emission.tapAnswer lam 0 ∈ g.out))))
    ∧ (st = lanAligning → goes (.laneAligned i lam) lanUp [] (fun g => g.flag LAN_STAT_BLOCK_LOCK lam = true
      ∧ g.flag LAN_STAT_RF lam = false ∧ (lam < 32 → bit (g.getN LAN_UP) lam = true)))
    ∧ (st = lanFault → h.fget LAN_STAT_CAUSE lam ≠ 7 → h.fget LAN_STAT_CAUSE lam ≠ 8 → goes (.signalPresent i lam) lanAligning [] (fun g =>
      g.flag LAN_STAT_LOS lam = false ∧ (g.lane lam).relock = true))
    ∧ (st = lanAligning → (h.lane lam).relock = true →
      (h.flag LAN_CFG_AUTO_RETRAIN lam = true → goes (.relockWindowEnd i lam) (if trains then lanTraining else lanAligning) [] (fun _ => True))
      ∧ (h.flag LAN_CFG_AUTO_RETRAIN lam = false → goes (.relockWindowEnd i lam) lanFault [LAN_CNT_13.at lam] (fun _ => True)))
    ∧ (st = lanFault → h.fget LAN_STAT_CAUSE lam = 7 ∨ h.fget LAN_STAT_CAUSE lam = 8 → h.flag LAN_CFG_AUTO_RETRAIN lam = true →
      goes (.retryTimeout i lam) (if trains then lanTraining else lanAligning) [] (fun _ => True))

/-- R258, R262, R263, R271: the rows of Table LAN-6 into FAULT and DEGRADED, each with its cause of Table LAN-7 and its counters; FAULTS counts every entry
into FAULT, and LOCK_LOSS those for causes 2 and 3; a FEC window adds its corrections to the counters, its invalid sync headers to BAD_HDR, and leaves its
corrected symbols for the lane's next LM block. Where it rests on a reading or a choice of the model, that is log 29. -/
def Obligations.LaneFaults : Prop :=
  ∀ (s : State) (i : HalfId) (lam : Nat), let h := s.half i
    let st := h.lanState lam
    let up := h.laneUp lam
    let goes (c : Instr) (state : Nat) (ws : List Nat) (p : Half → Prop) : Prop :=
      Completes c s (fun t => s.LaneGoes t i lam state (LAN_STAT.at lam :: ws) ∧ p (t.half i))
    let fault (c : Instr) (cause : Nat) (ws : List Nat) (p : Half → Prop) : Prop := goes c lanFault (LAN_CNT_13.at lam :: ws) (fun g =>
      g.fget LAN_STAT_CAUSE lam = cause ∧ Half.Counted h g LAN_CNT_13 1 lam ∧ p g)
    s.Works i → lam < 54 →
    (up = true ∨ st = lanAligning → fault (.losDetect i lam) 1 [] (fun g => g.flag LAN_STAT_LOS lam = true))
    ∧ (up = true → h.lanMode lam ≠ 2 → fault (.fecAlignLoss i lam) 2 [LAN_CNT_12.at lam] (fun g =>
      g.flag LAN_STAT_FEC_ALIGN lam = false ∧ Half.Counted h g LAN_CNT_12 1 lam))
    ∧ (up = true → fault (.blockLockLoss i lam) 3 [LAN_CNT_11.at lam, LAN_CNT_12.at lam] (fun g =>
      g.flag LAN_STAT_BLOCK_LOCK lam = false ∧ Half.Counted h g LAN_CNT_11 16 lam ∧ Half.Counted h g LAN_CNT_12 1 lam))
    ∧ (∀ bs, h.lanMode lam = 0 → bs.length = 8 → byteAt bs 0 = 0xAA → crc8 (bs.take 7) = byteAt bs 7 → st ≠ lanOff → st ≠ lanTraining →
      (h.fget LAN_TEST_LOOP lam = 1 → (h.lane lam).sent.contains bs = true) →
      (bit (byteAt bs 2) 0 = false → goes (.lmBlockReceived i lam bs) st [] (fun g =>
          g.fget LAN_STAT_FAR_LANE lam = byteAt bs 1 ∧ g.flag LAN_STAT_RF lam = false ∧ (g.lane lam).lmRf = 0))
      ∧ (bit (byteAt bs 2) 0 = true → up = false ∨ (h.lane lam).lmRf = 0 → goes (.lmBlockReceived i lam bs) st [] (fun g =>
          g.fget LAN_STAT_FAR_LANE lam = byteAt bs 1 ∧ g.flag LAN_STAT_RF lam = true ∧ (g.lane lam).lmRf = (h.lane lam).lmRf + 1))
      ∧ (bit (byteAt bs 2) 0 = true → 0 < (h.lane lam).lmRf → up = true → fault (.lmBlockReceived i lam bs) 4 [] (fun g =>
          g.fget LAN_STAT_FAR_LANE lam = byteAt bs 1 ∧ g.flag LAN_STAT_RF lam = true)))
    ∧ (h.lanMode lam = 1 → up = true → fault (.remoteFaultSequence i lam) 4 [] (fun g => g.flag LAN_STAT_RF lam = true))
    ∧ (st = lanTraining → fault (.trainTimeout i lam) 7 [] (fun _ => True))
    ∧ (st = lanTraining → h.flag LAN_CFG_AN_EN lam = true → fault (.autoNegotiationDone i lam false) 8 [] (fun _ => True))
    ∧ (∀ sym cw unc hdr, up = true ∨ st = lanAligning →
      let c := Instr.fecWindowEnd i lam sym cw ⟨unc, hdr⟩
      let ws := [LAN_CNT_8.at lam, LAN_CNT_9.at lam, LAN_CNT_10.at lam, LAN_CNT_11.at lam]
      let counts (g : Half) : Prop := Half.Counted h g LAN_CNT_8 sym lam ∧ Half.Counted h g LAN_CNT_9 cw lam ∧ Half.Counted h g LAN_CNT_10 unc lam
        ∧ Half.Counted h g LAN_CNT_11 hdr lam ∧ (g.lane lam).corr = sym
      let bad := up = true ∧ h.fget LAN_UNC_UNC_THR lam ≠ 0 ∧ h.fget LAN_UNC_UNC_THR lam ≤ unc
      let worse := st = lanUp ∧ h.fget LAN_DEG_DEG_SET lam < sym
      let better := st = lanDegraded ∧ sym ≤ h.fget LAN_DEG_DEG_CLR lam
      (h.lanMode lam = 2 → goes c st [LAN_CNT_11.at lam] (fun g => Half.Counted h g LAN_CNT_11 hdr lam))
      ∧ (h.lanMode lam ≠ 2 →
        (bad → fault c 5 ws counts)
        ∧ (¬ bad → worse → h.flag LAN_CFG_DEG_FAULT lam = false → goes c lanDegraded ws counts)
        ∧ (¬ bad → worse → h.flag LAN_CFG_DEG_FAULT lam = true → fault c 6 ws counts)
        ∧ (¬ bad → better → goes c lanUp ws counts)
        ∧ (¬ bad → ¬ worse → ¬ better → goes c st ws counts)))

/-- R262, R267 to R270: a refused pattern changes nothing but the error record; a generator, a checker or far-end loopback takes a lane to TEST, and with
none of them it trains again, as it does where near-end loopback comes or goes; CHK_LOCK ends with the checker; the checker's lock and counts; the injector
starts, is refused while it runs, injects, and stops with TYPE 0. Where it rests on a reading or a choice of the model, that is log 29. -/
def Obligations.LaneTests : Prop :=
  ∀ (s : State) (i : HalfId) (lam : Nat), let h := s.half i
    let st := h.lanState lam
    let again := if h.flag LAN_CFG_TRAIN_EN lam || h.flag LAN_CFG_AN_EN lam then lanTraining else lanAligning
    let goes (c : Instr) (state : Nat) (ws : List Nat) (p : Half → Prop) : Prop :=
      Completes c s (fun t => s.LaneGoes t i lam state (LAN_STAT.at lam :: ws) ∧ p (t.half i))
    let refused (c : Instr) : Prop := Completes c s (fun t => s.OnlyHalf t i ∧ Half.RegsOnly h (t.half i) ∧ Half.RegsBut h (t.half i) errAddrs)
    s.Works i → lam < 54 →
    (∀ w : Word, let gen := bits w.toNat 3 0
      let chk := bits w.toNat 11 8
      let loop := bits w.toNat 17 16
      let good := loop ≠ 3 ∧ patternOk (h.lanMode lam) gen = true ∧ patternOk (h.lanMode lam) chk = true
      let turned := (h.fget LAN_TEST_LOOP lam = 0 ∧ loop = 1) ∨ (h.fget LAN_TEST_LOOP lam = 1 ∧ loop = 0)
      let begun := (h.fget LAN_TEST_GEN lam = 0 ∧ gen ≠ 0) ∨ (h.fget LAN_TEST_CHK lam = 0 ∧ chk ≠ 0) ∨ (h.fget LAN_TEST_LOOP lam ≠ 2 ∧ loop = 2)
      let ended := gen = 0 ∧ chk = 0 ∧ loop ≠ 2
      let may := h.laneUp lam = true ∨ st = lanAligning ∨ st = lanFault
      let gives (state : Nat) : Prop := goes (.laneTestWrite i lam w) state [LAN_TEST.at lam] (fun g =>
        g.fget LAN_TEST_GEN lam = gen ∧ g.fget LAN_TEST_CHK lam = chk ∧ g.fget LAN_TEST_LOOP lam = loop
        ∧ g.flag LAN_STAT_CHK_LOCK lam = (h.flag LAN_STAT_CHK_LOCK lam && chk != 0))
      (¬ good → refused (.laneTestWrite i lam w))
      ∧ (good → st ≠ lanOff → turned → gives again)
      ∧ (good → ¬ turned → st = lanTest → gives (if ended then again else lanTest))
      ∧ (good → ¬ turned → may → gives (if begun then lanTest else st))
      ∧ (good → st = lanOff → gives lanOff) ∧ (good → ¬ turned → st = lanTraining → gives lanTraining))
    ∧ (∀ lock errs units, h.fget LAN_TEST_CHK lam ≠ 0 → goes (.checkerLock i lam lock errs units) st [LAN_CNT_14.at lam, LAN_CNT_15.at lam] (fun g =>
        g.flag LAN_STAT_CHK_LOCK lam = lock ∧ Half.Counted h g LAN_CNT_14 (if h.flag LAN_STAT_CHK_LOCK lam then errs else 0) lam
        ∧ Half.Counted h g LAN_CNT_15 (if h.flag LAN_STAT_CHK_LOCK lam then units else 0) lam))
    ∧ (∀ w : Word, let ty := bits w.toNat 30 28
      let n := bits w.toNat 27 16
      1 ≤ ty → ty ≤ 4 →
      (h.flag LAN_STAT_INJ_ACT lam = true → refused (.injStart i lam w))
      ∧ (h.flag LAN_STAT_INJ_ACT lam = false → ty = 4 → h.lanMode lam = 2 → refused (.injStart i lam w))
      ∧ (h.flag LAN_STAT_INJ_ACT lam = false → ¬ (ty = 4 ∧ h.lanMode lam = 2) → goes (.injStart i lam w) st [LAN_INJ.at lam] (fun g =>
          g.flag LAN_STAT_INJ_ACT lam = true ∧ g.fget LAN_INJ_TYPE lam = ty ∧ (g.lane lam).injLeft = (if n = 0 then none else some n))))
    ∧ goes (.injStop i lam) st [LAN_INJ.at lam] (fun g => g.flag LAN_STAT_INJ_ACT lam = false ∧ Half.FieldSet h g LAN_INJ_TYPE 0 lam)
    ∧ (h.flag LAN_STAT_INJ_ACT lam = true → h.laneUp lam = true ∨ st = lanTest →
        let sent (g : Half) : Prop := g.out = h.out ++ [.injection lam (h.fget LAN_INJ_TYPE lam) (max 1 (h.fget LAN_INJ_LEN lam))]
        ((h.lane lam).injLeft = none → goes (.injection i lam) st [] (fun g => g.flag LAN_STAT_INJ_ACT lam = true ∧ (g.lane lam).injLeft = none ∧ sent g))
        ∧ (∀ n, (h.lane lam).injLeft = some n → goes (.injection i lam) st [] (fun g =>
            g.flag LAN_STAT_INJ_ACT lam = decide (1 < n) ∧ (g.lane lam).injLeft = some (n - 1) ∧ sent g)))

/-! ### HBM controllers (14_hbm.md) -/

/-- R274 to R276, R279, R281, R284, R296: a burst inside one 256-byte granule, whose pseudo-channels have room and nobody waiting. A write with a live copy is
complete at once: its enabled bytes read as written, no other byte changes, and the ID that it took is free again; parity errors of it are counted, and the
fourth fences where AUTO_FENCE is 1. A read of a live pseudo-channel with no write in its queue waits there unit by unit, each with the bytes that its unit
held as it arrived, its transaction in flight. At an unmapped address a write changes no byte and a read comes back poisoned. Where it rests on a reading or
a choice of the model, that is log 4 and log 30 and log 31. -/
def Obligations.HbmBursts : Prop :=
  ∀ (s : State) (i : HalfId) (now n : Nat) (x : Txn) (win : Bool), let h := s.half i
    let ps := h.burstPorts x
    s.Works i → x.master < 8 → 0 < x.beats → x.addr % 64 = 0 → x.addr % 256 + 64 * x.beats ≤ 256 → ps.Nodup →
    (∀ p ∈ ps, p < 128 ∧ h.pcRoom p x.beats = true ∧ ∀ r ∈ h.rdb.waiting, r.port ≠ p) → (∀ e ∈ h.hbm.queue, h.pcLive e.1 = true) →
    h.freeId x.master = some n → (∀ e ∈ h.rdb.stalled, e.1.master ≠ x.master) →
    (∀ f ∈ h.rdb.flights, f.seq ≠ h.rdb.next) → (∀ r ∈ h.rdb.waiting, r.flight ≠ h.rdb.next) →
    let regs (g : Half) (ws : List Nat) : Prop := Half.RegsBut h g (ps.map HBM_PC_1.at ++ ps.map HBM_PC_7.at ++ [RDB_INFLIGHT.at x.master] ++ ws ++ errAddrs)
    let kept (g : Half) : Prop := g = { h with regs := g.regs, evc := g.evc, errq := g.errq, once := g.once, out := g.out, hbm := g.hbm, rdb := g.rdb }
    let home (g : Half) : Prop := g.rdb.flights = h.rdb.flights ∧ g.rdb.waiting = h.rdb.waiting
    (x.write = true → (∃ p ∈ ps, h.pcLive p = true) →
      let wrote (g : Half) : Prop := (∀ k, k < 64 * x.beats → g.byte (x.addr + k) = if bit x.be k then x.data.getD k 0 else h.byte (x.addr + k))
        ∧ Half.BytesBut h g x.addr (64 * x.beats) ∧ Emission.completion x.master n [] false false ∈ g.out
      Completes (.hbmTransaction i now ⟨x, 0, win⟩) s (fun t => s.OnlyHalfBoth t i ∧ wrote (t.half i) ∧ home (t.half i) ∧ kept (t.half i) ∧ regs (t.half i) [])
      ∧ ∀ e p, 0 < e → ps.find? h.pcLive = some p →
        (e < 4 ∨ h.flag HBM_CTL_AUTO_FENCE = false → Completes (.hbmTransaction i now ⟨x, e, win⟩) s (fun t => s.OnlyHalfBoth t i ∧ wrote (t.half i)
          ∧ home (t.half i) ∧ kept (t.half i) ∧ regs (t.half i) [HBM_PC_4.at p]
          ∧ (t.half i).fget HBM_PC_4_PARITY p = (h.bump HBM_PC_4_PARITY (min e 4) p).fget HBM_PC_4_PARITY p))
        ∧ (4 ≤ e → h.flag HBM_CTL_AUTO_FENCE = true → Completes (.hbmTransaction i now ⟨x, e, win⟩) s (fun t => wrote (t.half i)
          ∧ (t.half i).fget HBM_PC_1_STATE p = 1 ∧ (t.half i).fget HBM_PC_1_CAUSE p = 2)))
    ∧ (∀ p, x.write = false → ps = [p] → h.pcLive p = true → (∀ y ∈ h.pcQueue p, y.write = false) → ∀ e, Completes (.hbmTransaction i now ⟨x, e, win⟩) s (fun t =>
      let g := t.half i
      s.OnlyHalfBoth t i ∧ kept g ∧ regs g ((h.addrPcs x.addr).map HBM_PC_2.at) ∧ g.hbm.mem = h.hbm.mem ∧ g.rdb.waiting = h.rdb.waiting
      ∧ (∃ f, g.rdb.flights = h.rdb.flights ++ [f] ∧ f.id = n ∧ f.master = x.master ∧ f.left = x.beats)
      ∧ (g.pcQueue p).take (h.pcQueue p).length = h.pcQueue p
      ∧ ((g.pcQueue p).drop (h.pcQueue p).length).map (fun y => (y.write, y.unit, y.data))
          = (List.range x.beats).map (fun k => (false, x.addr / 64 + k, h.unitBytes (x.addr / 64 + k)))))
    ∧ (ps = [] → ∀ e, Completes (.hbmTransaction i now ⟨x, e, win⟩) s (fun t => let g := t.half i
      s.OnlyHalfBoth t i ∧ home g ∧ kept g ∧ regs g [] ∧ g.hbm = h.hbm ∧ Half.Logged h g errHBM_NO_REGION 0xFFFF
      ∧ Emission.completion x.master n (if x.write then [] else List.replicate (64 * x.beats) 0) (!x.write) false ∈ g.out))

/-- R283 to R286: the outcome of the read issued next, no write being in the queue: clean or corrected data come back, the last of a transaction to its
master, and what was corrected is counted; a double-bit error of a unit that has no second copy is counted, latched in HBM_ERR_ADDR and delivered poisoned
(with FENCE_UNC 0); the scrubber reads on from unit to unit, opening the row (POLICY 0) and delivering nothing. No byte of memory changes. Where it rests on
a reading or a choice of the model, that is log 30. -/
def Obligations.HbmReadOutcomes : Prop :=
  ∀ (s : State) (i : HalfId) (now p : Nat) (win : Bool), let h := s.half i
    let counted (g : Half) (out : ReadOutcome) : Prop := match out with
      | .single => Half.Counted h g HBM_PC_2 1 p
      | .onDie => g.fget HBM_PC_4_ODE p = (h.bump HBM_PC_4_ODE 1 p).fget HBM_PC_4_ODE p
      | .parity e => g.fget HBM_PC_4_PARITY p = (h.bump HBM_PC_4_PARITY e p).fget HBM_PC_4_PARITY p
      | _ => True
    let good (out : ReadOutcome) : Prop := match out with
      | .double => False
      | .parity e => e < 4
      | _ => True
    let words : List Nat := [HBM_PC_1.at p, HBM_PC_2.at p, HBM_PC_4.at p, HBM_PC_7.at p] ++ errAddrs
    s.Works i → p < 128 → h.pcLive p = true → (∀ e ∈ h.hbm.queue, h.pcLive e.1 = true) →
    (∀ k x f, (∀ y ∈ h.pcQueue p, y.write = false) → h.nextRead p now = some k → (h.pcQueue p)[k]? = some x → x.poison = false →
      h.rdb.flights.find? (fun f => f.seq == x.flight) = some f → f.origin = none → f.req.write = false → f.bad = false →
      (∀ e ∈ h.rdb.stalled, e.1.master ≠ f.master) → 2 * x.unit + x.copy ∉ h.hbm.poison →
      let got := SMap.insert f.got x.unit x.data
      let kept (g : Half) (ws : List Nat) : Prop := g.pcQueue p = (h.pcQueue p).eraseIdx k ∧ g.hbm.mem = h.hbm.mem
        ∧ g = { h with regs := g.regs, evc := g.evc, errq := g.errq, once := g.once, out := g.out, hbm := g.hbm, rdb := g.rdb }
        ∧ Half.RegsBut h g (RDB_INFLIGHT.at f.master :: (words ++ ws))
      (∀ out, good out → Completes (.hbmReadResult i p now out win) s (fun t => let g := t.half i
        s.OnlyHalfBoth t i ∧ kept g [] ∧ g.hbm.poison = h.hbm.poison ∧ counted g out
        ∧ (f.left = 1 → Emission.completion f.master f.id (got.flatMap (·.2)) false false ∈ g.out
            ∧ g.rdb.flights = h.rdb.flights.filter (fun e => e.seq != x.flight))
        ∧ (1 < f.left → g.rdb.flights.find? (fun e => e.seq == x.flight) = some { f with left := f.left - 1, got := got })))
      ∧ (f.left = 1 → h.addrPcs (x.unit * 64) = [p] → h.fget HBM_ECC_CFG_FENCE_UNC = 0 →
        Completes (.hbmReadResult i p now .double win) s (fun t => let g := t.half i
          s.OnlyHalfBoth t i ∧ kept g [HBM_PC_3.at p, HBM_ERR_ADDR_LO.at 0, HBM_ERR_ADDR_HI.at 0, pendAddr (256 + p)]
          ∧ Emission.completion f.master f.id (got.flatMap (·.2)) true false ∈ g.out
          ∧ g.hbm.poison = (2 * x.unit + x.copy) :: h.hbm.poison ∧ Half.Counted h g HBM_PC_3 1 p ∧ Half.RaisedOnce h g (256 + p)
          ∧ g.getN HBM_ERR_ADDR_LO = x.unit * 64 % 2 ^ 32)))
    ∧ (let u := SMap.getD h.hbm.scrub p 0
      h.flag HBM_CTL_SCRUB_EN = true → (∀ a c, h.addressAt p (u * 64) = some (a, c) → 2 * (a / 64) + c ∉ h.hbm.poison) →
      ∀ out, good out → Completes (.scrubRead i p now out win) s (fun t => let g := t.half i
        s.OnlyHalfBoth t i ∧ SMap.getD g.hbm.scrub p 0 = (u + 1) % pcUnits ∧ counted g out
        ∧ (h.fget HBM_PC_0_POLICY p ≠ 1 → SMap.find? g.hbm.rows (bankKey p (bankOf (u * 64))) = some (rowOf (u * 64)))
        ∧ g.hbm = { h.hbm with scrub := g.hbm.scrub, acts := g.hbm.acts, rows := g.hbm.rows, rfms := g.hbm.rfms }
        ∧ Half.HbmOnly h g ∧ Half.RegsBut h g words))

/-- R282, R283, R292: refreshes of an idle bank are pulled in, one is postponed while row hits wait, up to eight, and else they run; the end of a window
clears the stack's activate tables and RFM counts; a temperature sets the refresh rate of R282 with its 2 °C, and HOT. R287, R288, R290: a failed
retraining fences where AUTO_FENCE is 1, and FENCE always: the pseudo-channel is FENCING with its cause, its bit of HBM_FENCED set and its source raised, and
no stored byte changes; training makes the failed ones FAILED and READY 1, and in step 5 of start-up every lane is enabled, and leaves OFF unless it is left
over. Where it rests on a reading or a choice of the model, that is log 5, log 29 and log 30. -/
def Obligations.HbmRefreshAndFencing : Prop :=
  (∀ (s : State) (i : HalfId), let h := s.half i
    s.Works i →
    (∀ p bank, p < 128 → bank ≤ Config.hbmBanks → h.pcLive p = true →
      let q := (h.pcQueue p).filter (fun x => bankOf x.lbyte == bank)
      let owed := SMap.getD h.hbm.owed (bankKey p bank) 0
      let gives (n : Nat) (o : Int) : Prop := Completes (.refreshDue i p bank) s (fun t => s.OnlyHalf t i ∧ Half.HbmOnly h (t.half i) ∧ Half.RegsBut h (t.half i) []
        ∧ (t.half i).out = h.out ++ List.replicate n (.bankOp p bank 0) ∧ SMap.getD (t.half i).hbm.owed (bankKey p bank) 0 = o
        ∧ (t.half i).hbm.mem = h.hbm.mem ∧ (n = 0 → (t.half i).hbm.rows = h.hbm.rows))
      (q = [] → gives (owed + 9).toNat (-8))
      ∧ (q.any (h.rowHit p) = true → (owed < 8 → gives 0 (owed + 1)) ∧ (8 ≤ owed → gives 1 owed))
      ∧ (q ≠ [] → q.any (h.rowHit p) = false → (owed < 0 → gives 0 (owed + 1)) ∧ (0 ≤ owed → gives (owed + 1).toNat 0)))
    ∧ (∀ stack, Completes (.refreshWindowEnd i stack) s (fun t => let m := (t.half i).hbm
      s.OnlyHalf t i ∧ Half.HbmOnly h (t.half i) ∧ Half.RegsBut h (t.half i) [] ∧ m = { h.hbm with acts := m.acts, rfms := m.rfms }
      ∧ (∀ p bank, bank < 2 ^ 16 → p / 32 = stack → SMap.find? m.acts (bankKey p bank) = none ∧ SMap.find? m.rfms (bankKey p bank) = none)
      ∧ (∀ p bank, bank < 2 ^ 16 → p / 32 ≠ stack → SMap.find? m.acts (bankKey p bank) = SMap.find? h.hbm.acts (bankKey p bank)
          ∧ SMap.find? m.rfms (bankKey p bank) = SMap.find? h.hbm.rfms (bankKey p bank))))
    ∧ (∀ stack (c : Int), stack < 4 → Completes (.hbmTempRead i stack c) s (fun t => s.OnlyHalf t i ∧ Half.RegsOnly h (t.half i)
      ∧ Half.RegsBut h (t.half i) (HBM_TEMP.at stack :: errAddrs) ∧ (t.half i).fget HBM_TEMP_TEMP stack = wrapBits 8 c
      ∧ (t.half i).fget HBM_TEMP_REFMUL stack = (if 95 < c then 2 else if 93 < c then max 1 (min 2 (h.fget HBM_TEMP_REFMUL stack)) else if 85 < c then 1
          else if 83 < c then min 1 (h.fget HBM_TEMP_REFMUL stack) else 0)
      ∧ ((h.fget HBM_THERM_HOT : Int) ≤ c → (t.half i).flag HBM_TEMP_HOT stack = true)
      ∧ (c ≤ (h.fget HBM_THERM_HOT : Int) - 3 → (t.half i).flag HBM_TEMP_HOT stack = false)
      ∧ ((h.fget HBM_THERM_HOT : Int) - 3 < c → c < h.fget HBM_THERM_HOT → (t.half i).flag HBM_TEMP_HOT stack = h.flag HBM_TEMP_HOT stack))))
  ∧ (∀ (s : State) (i : HalfId) (p : Nat) (win : Bool), let h := s.half i
    let fenced (t : State) (cause : Nat) : Prop := let g := t.half i
      g.fget HBM_PC_1_STATE p = 1 ∧ g.fget HBM_PC_1_CAUSE p = cause ∧ bit (g.getN HBM_FENCED (p / 32)) (p % 32) = true
      ∧ g.srcBit EVC_PENDING (256 + p) = true ∧ Half.StoresKept h g ∧ Half.StoresKept (s.half i.other) (t.half i.other)
    s.Works i → p < 128 →
    (h.pcLive p = true → h.flag HBM_CTL_AUTO_FENCE = true → Completes (.hbmRetrain i p false win) s (fun t => fenced t 4))
    ∧ Completes (.hbmRetrain i p true win) s (fun t => t = s)
    ∧ (h.pcLive p = true → Completes (.hbmPcFence i p win) s (fun t => fenced t 5))
    ∧ (h.pcLive p = true → h.pcQueue p = [] → (∀ e ∈ h.hbm.queue, h.pcLive e.1 = true) → (∀ c, c < 8 → h.fget HBM_PC_1_STATE (8 * (p / 8) + c) ≠ 1) →
      Completes (.hbmPcFence i p win) s (fun t => fenced t 5 ∧ s.OnlyHalfBoth t i ∧ Half.HbmOnly h (t.half i)
        ∧ Half.RegsBut h (t.half i) ([HBM_PC_1.at p, HBM_FENCED.at (p / 32), pendAddr (256 + p)] ++ errAddrs)))
    ∧ (∀ failed, Completes (.hbmTrainingDone i failed) s (fun t => (t.half i).flag HBM_CTL_READY = true
      ∧ (p ∈ failed → (t.half i).fget HBM_PC_1_STATE p = 3 ∧ (t.half i).fget HBM_PC_1_CAUSE p = 3
          ∧ bit ((t.half i).getN HBM_FENCED (p / 32)) (p % 32) = true ∧ (t.half i).srcBit EVC_PENDING (256 + p) = true)
      ∧ (p ∉ failed → (t.half i).fget HBM_PC_1_STATE p = h.fget HBM_PC_1_STATE p)
      ∧ (h.inStep 5 = false → s.OnlyHalf t i ∧ Half.RegsOnly h (t.half i))
      ∧ (h.inStep 5 = true → (t.half i).fget NVM_BOOT_STAGE = 6 ∧ ∀ lam, lam < 54 → (t.half i).flag LAN_CFG_EN lam = true
          ∧ (h.lanState lam = lanOff → ((t.half i).lanState lam = lanOff ↔ h.laneIdle lam = true)))
      ∧ (t.half i).hbm = h.hbm)))

/-! ### The Roundabout and the die bridge (15_roundabout.md) -/

/-- R294 to R296, R299, R300: a transaction of the Courtyard, nobody waiting at any port. From the parked master it is granted in the cycle it comes: a
write's words read as written where all their bytes are enabled, and stay where none is, no other word changes, and it completes; a read completes with the
words. From another master it waits at the port, its transaction in flight. One for the other half crosses from the parked master, and arrives at the
Courtyard's port there as master 7, 16 cycles later. R303 to R305: a replay is counted; when the bridge goes down each half that works counts it and what is
in flight across it completes with an error; it has retrained, and waits for the tick; a transaction past its time is latched, completed with an error and
logged. Where it rests on a reading or a choice of the model, that is log 31 and log 32. -/
def Obligations.RoundaboutAndBridge : Prop :=
  (∀ (s : State) (i : HalfId) (now n : Nat) (x : Txn), let h := s.half i
    s.Works i → x.space = .courtyard → 0 < x.beats → x.beats ≤ 16 → x.addr % 64 = 0 → x.master < 7 →
    (∀ j, (s.half j).rdb.waiting = [] ∧ ∀ e ∈ (s.half j).hbm.queue, (s.half j).pcLive e.1 = true) →
    h.freeId x.master = some n → (∀ e ∈ h.rdb.stalled, e.1.master ≠ x.master) → (∀ f ∈ h.rdb.flights, f.seq ≠ h.rdb.next) → h.rdb.clock ≤ now →
    let rdbOnly (t : State) (j : HalfId) (ws : List Nat) : Prop := Half.RdbOnly (s.half j) (t.half j) ∧ Half.RegsBut (s.half j) (t.half j) ws
    let mine := [RDB_INFLIGHT.at x.master]
    let flown (g : Half) : Prop := ∃ f, g.rdb.flights = h.rdb.flights ++ [f] ∧ f.id = n ∧ f.req = x
    (x.remote = false →
      (x.master = h.fget RDB_PARK_PARK portCourtyard → (h.port portCourtyard).busy ≤ now →
        (x.write = true → Completes (.rdbRequest i now x) s (fun t => let g := t.half i
          (∀ k, k < 16 * x.beats → (bits x.be (4 * k + 3) (4 * k) = 15 → g.cyWord (x.addr / 4 + k) = fieldAt x.data (4 * k) 4)
            ∧ (bits x.be (4 * k + 3) (4 * k) = 0 → g.cyWord (x.addr / 4 + k) = h.cyWord (x.addr / 4 + k)))
          ∧ (∀ a, a < x.addr / 4 ∨ x.addr / 4 + 16 * x.beats ≤ a → g.cyWord a = h.cyWord a) ∧ g.out = h.out ++ [.completion x.master n [] false false]
          ∧ g.rdb.flights = h.rdb.flights ∧ g.rdb.waiting = [] ∧ g.hbm = h.hbm ∧ g.arc = { h.arc with cy := g.arc.cy }
          ∧ Half.RegsBut h g mine ∧ rdbOnly t i.other []))
        ∧ (x.write = false → Completes (.rdbRequest i now x) s (fun t => let g := t.half i
          g.out = h.out ++ [.completion x.master n (h.cyBytes (x.addr / 4) (16 * x.beats)) false false]
          ∧ g.rdb.flights = h.rdb.flights ∧ g.rdb.waiting = [] ∧ rdbOnly t i mine ∧ rdbOnly t i.other [])))
      ∧ (x.master ≠ h.fget RDB_PARK_PARK portCourtyard → (h.port portCourtyard).busy < now → Completes (.rdbRequest i now x) s (fun t => let g := t.half i
        (∃ r, g.rdb.waiting = [r] ∧ r.port = portCourtyard ∧ r.master = x.master ∧ r.req = x ∧ r.since = now)
        ∧ flown g ∧ g.out = h.out ∧ rdbOnly t i mine ∧ rdbOnly t i.other [])))
    ∧ (x.remote = true → x.master = h.fget RDB_PARK_PARK portBridge → (h.port portBridge).busy ≤ now → s.board.bridgeUp = true →
      ∀ m, (s.half i.other).freeId 7 = some m → (s.half i.other).rdb.clock ≤ now → Completes (.rdbRequest i now x) s (fun t =>
        let o := s.half i.other
        let q := t.half i.other
        (t.half i).rdb.waiting = [] ∧ flown (t.half i) ∧ rdbOnly t i mine ∧ rdbOnly t i.other [RDB_INFLIGHT.at 7]
        ∧ (∃ f, q.rdb.flights = o.rdb.flights ++ [f] ∧ f.id = m ∧ f.master = 7 ∧ f.origin = some h.rdb.next)
        ∧ ∃ r, q.rdb.waiting = [r] ∧ r.port = portCourtyard ∧ r.master = 7 ∧ r.qos = h.fget RDB_QOS_QOS x.master ∧ r.ready = now + 16
            ∧ r.req = { x with remote := false, master := 7 })))
  ∧ (∀ (s : State) (i : HalfId), let h := s.half i
    s.Works i →
    (s.board.bridgeUp = true → Completes (.bridgeCrcFail i) s (fun t => s.OnlyHalf t i ∧ Half.Counted h (t.half i) RDB_BRIDGE_CNT 1
      ∧ Half.RegsOnly h (t.half i) ∧ Half.RegsBut h (t.half i) (RDB_BRIDGE_CNT.at 0 :: errAddrs)))
    ∧ (s.board.bridgeUp = true → Completes .bridgeDown s (fun t =>
      t.board = { s.board with bridgeUp := false, bridgeReady := false }
      ∧ (t.half i).flag RDB_STAT_BRIDGE_UP = false ∧ (t.half i).fget RDB_STAT_DOWNS = min (h.fget RDB_STAT_DOWNS + 1) 255
      ∧ (∀ f ∈ h.rdb.flights, f.req.remote = true → f.origin = none →
          Emission.completion f.master f.id (errData f.req) (!f.req.write) true ∈ (t.half i).out)
      ∧ Half.RdbOnly h (t.half i)
      ∧ ((∀ f ∈ h.rdb.flights, f.master < 8) → Half.RegsBut h (t.half i) (RDB_STAT.at 0 :: (errAddrs ++ (List.range 8).map RDB_INFLIGHT.at)))))
    ∧ (s.board.bridgeUp = false → Completes .bridgeRetrained s (fun t =>
      t = { s with board := { s.board with bridgeReady := true } }))
    ∧ (∀ m n f, (h.inFlight m).find? (fun f => f.id == n) = some f → f.origin = none → (∀ e ∈ h.rdb.stalled, e.1.master ≠ m) →
      Completes (.rdbTimeout i m n) s (fun t => let g := t.half i
        s.OnlyHalf t i ∧ g.out = h.out ++ [.completion m n (errData f.req) (!f.req.write) true]
        ∧ (∀ x, x ∈ g.rdb.flights ↔ x ∈ h.rdb.flights ∧ x.seq ≠ f.seq) ∧ g.getN RDB_TMO_ADDR_LO = f.req.addr % 2 ^ 32
        ∧ Half.RdbOnly h g ∧ Half.RegsBut h g ([RDB_TMO_ADDR_LO.at 0, RDB_TMO_ADDR_HI.at 0, RDB_INFLIGHT.at m] ++ errAddrs))))

/-! ### Timing and the tick (16_timing_reference.md) -/

/-- R310, R312 to R314, R323: an event of an enabled reference sets its error, wrapped to its ambiguity (of reference 5 the θ of its link group); a phase
that jumps beyond PJ_THR from what FOFS leads to expect ends its qualification; the first PTP sample sets the TAI second where a subarray runs without valid
time; each second FOFS is as measured, clamped, and the clean seconds of a reference count; a PTP timestamp raises its source. Where it rests on a reading
or a choice of the model, that is log 33. -/
def Obligations.References : Prop :=
  ∀ (s : State) (i : HalfId), let h := s.half i
    s.Works i →
    (∀ r obs now tai, r < 7 → r < h.tmg.refs.length → h.flag TMG_REF_0_EN r = true →
      let raw : Int := if r = 5 then (h.link (h.fget TMG_REF_0_SRC 5)).theta else obs
      let e := wrapAmb (h.ambiguity r) (raw - h.getI TMG_REF_4 r)
      let jump := ∃ t0, (h.ref r).seenAt = some t0 ∧ h.fget TMG_REF_3_PJ_THR r * 1000
        < (wrapAmb (h.ambiguity r) (e - (h.ref r).err - rneDiv (h.getI TMG_REF_7 r * ((now - t0) * 10000 : Nat)) (10 ^ 12))).natAbs
      let first := r = 6 ∧ h.tmg.ptpSeen = false ∧ h.flag TMG_STAT_TIME_VALID = false ∧ h.subRuns = true
      let moved (t : State) (ws : List Nat) : Prop := s.OnlyHalf t i ∧ ((t.half i).ref r).err = e ∧ ((t.half i).ref r).seenAt = some now
        ∧ (∀ q, q ≠ r → (t.half i).ref q = h.ref q) ∧ Half.TmgOnly h (t.half i)
        ∧ (first → (t.half i).getN TMG_TSET_0 = tai % 2 ^ 32 ∧ Half.FieldSet h (t.half i) TMG_TSET_1_SEC_HI (tai / 2 ^ 32))
        ∧ (¬ first → (t.half i).getN TMG_TSET_0 = h.getN TMG_TSET_0 ∧ (t.half i).getN TMG_TSET_1 = h.getN TMG_TSET_1)
        ∧ Half.RegsBut h (t.half i) ([TMG_REF_PH.at r, TMG_TSET_0.at 0, TMG_TSET_1.at 0] ++ ws)
      (¬ jump → Completes (.referenceEvent i r obs now tai) s (fun t => moved t [] ∧ (t.half i).flag TMG_REF_5_QUAL r = h.flag TMG_REF_5_QUAL r))
      ∧ (jump → Completes (.referenceEvent i r obs now tai) s (fun t =>
          moved t ([TMG_REF_5.at r, TMG_REF_6.at r, pendAddr (34 + r)] ++ errAddrs)
          ∧ (t.half i).flag TMG_REF_6_PHASE_JUMP r = true ∧ (t.half i).flag TMG_REF_5_QUAL r = false ∧ ((t.half i).ref r).clean = 0
          ∧ (h.flag TMG_REF_5_QUAL r = true → (t.half i).srcBit EVC_PENDING (34 + r) = true ∧ Half.Logged h (t.half i) errREF_LOST 0xFFFF))))
    ∧ (∀ r f fofs, r < 7 → r < h.tmg.refs.length → fofs[r]? = some f → h.flag TMG_REF_0_EN r = true →
      let c := clamp (-(2 ^ 31)) (2 ^ 31 - 1) f
      let bad := (h.ref r).los = true ∨ h.getN TMG_REF_2 r < c.natAbs
      Completes (.secondUpdate i fofs) s (fun t => s.OnlyHalf t i
        ∧ (t.half i).getN TMG_REF_7 r = wrapBits 32 c ∧ (t.half i).tmg.secs = h.tmg.secs + 1
        ∧ (bad → ((t.half i).ref r).clean = 0 ∧ ((t.half i).ref r).dirty = true)
        ∧ (¬ bad → ((t.half i).ref r).clean = (if (h.ref r).dirty then (h.ref r).clean else (h.ref r).clean + 1) ∧ ((t.half i).ref r).dirty = false)
        ∧ Half.TmgOnly h (t.half i) ∧ Half.RegsBut h (t.half i) ((List.range 7).map TMG_REF_7.at ++ (List.range 7).map TMG_REF_5.at)))
    ∧ Completes (.ptpTimestamp i) s (fun t => s.OnlyHalf t i ∧ (t.half i).srcBit EVC_PENDING 44 = true
      ∧ Half.RegsOnly h (t.half i) ∧ Half.RegsBut h (t.half i) [pendAddr 44])

/-- R309, R315, R316, R319, R320: a selection cycle advances device time by 100,000 cycles where no step of R317 may come; in the secondary the loop state
stays, and HOLD of the primary leaves ACQUIRE, LOCKED or SWITCHING for HOLDOVER where the model is valid and for FREERUN where not. Every 64 s the mean
correction of LOCKED joins the model, valid from eight on. In holdover each second updates TE, and beyond HO_THR the holdover expires. The secondary copies
the primary's time and loop state. Where it rests on a reading or a choice of the model, that is log 5 and log 33. -/
def Obligations.LoopAndHoldover : Prop :=
  ∀ (s : State) (i : HalfId), let h := s.half i
    let st := h.fget TMG_STAT_STATE
    s.Works i →
    (∀ los, h.flag TMG_STAT_TIME_VALID = true ∨ h.flag TMG_CTL_STEP_EN = false ∨ h.subRuns = true ∨ (s.half i.other).subRuns = true →
      Completes (.selectionCycle i los) s (fun t => let g := t.half i
      g.deviceTime = (h.deviceTime + 100000) % 2 ^ 64 ∧ g.getN TMG_TIME_FR = h.getN TMG_TIME_FR
      ∧ t.half i.other = s.half i.other ∧ t.freeCtr = s.freeCtr + 3 ∧ Half.TmgOnly h g
      ∧ (h.fget LSE_STAT_ROLE = 1 → g.fget TMG_STAT_STATE = st ∧ g.tmg.corr = h.tmg.corr)
      ∧ (h.fget LSE_STAT_ROLE ≠ 1 → h.flag TMG_CTL_HOLD = true → 1 ≤ st → st ≤ 3 → g.fget TMG_STAT_SEL = 0xF ∧ g.srcBit EVC_PENDING 32 = true
          ∧ (h.flag TMG_STAT_MODEL_VALID = true → g.fget TMG_STAT_STATE = 4 ∧ g.tmg.hoSecs = 0)
          ∧ (h.flag TMG_STAT_MODEL_VALID = false → g.fget TMG_STAT_STATE = 0 ∧ g.tmg.corr = 0))))
    ∧ (h.fget LSE_STAT_ROLE ≠ 1 → Completes (.holdoverMeanStore i) s (fun t => s.OnlyHalf t i
      ∧ (t.half i).tmg.means = (if st = 2 ∧ h.tmg.cntCorr ≠ 0 then ((h.tmg.secs, rneDiv h.tmg.sumCorr h.tmg.cntCorr) :: h.tmg.means).take 1024
          else h.tmg.means)
      ∧ (t.half i).tmg.cntCorr = 0 ∧ (t.half i).tmg.sumCorr = 0
      ∧ (t.half i).flag TMG_STAT_MODEL_VALID = (h.flag TMG_STAT_MODEL_VALID || decide (8 ≤ (t.half i).tmg.means.length))
      ∧ Half.TmgOnly h (t.half i) ∧ Half.RegsBut h (t.half i) [TMG_STAT.at 0]))
    ∧ (h.fget LSE_STAT_ROLE ≠ 1 → st = 4 ∨ st = 5 →
      let te := ({ h with tmg := { h.tmg with hoSecs := h.tmg.hoSecs + 1 } } : Half).teScaled
      Completes (.hoTeUpdate i) s (fun t => s.OnlyHalf t i ∧ (t.half i).tmg.hoSecs = h.tmg.hoSecs + 1
        ∧ (t.half i).getN HO_TE = min (te / (2 ^ 17 * 10 ^ 9)) (2 ^ 32 - 1)
        ∧ (t.half i).fget TMG_STAT_STATE = (if st = 5 ∨ h.getN HO_THR * (2 ^ 17 * 10 ^ 9) < te then 5 else 4)
        ∧ Half.TmgOnly h (t.half i) ∧ Half.RegsBut h (t.half i) ([HO_TE.at 0, TMG_STAT.at 0, pendAddr 32] ++ errAddrs)))
    ∧ (h.fget LSE_STAT_ROLE = 1 → (s.half i.other).mainUp = true → (s.half i.other).fget LSE_STAT_ROLE = 2 →
      Completes (.timeCopy i) s (fun t => let o := s.half i.other
        s.OnlyHalf t i ∧ (t.half i).deviceTime = o.deviceTime
        ∧ (t.half i).fget TMG_STAT_STATE = o.fget TMG_STAT_STATE ∧ (t.half i).get TMG_DAC_CODE = o.get TMG_DAC_CODE ∧ (t.half i).get HO_TE = o.get HO_TE
        ∧ (t.half i).tmg = { o.tmg with refs := h.tmg.refs } ∧ (t.half i).isl = { h.isl with copyFresh := true }
        ∧ (t.half i).hbm = h.hbm ∧ (t.half i).arc = h.arc
        ∧ Half.RegsBut h (t.half i) [TMG_TIME_LO.at 0, TMG_TIME_HI.at 0, TMG_TIME_FR.at 0, TMG_STAT.at 0, TMG_DAC_CODE.at 0, HO_TE.at 0]))

/-- R307, R308, R317, R322: TSET GO sets device time so that the next PPS edge is SEC, and is refused while a subarray runs in either half; a PPS edge sets
device time in every half that works, and the half that drives emits it; in a half that is booting alone with nothing in flight, a tick opens its frame, sets
device time and hands over a front delay that waits in the shadow. Where it rests on a reading or a choice of the model, that is log 33. -/
def Obligations.TimeAndTicks : Prop :=
  ∀ (s : State) (i : HalfId), let h := s.half i
    let runs := h.subRuns || (s.half i.other).subRuns
    s.Works i →
    (runs = true → Completes (.tsetGo i) s (fun t => s.OnlyHalf t i ∧ Half.RegsOnly h (t.half i) ∧ Half.RegsBut h (t.half i) errAddrs
      ∧ Half.Logged h (t.half i) errTMG_CFG_RANGE 0xFFFF))
    ∧ (runs = false → Completes (.tsetGo i) s (fun t => s.OnlyHalf t i ∧ (t.half i).flag TMG_STAT_TIME_VALID = true
      ∧ (((t.half i).deviceTime : Nat) : Int) = ((((h.fget TMG_TSET_1_SEC_HI * 2 ^ 32 + h.getN TMG_TSET_0 : Nat) : Int)
          - ((h.fget TMG_EPOCH_HI_EPOCH_HI * 2 ^ 32 + h.getN TMG_EPOCH_LO : Nat) : Int) - 1) * 10 ^ 8 + ((h.deviceTime % 10 ^ 8 : Nat) : Int)) % 2 ^ 64
      ∧ Half.TmgOnly h (t.half i) ∧ Half.RegsBut h (t.half i) [TMG_TIME_LO.at 0, TMG_TIME_HI.at 0, TMG_TIME_FR.at 0, TMG_STAT.at 0]))
    ∧ (∀ sec, Completes (.ppsEdge sec) s (fun t => (t.half i).deviceTime = sec * 10 ^ 8 % 2 ^ 64
      ∧ (t.half i).out = h.out ++ (if h.fget LSE_STAT_DRIVE = 1 ∧ h.flag TMG_OUT_PPS_EN = true then [.ppsOut sec (max 1 (h.fget TMG_OUT_PPS_W))] else [])
      ∧ Half.RegsOnly h (t.half i) ∧ Half.RegsBut h (t.half i) [TMG_TIME_LO.at 0, TMG_TIME_HI.at 0, TMG_TIME_FR.at 0]
      ∧ ((s.half i.other).mainUp = false → t.half i.other = s.half i.other) ∧ t.board = s.board))
    ∧ (∀ w : Word, (s.half i.other).mainUp = false → s.leadHalf = some i → h.running = false → h.inHold = false → h.exy = Exy.reset →
      (s.half i.other).exy.resetAt = none → h.arc = Arc.reset → h.trw = Trw.reset → h.caps = [] → h.lta = Lta.reset → h.bmf = Bmf.reset →
      h.xch = Xch.reset → h.rdb = Rdb.reset → h.front.inputs = [] → h.front.armed = [] → h.shadowLate = [] → h.holdSample = false →
      h.shadow = [(ING_FDLY.at 0, w)] → (∀ f ∈ [ING_CTL_RUN, LTA_CTL_RUN, XCH_CTL_RUN], h.flag f = false) →
      (∀ p, p < 128 → h.fget HBM_PC_1_STATE p = 0) → (∀ n, n < 16 → h.flag BMF_TAB_2_DIRTY n = false ∧ h.fget XCH_LINK_STAT_0_STATE n = 0) → h.nextTick < 2 →
      Completes (.tick [] [] []) s (fun t => (t.half i).frame = h.nextTick % 2 ^ 48
        ∧ (t.half i).deviceTime = h.tickTime h.nextTick % 2 ^ 64 ∧ (h.srcEnabled 450 = true → (t.half i).srcBit EVC_PENDING 450 = true)
        ∧ (t.half i).shadow = [] ∧ (t.half i).getN ING_FDLY = mixBits (tickMask ING_FDLY) (h.getN ING_FDLY) w.toNat
        ∧ (t.half i).tmg.due = some (h.nextTick + 1, h.fspec * h.lin, max 1 (h.fget TMG_FS_FS))
        ∧ (t.half i).hbm.mem = h.hbm.mem ∧ (t.half i).arc.cy = h.arc.cy))

/-- R30 to R32, R46, R307, R322: a tick, in every half that works and whose reset is not due, where no finished pass waits to drain: it opens the frame that
the leading half's time gives, sets device time to its place, raises source 450 where that is enabled, and the half that drives emits the pulse. A channel
mask that waits in the shadow hands over, unless HOLD stood in the window: then it waits on, and SHADOW_HELD is set with source 453. Where it rests on a
reading or a choice of the model, that is log 1 and log 15. -/
def Obligations.TickOpensFrame : Prop :=
  ∀ (s : State) (i l : HalfId) (failN failS : List Nat) (clear : List HalfId), let h := s.half i
    let k := (s.half l).nextTick
    s.Works i → s.leadHalf = some l → (∀ n, h.exy.resetAt = some n → k < n) → h.NoDrain → (h.inHold = true → h.arc.contained = false) →
    (∀ e ∈ h.front.inputs, e.1 < 256) →
    Completes (.tick failN failS clear) s (fun t => let g := t.half i
      g.mainUp = true ∧ g.frame = k % 2 ^ 48 ∧ g.deviceTime = h.tickTime k % 2 ^ 64 ∧ g.getN TMG_TIME_FR = 0
      ∧ g.tmg.due = some (k + 1, h.fspec * h.lin, max 1 (h.fget TMG_FS_FS))
      ∧ (h.srcEnabled 450 = true → g.srcBit EVC_PENDING 450 = true)
      ∧ (h.fget LSE_STAT_DRIVE = 1 → h.flag TMG_OUT_TICK_EN = true → Emission.tickOut k (max 1 (h.fget TMG_OUT_TICK_W)) ∈ g.out)
      ∧ g.holdSample = h.flag DEV_SHDW_CTL_HOLD
      ∧ (∀ n w, n < 1024 → (CHN_MASK.at n, w) ∈ h.shadow → (∀ v, (CHN_MASK.at n, v) ∈ h.shadow → v = w) → (∀ x ∈ h.exy.planned, k < x.tick) →
          (h.holdSample = false → g.get CHN_MASK n = w)
          ∧ (h.holdSample = true → g.get CHN_MASK n = h.get CHN_MASK n ∧ g.flag DEV_SHDW_CTL_SHADOW_HELD = true ∧ g.srcBit EVC_PENDING 453 = true)))

/-! ### Halves and failover (17_halves_failover.md) -/

/-- R330, R331, R334, R338: where the lease rules give a half the role, it takes it with an epoch one above its fence, drives, and sends its
heartbeat on both paths; else the guard ends in PARTITION, and a witness that falls makes a primary SOLE. A handover to a hot secondary relinquishes; one to
a half that is not hot is ignored. The half is not waiting for a role to end its start-up (R380), and no flash update passes to it (R393). Where it rests on a reading or a choice of the model, that is log 34. -/
def Obligations.RoleTakenAndGiven : Prop :=
  ∀ (s : State) (i : HalfId), let h := s.half i
    let regs (g : Half) : Prop := Half.RegsBut h g ([LSE_STAT.at 0, LSE_EPOCH.at 0, LSE_FENCE.at 0, LSE_SW_CNT.at 0, DEV_HALF.at 0, DEV_STATE.at 0, pendAddr 64] ++ errAddrs)
    let takes (t : State) : Prop := let g := t.half i
      s.OnlyHalf t i ∧ g.fget LSE_STAT_ROLE = 2 ∧ g.fget LSE_STAT_DRIVE = 1 ∧ g.fget LSE_STAT_LEASE = 0 ∧ g.getN LSE_FENCE = h.getN LSE_FENCE + 1
      ∧ g.getN LSE_EPOCH = h.getN LSE_FENCE + 1 ∧ g.isl.guard = false ∧ g.srcBit EVC_PENDING 64 = true
      ∧ (∃ hb, g.out = h.out ++ [.heartbeat .bridge hb, .heartbeat .sideband hb] ∧ hb.epoch = h.getN LSE_FENCE + 1 ∧ hb.role = 2) ∧ regs g
    let o := s.half i.other
    s.Powered i → h.mainUp = true → h.inStep 8 = false → h.getN LSE_FENCE ≠ 2 ^ 32 - 1 → o.exy.upd.state = 0 → o.exy.flashUnread = false →
    (h.fget LSE_STAT_ROLE = 1 →
      (h.isl.listening = true → (h.id = .north → h.isl.heardPrimary = false ∧ (s.witness i = false ∨ h.isl.heardAny = true)) →
        (h.id = .south → h.isl.heardAny = false ∧ s.witness i = false) →
        Completes (.leaseListenEnd i) s (fun t => takes t ∧ (t.half i).isl.listening = false ∧ Half.IslOnly h (t.half i)))
      ∧ (h.isl.guard = true → s.witness i = false → Completes (.guardExpiry i) s (fun t => takes t ∧ Half.IslOnly h (t.half i)
        ∧ (t.half i).fget LSE_SW_CNT_TAKEOVERS = min (h.fget LSE_SW_CNT_TAKEOVERS + 1) 65535 ∧ (t.half i).isl.takingUp = true))
      ∧ (h.isl.guard = true → s.witness i = true → Completes (.guardExpiry i) s (fun t => s.OnlyHalf t i ∧ Half.IslOnly h (t.half i)
        ∧ (t.half i).fget LSE_STAT_LEASE = 2 ∧ (t.half i).fget LSE_STAT_ROLE = 1 ∧ (t.half i).isl.guard = false ∧ regs (t.half i)))
      ∧ (h.fget LSE_STAT_LEASE = 2 → s.witness i = false → Completes (.witnessFall i) s (fun t => takes t ∧ Half.IslOnly h (t.half i)))
      ∧ (∀ path, Completes (.relinquishReceived i path) s (fun t => takes t ∧ (t.half i).isl.takingUp = true
        ∧ (t.half i).fget LSE_SW_CNT_SWITCHOVERS = min (h.fget LSE_SW_CNT_SWITCHOVERS + 1) 65535
        ∧ (h.hot = true → Half.IslOnly h (t.half i))
        ∧ (h.hot = false → (t.half i).lta = { h.lta with markInc := h.frame :: h.lta.markInc }))))
    ∧ (h.fget LSE_STAT_ROLE = 2 →
      (h.fget LSE_STAT_LEASE = 2 → s.witness i = false → Completes (.witnessFall i) s (fun t => s.OnlyHalf t i ∧ Half.IslOnly h (t.half i)
        ∧ (t.half i).fget LSE_STAT_LEASE = 1 ∧ (t.half i).fget LSE_STAT_ROLE = 2 ∧ regs (t.half i)))
      ∧ (h.flag LSE_STAT_OTHER_HOT = true → Completes (.lseHandover i) s (fun t => s.OnlyHalf t i ∧ Half.IslOnly h (t.half i)
        ∧ (t.half i).fget LSE_STAT_ROLE = 1 ∧ (t.half i).fget LSE_STAT_DRIVE = 0 ∧ (t.half i).srcBit EVC_PENDING 64 = true
        ∧ (t.half i).out = h.out ++ [.relinquish .bridge, .relinquish .sideband] ∧ regs (t.half i)))
      ∧ (h.flag LSE_STAT_OTHER_HOT = false → Completes (.lseHandover i) s (fun t => s.OnlyHalf t i ∧ Half.IslOnly h (t.half i)
        ∧ (t.half i).out = h.out ∧ Half.RegsBut h (t.half i) [])))

/-- R327 to R330, R333, R422: a heartbeat is sent on both paths with the next sequence number; one that arrives gives the other half's state, its epoch and
the fence; from the primary it gives a secondary the device record and the lease, and makes a primary with the lesser claim drop the role; an echo of the
primary's own gives it the lease. A silent path is counted; the lapse of a lease is SOLE or PARTITION by the witness for the primary, and starts the guard of
the secondary; faults of the witness loop are kept; KICK changes nothing that State holds. The half is not waiting for a role to end its start-up (R380).
Where it rests on a reading or a choice of the model, that is log 34. -/
def Obligations.HeartbeatsAndLease : Prop :=
  ∀ (s : State) (i : HalfId), let h := s.half i
    let goes (c : Instr) (ws : List Nat) (p : Half → Prop) : Prop := Completes c s (fun t => s.OnlyHalf t i ∧ Half.IslOnly h (t.half i)
      ∧ Half.RegsBut h (t.half i) (ws ++ errAddrs) ∧ p (t.half i))
    s.Powered i → h.inStep 8 = false → h.isl.ready = true →
    (h.fget LSE_STAT_ROLE ≠ 3 → goes (.heartbeatSend i) [DEV_STATE.at 0] (fun g => g.isl.hbSeq = h.isl.hbSeq + 1 ∧ g.isl.copyFresh = false
      ∧ ∃ hb, g.out = h.out ++ [.heartbeat .bridge hb, .heartbeat .sideband hb] ∧ hb.seq = h.isl.hbSeq + 1 ∧ hb.echo = h.isl.hbIn
        ∧ hb.role = h.fget LSE_STAT_ROLE ∧ hb.epoch = h.getN LSE_EPOCH))
    ∧ (∀ path hb, hb.epoch < 2 ^ 32 → hb.hstate < 4 →
      let ws := [LSE_STAT.at 0, LSE_PEER.at 0, LSE_FENCE.at 0, DEV_STATE.at 0, DEV_HALF.at 0, pendAddr 64] ++ (List.range 64).map LSE_DREC.at
      let heard (p : Half → Prop) : Prop := goes (.heartbeatReceived i path hb) ws (fun g => g.fget LSE_STAT_OTHER = hb.hstate
        ∧ g.flag LSE_STAT_OTHER_HOT = hb.hot ∧ g.getN LSE_PEER = hb.epoch ∧ g.getN LSE_FENCE = max (h.getN LSE_FENCE) hb.epoch
        ∧ g.isl.hbIn = hb.seq ∧ g.isl.heardAny = true ∧ p g)
      let record (g : Half) : Prop := (∀ w, w < 64 → g.get LSE_DREC w = hb.drec.getD w 0) ∧ g.get DEV_STATE = hb.devState
      (h.fget LSE_STAT_ROLE = 1 → hb.role = 2 → hb.drec.length = 64 → heard (fun g => g.fget LSE_STAT_ROLE = 1 ∧ g.fget LSE_STAT_LEASE = 0
        ∧ g.isl.guard = false ∧ record g))
      ∧ (h.fget LSE_STAT_ROLE = 2 → hb.role = 2 → hb.drec.length = 64 → h.getN LSE_EPOCH < hb.epoch ∨ (h.getN LSE_EPOCH = hb.epoch ∧ h.id = .south) →
        heard (fun g => g.fget LSE_STAT_ROLE = 1 ∧ g.fget LSE_STAT_DRIVE = 0 ∧ record g))
      ∧ (h.fget LSE_STAT_ROLE = 2 → hb.role ≠ 2 → heard (fun g => g.fget LSE_STAT_ROLE = 2
        ∧ g.fget LSE_STAT_LEASE = (if h.isl.hbEchoed < hb.echo ∧ hb.echo ≤ h.isl.hbSeq then 0 else h.fget LSE_STAT_LEASE)
        ∧ (∀ w, w < 64 → g.get LSE_DREC w = h.get LSE_DREC w) ∧ g.get DEV_STATE = h.get DEV_STATE)))
    ∧ goes (.pathSilent i .bridge) [LSE_STAT.at 0, LSE_HB_CNT.at 0, pendAddr 64] (fun g => g.fget LSE_STAT_BRIDGE_HB = 0
      ∧ g.fget LSE_HB_CNT_BRIDGE_MISS = min (h.fget LSE_HB_CNT_BRIDGE_MISS + 1) 65535
      ∧ (h.fget LSE_STAT_SIDE_HB = 0 → s.witness i = false → g.fget LSE_STAT_OTHER = 3))
    ∧ goes (.pathSilent i .sideband) [LSE_STAT.at 0, LSE_HB_CNT.at 0, pendAddr 64] (fun g => g.fget LSE_STAT_SIDE_HB = 0
      ∧ g.fget LSE_HB_CNT_SIDE_MISS = min (h.fget LSE_HB_CNT_SIDE_MISS + 1) 65535
      ∧ (h.fget LSE_STAT_BRIDGE_HB = 0 → s.witness i = false → g.fget LSE_STAT_OTHER = 3))
    ∧ (h.fget LSE_STAT_ROLE = 2 → goes (.primaryLeaseLapse i) [LSE_STAT.at 0, pendAddr 64] (fun g =>
      g.fget LSE_STAT_LEASE = (if s.witness i then 2 else 1) ∧ g.fget LSE_STAT_ROLE = 2))
    ∧ (h.fget LSE_STAT_ROLE = 1 → h.isl.listening = false → goes (.secondaryLeaseLapse i) [] (fun g => g.isl.guard = true))
    ∧ (h.flag LSE_STAT_WIT_FAULT = false → goes (.witnessLoopFault i) [LSE_STAT.at 0, pendAddr 70] (fun g =>
      g.flag LSE_STAT_WIT_FAULT = true ∧ (h.mainUp = true → g.srcBit EVC_PENDING 70 = true)))
    ∧ (h.flag LSE_STAT_WIT_FAULT = true → (s.half i.other).aliveDrive = true ∨ h.fget LSE_STAT_LEASE ≠ 2 →
      goes (.witnessLoopFaultClear i) [LSE_STAT.at 0, pendAddr 70] (fun g =>
        g.flag LSE_STAT_WIT_FAULT = false ∧ (h.mainUp = true → g.srcBit EVC_PENDING 70 = true)))
    ∧ goes (.deviceRecordTakenUp i) [] (fun g => g.isl.takingUp = false)
    ∧ goes (.lseWdKick i) [] (fun g => g.isl = h.isl)

/-- R326, R335, R425, R427: an UNSURE island holds no role, asks on both paths and answers nobody; the answer gives it back the role it held back, or makes
it secondary; without one it is secondary with ALIVE off. The watchdog takes its half DOWN with cause 5 and its main domain to reset. The half is not waiting
for a role to end its start-up (R380), and no flash update passes to it (R393). Where it rests on a
reading or a choice of the model, that is log 34 and log 38. -/
def Obligations.UnsureAndWatchdog : Prop :=
  ∀ (s : State) (i : HalfId), let h := s.half i
    let ws := [LSE_STAT.at 0, LSE_EPOCH.at 0, LSE_FENCE.at 0, DEV_HALF.at 0, pendAddr 64] ++ errAddrs
    let goes (c : Instr) (p : Half → Prop) : Prop := Completes c s (fun t => s.OnlyHalf t i ∧ Half.IslOnly h (t.half i)
      ∧ Half.RegsBut h (t.half i) ws ∧ p (t.half i))
    s.Powered i → h.inStep 8 = false → (s.half i.other).exy.upd.state = 0 → (s.half i.other).exy.flashUnread = false →
    (h.fget LSE_STAT_ROLE ≠ 3 → goes (.unsureEntry i) (fun g => g.fget LSE_STAT_ROLE = 3 ∧ g.isl.roleKept = h.fget LSE_STAT_ROLE
      ∧ (h.mainUp = true → g.srcBit EVC_PENDING 69 = true) ∧ g.out = h.out ++ [.leaseQuery .bridge, .leaseQuery .sideband]))
    ∧ (∀ path, h.fget LSE_STAT_ROLE ≠ 3 → goes (.leaseQueryReceived i path) (fun g => g.fget LSE_STAT_ROLE = h.fget LSE_STAT_ROLE
      ∧ g.out = h.out ++ [.leaseAnswer path (h.getN LSE_EPOCH) (h.fget LSE_STAT_ROLE)]))
    ∧ (h.fget LSE_STAT_ROLE = 3 →
      (∀ epoch role, epoch < 2 ^ 32 → (role = 2 ∨ h.isl.roleKept ≠ 2) → goes (.leaseQueryAnswer i epoch role) (fun g =>
        g.fget LSE_STAT_ROLE = 1 ∧ g.fget LSE_STAT_DRIVE = 0 ∧ g.getN LSE_FENCE = max (h.getN LSE_FENCE) epoch))
      ∧ (∀ epoch role, epoch < 2 ^ 32 → role ≠ 2 → h.isl.roleKept = 2 → goes (.leaseQueryAnswer i epoch role) (fun g =>
        g.fget LSE_STAT_ROLE = 2 ∧ g.fget LSE_STAT_DRIVE = 1 ∧ g.getN LSE_FENCE = max (h.getN LSE_FENCE) epoch
        ∧ g.getN LSE_EPOCH = max (h.getN LSE_FENCE) epoch))
      ∧ goes (.unsureTimeout i) (fun g => g.fget LSE_STAT_ROLE = 1 ∧ g.fget LSE_STAT_DRIVE = 0 ∧ g.isl.aliveOff = true))
    ∧ (h.mainUp = true → h.flag LSE_CTL_WD_EN = true → Completes (.watchdogExpiry i) s (fun t => (t.half i).own = 0 ∧ (t.half i).fget SUP_STAT_CAUSE = 5
      ∧ (t.half i).fget LSE_STAT_ROLE = 0 ∧ (t.half i).fatal = none ∧ (t.half i).hbm = (Half.reset h.id).hbm ∧ (t.half i).arc = Arc.reset
      ∧ (t.half i).lta = Lta.reset ∧ (t.half i).errq.recs = [] ∧ t.board.bridgeUp = false ∧ (t.half i.other).hbm = (s.half i.other).hbm))

/-! ### The event controller (18_event_controller.md) and the error queue (23_errors.md) -/

/-- R345 to R357: a selection offers the first selectable source to its target, with an MSI-X message where the vector sends one; a claim takes the offer
into service, returns its word and clears an edge source that its owner does not raise in the same cycle; without an offer it returns 0; COMPLETE ends service, and a wrong one is counted; SWSET raises, and a write of pending bits
clears, edge sources; hold-off ends; a core sleeps; a mask that clears sends the message held. Where it rests on a reading or a choice of the model, that is
log 10. -/
def Obligations.EventController : Prop :=
  ∀ (s : State) (i : HalfId) (t n : Nat), let h := s.half i
    let goes (c : Instr) (ws : List Nat) (p : Half → Prop) : Prop := Completes c s (fun u => s.OnlyHalf u i ∧ Half.RegsOnly h (u.half i)
      ∧ Half.RegsBut h (u.half i) ws ∧ p (u.half i))
    s.Works i → t < 12 → t < h.evc.tgts.length → n < 1024 →
    (h.flag EVC_CTL_EN = true → (List.range 1024).find? h.selectable = some n → h.pickTarget n = some t →
      goes (.evcSelect i) [EVC_STAT.at 0] (fun g => (g.tgt t).offer = some n ∧ g.fget EVC_STAT_LAST = t
        ∧ (h.getN EVC_HOLD (n / 32) ≠ 0 → n / 32 ∈ g.evc.holdOff)
        ∧ (4 ≤ t → h.flag EVC_HV_MSIX_EN (t - 4) = true → h.flag MSIX_3_VMASK (t - 4) = false → h.evc.fnMask = false →
            g.out = h.out ++ [.msix (t - 4)])))
    ∧ ((h.tgt t).offer = some n → ∀ raised, Completes (.evcClaim i ⟨t, raised⟩) s (fun u => let g := u.half i
        s.OnlyHalf u i ∧ (g.tgt t).offer = none ∧ (g.tgt t).insvc = some n ∧ g.out = h.out ++ [.value (BitVec.ofNat 32 (h.claimWord n))]
        ∧ (sourceLevel n = false → g.srcBit EVC_PENDING n = (raised && h.srcBit EVC_PENDING n)) ∧ g.getN EVC_TGT_5 t = min (h.getN EVC_TGT_5 t + 1) (2 ^ 32 - 1)
        ∧ Half.RegsBut h g [pendAddr n, EVC_TGT_5.at t] ∧ Half.ExyOnly h g))
    ∧ ((h.tgt t).offer = none → ∀ raised, goes (.evcClaim i ⟨t, raised⟩) [] (fun g => (g.tgt t).insvc = (h.tgt t).insvc ∧ g.out = h.out ++ [.value 0]))
    ∧ ((h.tgt t).insvc = some n → goes (.evcComplete i t n) [] (fun g => (g.tgt t).insvc = none))
    ∧ ((h.tgt t).insvc ≠ some n → goes (.evcComplete i t n) ([EVC_TGT_7.at t, EVC_STAT.at 0] ++ errAddrs) (fun g => (g.tgt t).insvc = none
        ∧ g.getN EVC_TGT_7 t = min (h.getN EVC_TGT_7 t + 1) (2 ^ 32 - 1)))
    ∧ (sourceLevel n = false → sourceReserved n = false → goes (.evcSwset i n) [pendAddr n] (fun g => g.srcBit EVC_PENDING n = true))
    ∧ (sourceLevel n = true ∨ sourceReserved n = true → goes (.evcSwset i n) errAddrs (fun _ => True))
    ∧ (∀ v : Word, goes (.evcPendingClear i (n / 32) v) [pendAddr n] (fun g => g.srcBit EVC_PENDING n
        = (h.srcBit EVC_PENDING n && !(bit v.toNat (n % 32) && !sourceLevel n && !h.offered n && !h.inService n))))
    ∧ (∀ g, goes (.holdOffExpiry i g) [] (fun x => g ∉ x.evc.holdOff ∧ ∀ y, y ≠ g → (y ∈ x.evc.holdOff ↔ y ∈ h.evc.holdOff)))
    ∧ (t < 4 → goes (.coreWfi i t) [] (fun g => (g.tgt t).sleep = true))
    ∧ (∀ e, e < 8 → h.evc.fnMask = false → bit (h.getN MSIX_PBA) e = true → goes (.msixMaskClear i (some e)) [MSIX_3.at e] (fun g =>
        g.flag MSIX_3_VMASK e = false ∧ Emission.msix e ∈ g.out))
    ∧ goes (.msixMaskClear i none) [] (fun g => g.evc.fnMask = false
        ∧ ∀ e, e < 8 → bit (h.getN MSIX_PBA) e = true → h.flag MSIX_3_VMASK e = false → Emission.msix e ∈ g.out)

/-- R430 to R435: Exylo takes the next record in handling order; a read of ERR_HEAD returns the first in that order, latches its other words, and POP
removes it; CLEAR removes every record. R432: a class F error puts both halves DOWN, with no role and nothing driven. Where it rests on a reading or a
choice of the model, that is log 8 and log 9. -/
def Obligations.ErrorQueue : Prop :=
  ∀ (s : State) (i : HalfId), let h := s.half i
    s.Works i →
    (∀ r, (handlingOrder h.errq.recs).find? (fun x => !x.handled) = some r → Completes (.errorHandle i) s (fun t => s.OnlyHalf t i
      ∧ (t.half i).errq.recs = h.errq.recs.map (fun x => if x.id == r.id then { x with handled := true } else x)
      ∧ Half.ExyOnly h (t.half i) ∧ (recomputeCode r.code = true → (t.half i).exy.recompute = true) ∧ Half.RegsBut h (t.half i) []))
    ∧ (∀ r rs, handlingOrder h.errq.recs = r :: rs → Completes (.errHeadRead i) s (fun t => s.OnlyHalf t i
      ∧ (t.half i).out = h.out ++ [.value (BitVec.ofNat 32 (r.code * 65536 + r.inst))] ∧ (t.half i).errq.latched = some r.id
      ∧ (t.half i).errq.recs = h.errq.recs ∧ SMap.find? (t.half i).latch (ERR_HEAD_0.base + 4) = some (BitVec.ofNat 32 (r.frame % 2 ^ 32))
      ∧ SMap.find? (t.half i).latch (ERR_HEAD_0.base + 12) = some (BitVec.ofNat 32 r.info)
      ∧ Half.RegsBut h (t.half i) [] ∧ (t.half i).hbm = h.hbm ∧ (t.half i).arc = h.arc ∧ (t.half i).isl = h.isl))
    ∧ (∀ j, h.errq.latched = some j → Completes (.errPop i) s (fun t => s.OnlyHalf t i ∧ (t.half i).errq.latched = none
      ∧ (t.half i).errq.recs = h.errq.recs.filter (fun r => r.id != j) ∧ Half.RegsOnly h (t.half i) ∧ Half.RegsBut h (t.half i) []))
    ∧ Completes (.errClear i) s (fun t => s.OnlyHalf t i ∧ (t.half i).errq.recs = [] ∧ Half.RegsOnly h (t.half i) ∧ Half.RegsBut h (t.half i) [])
    ∧ Completes .tclkLost s (fun t => (t.half i).own = 0 ∧ (t.half i).fget LSE_STAT_ROLE = 0 ∧ (t.half i).fget LSE_STAT_DRIVE = 0
      ∧ (t.half i).fget SUP_STAT_CAUSE = 6 ∧ (t.half i).isl.fatalF = true ∧ (t.half i.other).fget LSE_STAT_ROLE = 0
      ∧ (t.half i.other).fget LSE_STAT_DRIVE = 0 ∧ (t.half i.other).mainUp = false ∧ t.board.bridgeUp = false ∧ (t.half i).hbm = Hbm.reset)

/-! ### Supplies, rails, converters, SMBus (19_supervision_power.md, 24_electrical_package.md) -/

/-- R361, R366, R370, R373, R374, R377: each rail that is good has its readings stored and brings up the next, and after the last the main domain is on; a rail that fails takes the half DOWN
with cause 4 and the rails down again; a confirmed droop with cause 2; a trip with cause 3; a restart and the retry start the main domain. R361, R369, R452:
an island powers up at its reset values, is ready and listens, and loses all with its power; a warning sets PFW in the island and puts a RUNNING half whose
rails are on into HOLD, and its end clears PFW; the throttle follows its pin. Where it rests on a reading or a choice of the model, that is log 36 and log
37 and log 38. -/
def Obligations.PowerDomains : Prop :=
  (∀ (s : State) (i : HalfId), let h := s.half i
    let goes (c : Instr) (p : Half → Prop) : Prop := Completes c s (fun t => s.OnlyHalf t i ∧ Half.IslOnly h (t.half i)
      ∧ Half.RegsBut h (t.half i) ([SUP_STAT.at 0, LSE_STAT.at 0, DEV_HALF.at 0, NVM_BOOT.at 0, HKA_STAT.at 0, pendAddr 0, pendAddr 64] ++ (List.range 4).map HKA_URG.at ++ errAddrs) ∧ p (t.half i))
    let down (c : Instr) (cause : Nat) (p : Half → Prop) : Prop := Completes c s (fun t => (t.half i).own = 0 ∧ (t.half i).fget SUP_STAT_CAUSE = cause
      ∧ (t.half i).fget LSE_STAT_ROLE = 0 ∧ (t.half i).hbm = Hbm.reset ∧ (t.half i).arc = Arc.reset ∧ p (t.half i))
    s.Powered i →
    (∀ r vout iout, r < 9 → vout < 65536 → iout < 65536 → h.isl.seq = .up r →
      let good (p : Half → Prop) : Prop := Completes (.railPowerGood i ⟨r, vout, iout⟩) s (fun t => s.OnlyHalf t i ∧ Half.IslOnly h (t.half i)
        ∧ Half.RegsBut h (t.half i) [SUP_STAT.at 0, NVM_BOOT.at 0, SUP_RAIL_2.at r, SUP_RAIL_3.at r, pendAddr 0]
        ∧ (t.half i).fget SUP_RAIL_2_VOUT r = vout ∧ (t.half i).fget SUP_RAIL_2_IOUT r = iout ∧ (t.half i).fget SUP_RAIL_3_STATUS r = 0 ∧ p (t.half i))
      (∀ q, (List.range 9).find? (fun q => r + 1 ≤ q && h.flag SUP_RAIL_0_EN q) = some q → good (fun g => g.isl.seq = .up q
        ∧ g.fget SUP_STAT_MAIN = 1 ∧ g.out = h.out ++ [.pmbus q pmbVoutCommand (h.railCommand q), .pmbus q pmbClearFaults 0, .pmbus q pmbOperation 0x80]))
      ∧ ((List.range 9).find? (fun q => r + 1 ≤ q && h.flag SUP_RAIL_0_EN q) = none → good (fun g => g.isl.seq = .idle
        ∧ g.fget SUP_STAT_MAIN = 2 ∧ g.fget NVM_BOOT_STAGE = 3))
      ∧ (∀ q fail, h.mainUp = true → ((List.range (r + 1)).reverse).find? (fun q => h.flag SUP_RAIL_0_EN q) = some q → down (.railStepTimeout i ⟨r, fail⟩) 4 (fun g =>
        g.isl.seq = .down q ∧ g.isl.downThen = 1 ∧ g.fget SUP_STAT_MAIN = 4)))
    ∧ (∀ r, h.isl.seq = .down r →
      (∀ q, ((List.range r).reverse).find? (fun q => h.flag SUP_RAIL_0_EN q) = some q → goes (.railDownStepDone i r) (fun g => g.isl.seq = .down q
        ∧ g.fget SUP_STAT_MAIN = 4 ∧ g.out = h.out ++ [.pmbus q pmbOperation 0]))
      ∧ (((List.range r).reverse).find? (fun q => h.flag SUP_RAIL_0_EN q) = none →
        (h.isl.downThen = 0 → goes (.railDownStepDone i r) (fun g => g.isl.seq = .idle ∧ g.fget SUP_STAT_MAIN = 0))
        ∧ (h.isl.downThen = 1 → goes (.railDownStepDone i r) (fun g => g.isl.seq = (if 0 < h.isl.retries then .retryWait else .idle)
            ∧ g.fget SUP_STAT_MAIN = (if 0 < h.isl.retries then 0 else 5)))
        ∧ (h.isl.downThen = 2 → h.own = 0 → h.isl.ready = true → h.isl.fatalF = false → goes (.railDownStepDone i r) (fun g => g.own = 1))))
    ∧ (h.own = 0 → h.isl.ready = true → h.isl.fatalF = false →
      (h.isl.seq = .retryWait → 0 < h.isl.retries → goes (.seqRetryTimer i) (fun g => g.own = 1 ∧ g.isl.retries = h.isl.retries - 1))
      ∧ (h.isl.tripped = false ∨ h.cooled = true → s.board.resetN = true → goes (.supRestart i) (fun g => g.own = 1 ∧ g.isl.tripped = false ∧ g.isl.retries = h.fget SUP_BO_SEQ_RETRY))
      ∧ (h.isl.tripped = true → h.cooled = false → s.board.resetN = true → goes (.supRestart i) (fun g => g.own = 0 ∧ g.isl = h.isl)))
    ∧ (∀ r, r < 9 → h.fget HKA_STAT_STATE ≠ 3 → goes (.urgentRequest i r) (fun g => g.isl.urgentRail = some r ∧ g.fget HKA_STAT_STATE = 3
        ∧ g.isl.hkaPrev = h.fget HKA_STAT_STATE))
    ∧ (∀ r samples, h.isl.urgentRail = some r →
      let code (j : Nat) : Nat := h.calibrate 0 ((samples.getD 0 []).getD j 0)
      (h.outside r (code 2) = true → h.outside r (code 3) = true → h.mainUp = true → down (.urgentBurstEnd i samples) 2 (fun g => g.isl.boWait = true ∧ g.isl.urgentRail = none))
      ∧ ((h.outside r (code 2) && h.outside r (code 3)) = false → goes (.urgentBurstEnd i samples) (fun g => g.isl.urgentRail = none
        ∧ g.fget HKA_STAT_GLITCH = min (h.fget HKA_STAT_GLITCH + 1) 4095 ∧ g.fget HKA_STAT_STATE = h.isl.hkaPrev % 4)))
    ∧ (∀ back q, h.isl.boWait = true → ((List.range 9).reverse).find? (fun q => h.flag SUP_RAIL_0_EN q) = some q → goes (.boHoldExpiry i back) (fun g =>
        g.isl.seq = .down q ∧ g.isl.downThen = (if back then 2 else 0) ∧ g.isl.boWait = false ∧ g.fget SUP_STAT_MAIN = 4))
    ∧ (∀ n, n < 16 → h.mainUp = true → down (.thermalTrip i n) 3 (fun g => g.isl.tripped = true)))
  ∧ (∀ (s : State) (i : HalfId), let h := s.half i
    s.Settled →
    (h.isl.powered = false → h.mainUp = false → Completes (.islandPowerUp i) s (fun t => s.OnlyHalf t i ∧ (t.half i).isl = { Island.reset with powered := true }
      ∧ (∀ (r : RegDef) n, islandAddr (r.at n) = true → (t.half i).getN r n = regReset h.id r n % 2 ^ 32)
      ∧ (∀ (r : RegDef) n, islandAddr (r.at n) = false → standingAddr (r.at n) = false → (t.half i).get r n = h.get r n)))
    ∧ (h.isl.powered = true → h.isl.ready = false → s.board.resetN = false → Completes (.islandReady i) s (fun t => s.OnlyHalf t i
      ∧ (t.half i).isl = { h.isl with ready := true, listening := true, retries := h.fget SUP_BO_SEQ_RETRY } ∧ (t.half i).fget NVM_BOOT_STAGE = 1
      ∧ (t.half i).own = h.own ∧ Half.RegsBut h (t.half i) [NVM_BOOT.at 0]))
    ∧ (h.isl.powered = true → Completes (.islandPowerLost i) s (fun t => t = s.setHalf i { Half.reset h.id with out := h.out }))
    ∧ (h.isl.powered = true → Completes .pfwWarning s (fun t => t.board = { s.board with pfwN := false } ∧ (t.half i).flag SUP_STAT_PFW = true
      ∧ (h.running = true → h.fget SUP_STAT_MAIN = 2 → (t.half i).fget SUP_STAT_MAIN = 3 ∧ (t.half i).arc.run = none)
      ∧ (h.running = false → (t.half i).fget SUP_STAT_MAIN = h.fget SUP_STAT_MAIN)))
    ∧ (h.isl.powered = true → Completes .pfwNRise s (fun t => t.board = { s.board with pfwN := true } ∧ (t.half i).flag SUP_STAT_PFW = false
      ∧ Half.RegsOnly h (t.half i) ∧ Half.RegsBut h (t.half i) [SUP_STAT.at 0, pendAddr 3]))
    ∧ Completes .throttleStart s (fun t => t = { s with board := { s.board with throttled := true } })
    ∧ Completes .throttleEnd s (fun t => t = { s with board := { s.board with throttled := false } }))

/-- R362, R363, R367, R368: the comparator marks the preferred feed LOW and ends its preference; a feed sample goes calibrated to its four results and sets
the state of both feeds; an alert reads STATUS_WORD of all nine rails; the monitors move VDD_ARC by 5 mV, never below
AVS_MIN, a violation raises it by 25 mV, never above 800 mV but with LIMIT set, and a failed transaction leaves it as it is. Where it rests on a reading or a choice of the model, that is log 36. -/
def Obligations.FeedsAlertAndAvs : Prop :=
  ∀ (s : State) (i : HalfId), let h := s.half i
    let goes (c : Instr) (ws : List Nat) (p : Half → Prop) : Prop :=
      Completes c s (fun t => s.OnlyHalf t i ∧ Half.IslOnly h (t.half i) ∧ Half.RegsBut h (t.half i) (ws ++ errAddrs) ∧ p (t.half i))
    s.Powered i →
    (h.fget SUP_FEED_MODE = 1 → goes (.feedComparator i) [SUP_STAT.at 0, pendAddr 1] (fun g => g.isl.prefGood = false
        ∧ g.fget SUP_STAT_FEED_A = (if h.isl.feedA.fault then 2 else 1) ∧ (h.isl.feedB.fault = false → g.isl.feedB.heldOff = false)))
    ∧ (h.fget SUP_FEED_MODE = 2 → goes (.feedComparator i) [SUP_STAT.at 0, pendAddr 2] (fun g => g.isl.prefGood = false
        ∧ g.fget SUP_STAT_FEED_B = (if h.isl.feedB.fault then 2 else 1) ∧ (h.isl.feedA.fault = false → g.isl.feedA.heldOff = false)))
    ∧ (h.fget SUP_FEED_MODE = 0 → goes (.feedComparator i) [] (fun g => g.isl = h.isl))
    ∧ (∀ va ia vb ib : Nat, let v := h.calibrate 0 va; let w := h.calibrate 2 vb; let x := h.calibrate 1 ia; let y := h.calibrate 3 ib
        goes (.feedSample i va ia vb ib) [SUP_STAT.at 0, pendAddr 1, HKA_RES.at 0, HKA_RES.at 16, HKA_RES.at 32, HKA_RES.at 48] (fun g =>
          g.fget HKA_RES_CODE 0 = v ∧ g.fget HKA_RES_CODE 16 = x ∧ g.fget HKA_RES_CODE 32 = w ∧ g.fget HKA_RES_CODE 48 = y
          ∧ (∀ n ∈ [0, 16, 32, 48], g.flag HKA_RES_FRESH n = true)
          ∧ (9 ≤ h.isl.feedA.overI → h.fget SUP_FEED_IOC * 4096 < x * 1000 → g.fget SUP_STAT_FEED_A = 2)
          ∧ (1 ≤ h.isl.feedB.overV → 5600 * 4096 < w * 6000 → g.fget SUP_STAT_FEED_B = 2)
          ∧ (h.isl.feedA.fault = false → v * 6000 ≤ 5600 * 4096 → x * 1000 ≤ h.fget SUP_FEED_IOC * 4096 →
              g.fget SUP_STAT_FEED_A = (if v = 0 then 3 else if v * 6000 < 2650 * 4096 then 1 else 0))
          ∧ (h.isl.feedB.fault = false → w * 6000 ≤ 5600 * 4096 → y * 1000 ≤ h.fget SUP_FEED_IOC * 4096 →
              g.fget SUP_STAT_FEED_B = (if w = 0 then 3 else if w * 6000 < 2650 * 4096 then 1 else 0))))
    ∧ (∀ words, goes (.pmbAlert i words) (pendAddr 12 :: (List.range 9).map SUP_RAIL_3.at) (fun g => g.isl = h.isl
          ∧ g.out = h.out ++ (List.range 9).map (fun r => .pmbus r pmbStatusWord 0)
          ∧ ∀ r, r < 9 → g.fget SUP_RAIL_3_STATUS r = (match words.getD r none with | some w => w % 65536 | none => h.fget SUP_RAIL_3_STATUS r)))
    ∧ (h.mainUp = true → h.flag SUP_CTL_AVS_EN = true →
      (∀ margin, h.fget SUP_AVS_AVS_HI < margin → h.fget SUP_AVS_AVS_MIN + 5 ≤ h.isl.vddArc → goes (.avsMonitor i margin true) [] (fun g =>
          g.isl = { h.isl with vddArc := h.isl.vddArc - 5, vddPrev := h.isl.vddArc } ∧ g.out = h.out ++ [.pmbus 6 pmbVoutCommand (h.isl.vddArc - 5)]))
      ∧ (∀ margin, margin ≤ h.fget SUP_AVS_AVS_HI → margin < h.fget SUP_AVS_AVS_LO → h.isl.vddArc + 5 ≤ 800 → goes (.avsMonitor i margin true) [] (fun g =>
          g.isl = { h.isl with vddArc := h.isl.vddArc + 5, vddPrev := h.isl.vddArc } ∧ g.out = h.out ++ [.pmbus 6 pmbVoutCommand (h.isl.vddArc + 5)]))
      ∧ (∀ margin, h.fget SUP_AVS_AVS_HI < margin → h.isl.vddArc < h.fget SUP_AVS_AVS_MIN + 5 → goes (.avsMonitor i margin true) [] (fun g =>
          g.isl.vddArc = h.isl.vddArc ∧ g.out = h.out))
      ∧ (∀ margin, margin ≤ h.fget SUP_AVS_AVS_HI → margin < h.fget SUP_AVS_AVS_LO → 800 < h.isl.vddArc + 5 →
          goes (.avsMonitor i margin true) [SUP_AVS.at 0, pendAddr 7] (fun g => g.isl.vddArc = h.isl.vddArc ∧ g.flag SUP_AVS_LIMIT = true ∧ g.out = h.out))
      ∧ (∀ margin, h.fget SUP_AVS_AVS_LO ≤ margin → margin ≤ h.fget SUP_AVS_AVS_HI → goes (.avsMonitor i margin true) [] (fun g =>
          g.isl.vddArc = h.isl.vddArc ∧ g.out = h.out))
      ∧ (∀ margin, goes (.avsMonitor i margin false) [] (fun g => g.isl.vddArc = h.isl.vddArc ∧ g.out = h.out))
      ∧ (h.isl.vddArc + 25 ≤ 800 → goes (.avsViolation i true) [] (fun g =>
          g.isl = { h.isl with vddArc := h.isl.vddArc + 25, vddPrev := h.isl.vddArc } ∧ g.out = h.out ++ [.pmbus 6 pmbVoutCommand (h.isl.vddArc + 25)]))
      ∧ goes (.avsViolation i false) [] (fun g => g.isl = h.isl ∧ g.out = h.out)
      ∧ (800 < h.isl.vddArc + 25 → goes (.avsViolation i true) [SUP_AVS.at 0, pendAddr 7] (fun g =>
          g.isl = h.isl ∧ g.flag SUP_AVS_LIMIT = true ∧ g.out = h.out)))

/-- R372, R375, R376: the end of an entry stores one calibrated mean for each converter and moves to the next entry, to the first, or to the end; GO starts
the sequencer where it is idle and LEN fits, in an urgent burst once the burst has ended, CAL starts calibration, and its end gives the factors of every converter. Where it rests on a reading or a
choice of the model, that is log 5 and log 36. -/
def Obligations.HousekeepingConverters : Prop :=
  ∀ (s : State) (i : HalfId), let h := s.half i
    let goes (c : Instr) (ws : List Nat) (p : Half → Prop) : Prop :=
      Completes c s (fun t => s.OnlyHalf t i ∧ Half.IslOnly h (t.half i) ∧ Half.RegsBut h (t.half i) (ws ++ errAddrs) ∧ p (t.half i))
    s.Powered i →
    (∀ sums, h.fget HKA_STAT_STATE = 1 → h.fget HKA_CTL_LEN ≤ 32 →
      let e := h.fget HKA_STAT_ENTRY
      let ch (c : Nat) : Nat := 16 * c + bits (h.fget HKA_SEQ_IN e) (4 * c + 3) (4 * c)
      Completes (.hkaEntryEnd i sums) s (fun t => t = (s.setHalf i (t.half i)).setHalf i.other (t.half i.other)
        ∧ Half.RegsOnly h (t.half i) ∧ Half.RegsBut h (t.half i) ([SUP_STAT.at 0, HKA_STAT.at 0, pendAddr 5] ++ (List.range 4).map (fun c => HKA_RES.at (ch c)))
        ∧ Half.RegsOnly (s.half i.other) (t.half i.other) ∧ Half.RegsBut (s.half i.other) (t.half i.other) [pendAddr 5]
        ∧ (∀ c, c < 4 → (t.half i).fget HKA_RES_CODE (ch c) = h.calibrate c (rneDiv (sums.getD c 0 : Nat) (2 ^ h.fget HKA_SEQ_AVG e))
            ∧ (t.half i).flag HKA_RES_FRESH (ch c) = true)
        ∧ (e + 1 < h.fget HKA_CTL_LEN → (t.half i).fget HKA_STAT_ENTRY = e + 1 ∧ (t.half i).fget HKA_STAT_STATE = 1)
        ∧ (h.fget HKA_CTL_LEN ≤ e + 1 → (t.half i).fget HKA_STAT_ENTRY = 0
            ∧ (t.half i).fget HKA_STAT_STATE = (if h.flag HKA_CTL_REPEAT then 1 else 0))))
    ∧ (1 ≤ h.fget HKA_CTL_LEN → h.fget HKA_CTL_LEN ≤ 32 → h.fget HKA_STAT_STATE = 0 → goes (.hkaGo i) [HKA_STAT.at 0] (fun g =>
        g.isl = h.isl ∧ g.fget HKA_STAT_STATE = 1 ∧ g.fget HKA_STAT_ENTRY = 0))
    ∧ (1 ≤ h.fget HKA_CTL_LEN → h.fget HKA_CTL_LEN ≤ 32 → h.fget HKA_STAT_STATE = 3 → h.isl.hkaPrev = 0 → goes (.hkaGo i) [HKA_STAT.at 0] (fun g =>
        g.isl = { h.isl with hkaPrev := 1 } ∧ g.fget HKA_STAT_STATE = 3 ∧ g.fget HKA_STAT_ENTRY = 0))
    ∧ (h.fget HKA_CTL_LEN = 0 ∨ 32 < h.fget HKA_CTL_LEN ∨ (h.fget HKA_STAT_STATE ≠ 0 ∧ ¬ (h.fget HKA_STAT_STATE = 3 ∧ h.isl.hkaPrev = 0)) → goes (.hkaGo i) [] (fun g => g.isl = h.isl))
    ∧ (h.fget HKA_STAT_STATE ≠ 3 → goes (.hkaCal i) [HKA_STAT.at 0] (fun g => g.isl = h.isl ∧ g.fget HKA_STAT_STATE = 2))
    ∧ (h.fget HKA_STAT_STATE = 3 → goes (.hkaCal i) [] (fun g => g.isl = { h.isl with hkaPrev := 2 }))
    ∧ (∀ ground reference, h.calibrating = true → h.inStep 8 = false →
        Completes (.hkaCalEnd i ground reference) s (fun t => t = { s.setHalf i (t.half i) with freeCtr := s.freeCtr + 4 } ∧ Half.IslOnly h (t.half i)
          ∧ Half.RegsBut h (t.half i) ([HKA_STAT.at 0, pendAddr 10] ++ (List.range 4).map HKA_CAL.at) ∧ (t.half i).flag HKA_STAT_CALDONE = true
          ∧ (h.fget HKA_STAT_STATE = 2 → (t.half i).fget HKA_STAT_STATE = 0 ∧ (t.half i).isl = h.isl)
          ∧ (h.fget HKA_STAT_STATE = 3 → (t.half i).fget HKA_STAT_STATE = 3 ∧ (t.half i).isl = { h.isl with hkaPrev := 0 })
          ∧ ∀ c, c < 4 → let off := rneDiv (ground.getD c 0 : Nat) 800
              let den : Int := (reference.getD c 0 : Nat) - 800 * off
              let fused : Int := (Config.fusedRefCode (Fin.ofNat 4 c)).toNat
              (t.half i).fget HKA_CAL_OFFSET c = wrapBits 16 off
              ∧ (0 < den → (t.half i).fget HKA_CAL_GAIN c = wrapBits 16 (rneDiv (2 ^ 14 * 800 * (fused - off)) den.toNat))))

/-- R378, R398: the SMBus target of a ready island takes an address, writes a register of a RUNNING half as its other masters do, reaches of a half that is not
RUNNING only the island's offsets, returns the word at the read address, and carries command frames in fragments; a bad PEC, a wrong length, or a fragment
while a frame waits is NACKed and changes nothing else. Where it rests on a reading or a choice of the model, that is log 45. -/
def Obligations.SmbusTarget : Prop :=
  ∀ (s : State) (i : HalfId), let h := s.half i
    let goes (c : Instr) (p : Half → Prop) : Prop := Completes c s (fun t => s.OnlyHalf t i ∧ Half.IslOnly h (t.half i) ∧ Half.RegsBut h (t.half i) [] ∧ p (t.half i))
    s.Powered i → h.isl.ready = true →
    (∀ bs, bs.length = 4 → goes (.smbusSetAddress i bs true) (fun g => g.isl = { h.isl with smbAddr := fieldAt bs 0 4 } ∧ g.out = h.out))
    ∧ (let nacked (c : Instr) : Prop := goes c (fun g => g.isl = h.isl ∧ g.out = h.out ++ [.smbusNack])
      ∀ bs pec, (pec = false ∨ bs.length ≠ 4 → nacked (.smbusSetAddress i bs pec))
        ∧ (pec = false ∨ bs.length ≠ 8 → ∀ w, nacked (.smbusRegWrite i bs pec w))
        ∧ (pec = false ∨ bs.length = 0 ∨ 255 < bs.length ∨ h.isl.smbFrame.isSome = true → nacked (.smbusFrameFragment i bs pec)))
    ∧ (∀ bs late, bs.length = 8 → h.running = true →
        exec (.smbusRegWrite i bs true late) s = exec (.registerWrite i (fieldAt bs 0 4) (BitVec.ofNat 32 (fieldAt bs 4 4)) ⟨late, false, 0⟩) s)
    ∧ (∀ bs late n, bs.length = 8 → h.running = false → windowOf (fieldAt bs 0 4 % 0x8000000) = (i, n) →
        exec (.smbusRegWrite i bs true late) s = .next (if fieldAt bs 0 4 % 4 = 0 ∧ (n < 0x20 ∨ (0x100000 ≤ n ∧ n < 0x180000) ∨ (0x1500000 ≤ n ∧ n < 0x1600000))
          then s.regWrite i i n (BitVec.ofNat 32 (fieldAt bs 4 4)) late else s))
    ∧ (∀ bs late n, bs.length = 8 → h.running = false → windowOf (fieldAt bs 0 4 % 0x8000000) = (i.other, n) → exec (.smbusRegWrite i bs true late) s = .next s)
    ∧ (∀ n, windowOf (h.isl.smbAddr % 0x8000000) = (i, n) → h.isl.smbAddr % 4 = 0 →
        h.running = true ∨ n < 0x20 ∨ (0x100000 ≤ n ∧ n < 0x180000) ∨ (0x1500000 ≤ n ∧ n < 0x1600000) →
        let r := h.regRead (s.half i.other) (s.witness i) n
        Completes (.smbusRegRead i) s (fun t => t = (s.onIsland i (fun _ => r.2)).onIsland i (fun g => g.emit (.smbus (leBytes 4 r.1.toNat)))))
    ∧ (∀ (r : RegDef) k, findReg (r.at k) = some (r, k) → r ∈ [SUP_FEED, SUP_BO, SUP_AVS, SUP_THERM, SUP_RAIL_1, HKA_CAL, HKA_SEQ, LSE_EPOCH] →
        h.isl.smbAddr = r.at k + 0x4000000 * portOf i → SMap.find? h.latch (r.at k) = none →
        goes (.smbusRegRead i) (fun g => g.isl = h.isl ∧ g.out = h.out ++ [.smbus (leBytes 4 (h.getN r k &&& readMask r))]))
    ∧ (∀ bs, 1 ≤ bs.length → bs.length ≤ 255 → h.isl.smbFrame = none → let a := h.isl.smbAsm ++ bs
        (16 ≤ a.length → frTotal a ≤ a.length → goes (.smbusFrameFragment i bs true) (fun g =>
          g.isl = { h.isl with smbAsm := a.drop (frTotal a), smbFrame := some (a.take (frTotal a)) } ∧ g.out = h.out))
        ∧ (a.length < 16 ∨ a.length < frTotal a → goes (.smbusFrameFragment i bs true) (fun g => g.isl = { h.isl with smbAsm := a } ∧ g.out = h.out)))
    ∧ goes (.smbusReplyRead i) (fun g => g.isl = { h.isl with smbReply := h.isl.smbReply.drop 255 } ∧ g.out = h.out ++ [.smbus (h.isl.smbReply.take 255)])
    ∧ goes (.smbusFragmentTimeout i) (fun g => g.isl = { h.isl with smbAsm := [] } ∧ g.out = h.out)

/-! ### Start-up, images, mailbox (20_startup_profiles.md, 21_exylo_commands.md) -/

/-- R260, R398, R411, R414: REQ_GO sets BUSY, or OVR while BUSY; clearing RSP_VALID lets a waiting reply in; clearing EVT_VALID and a function-level reset clear
their bits; a port that takes untagged frames, on a lane in service, answers an ARP request for its own address; a frame of neither ARP nor IPv4, a tagged
one, one for another station, and one with a block marked bad change nothing. Where it rests on a reading or a choice of the model, that is
log 45. -/
def Obligations.MailboxAndPort : Prop :=
  ∀ (s : State) (i : HalfId), let h := s.half i
    let goes (c : Instr) (ws : List Nat) (p : Half → Prop) : Prop := Completes c s (fun t => s.OnlyHalf t i ∧ Half.ExyOnly h (t.half i) ∧ Half.RegsBut h (t.half i) ws
      ∧ Half.SessionsOnly h (t.half i) ∧ (t.half i).exy.sessions = h.exy.sessions ∧ p (t.half i))
    let ctl := [DEV_MBX_CTL.at 0]
    s.Works i →
    (h.flag DEV_MBX_CTL_BUSY = false → goes (.mbxReqGo i) ctl (fun g => g.flag DEV_MBX_CTL_BUSY = true ∧ g.flag DEV_MBX_CTL_OVR = h.flag DEV_MBX_CTL_OVR))
    ∧ (h.flag DEV_MBX_CTL_BUSY = true → goes (.mbxReqGo i) ctl (fun g => g.flag DEV_MBX_CTL_BUSY = true ∧ g.flag DEV_MBX_CTL_OVR = true))
    ∧ (h.exy.mbxReply = none → goes (.mbxRspValidClear i) ctl (fun g => g.flag DEV_MBX_CTL_RSP_VALID = false ∧ g.exy = h.exy
        ∧ g.flag DEV_MBX_CTL_BUSY = h.flag DEV_MBX_CTL_BUSY))
    ∧ (∀ r, h.exy.mbxReply = some r → r.length ≤ 16384 → goes (.mbxRspValidClear i) mbxAddrs (fun g => g.flag DEV_MBX_CTL_RSP_VALID = true
        ∧ g.flag DEV_MBX_CTL_BUSY = false ∧ g.exy.mbxReply = none ∧ ∀ n, n < (toWords r).length → g.get DEV_MBX_RSP n = (toWords r).getD n 0))
    ∧ goes (.mbxEvtValidClear i) ctl (fun g => g.flag DEV_MBX_CTL_EVT_VALID = false ∧ g.exy = h.exy ∧ g.flag DEV_MBX_CTL_BUSY = h.flag DEV_MBX_CTL_BUSY)
    ∧ (h.exy.mbxReply = none → goes (.functionLevelReset i) ctl (fun g => g.getN DEV_MBX_CTL = 0 ∧ g.exy = h.exy))
    ∧ (∀ r, h.exy.mbxReply = some r → goes (.functionLevelReset i) mbxAddrs (fun g => g.exy.mbxReply = none ∧ g.flag DEV_MBX_CTL_BUSY = false
        ∧ g.flag DEV_MBX_CTL_OVR = false ∧ g.flag DEV_MBX_CTL_EVT_VALID = false))
    ∧ (∀ integrity bs, integrity ≠ .good → goes (.mgmtPortFrame i ⟨integrity, bs⟩) [] (fun g => g.exy = h.exy ∧ g.out = h.out))
    ∧ (h.running = true → bit (h.record 47) 12 = false → h.laneUp mgmtLane = true → h.laneClear mgmtLane →
      (∀ src sha spa tha rest : List Byte, src.length = 6 → sha.length = 6 → spa.length = 4 → tha.length = 6 →
        goes (.mgmtPortFrame i ⟨.good, (List.replicate 6 0xFF ++ src ++ [8, 6, 0, 1, 8, 0, 6, 4, 0, 1] ++ sha ++ spa ++ tha ++ h.mgmtIp ++ rest)⟩) [] (fun g => g.exy = h.exy
          ∧ g.out = h.out ++ [.mgmtFrame (src ++ h.mgmtMac ++ [8, 6, 0, 1, 8, 0, 6, 4, 0, 2] ++ h.mgmtMac ++ h.mgmtIp ++ sha ++ spa)]))
      ∧ (∀ bs, (fieldBe bs 12 2 ≠ 0x0806 ∧ fieldBe bs 12 2 ≠ 0x0800) ∨ (slice bs 0 6 ≠ h.mgmtMac ∧ slice bs 0 6 ≠ List.replicate 6 0xFF) →
          goes (.mgmtPortFrame i ⟨.good, bs⟩) [] (fun g => g.exy = h.exy ∧ g.out = h.out)))

/-- R380, R381: RESET_N low leaves neither role nor main domain; its rising edge samples the selector and starts the first rail; the PLL, the self-test, the
flash and the choice of the image lead step by step to calibration, and a half without an image is RUNNING when that ends. Where it rests on a reading or a
choice of the model, that is log 38 and log 39. -/
def Obligations.StartUp : Prop :=
  ∀ (s : State) (i : HalfId), let h := s.half i
    let goes (c : Instr) (p : Half → Prop) : Prop := Completes c s (fun t => p (t.half i))
    let down (c : Instr) : Prop := Completes c s (fun t => (t.half i).own = 0 ∧ (t.half i).fget SUP_STAT_CAUSE = 6 ∧ (t.half i).fget LSE_STAT_ROLE = 0
      ∧ (t.half i).hbm = Hbm.reset ∧ (t.half i).arc = Arc.reset)
    s.Settled →
    (h.isl.powered = true → h.mainUp = true → Completes .resetNLow s (fun t =>
      t.board = { s.board with resetN := false, bridgeUp := false, bridgeReady := false } ∧ (t.half i).own = 0 ∧ (t.half i).fget LSE_STAT_ROLE = 0
      ∧ (t.half i).fget LSE_STAT_DRIVE = 0 ∧ (t.half i).fget SUP_STAT_MAIN = 0 ∧ (t.half i).hbm = Hbm.reset ∧ (t.half i).arc = Arc.reset
      ∧ (t.half i).exy = Exy.reset ∧ (t.half i).isl.seq = .idle
      ∧ ∀ (r : RegDef) n, islandAddr (r.at n) = false → r.at n ≠ DEV_HALF.at 0 → (t.half i).getN r n = regReset h.id r n % 2 ^ 32))
    ∧ (∀ sel q, s.board.resetN = false → h.isl.powered = true → h.isl.ready = true → h.isl.tripped = false → h.own = 0 →
        (List.range 9).find? (fun q => h.flag SUP_RAIL_0_EN q) = some q → Completes (.resetNRise sel) s (fun t =>
          t.board = { s.board with resetN := true, profileSel := sel % 8 } ∧ Half.IslOnly h (t.half i)
          ∧ Half.RegsBut h (t.half i) [NVM_STAT.at 0, LSE_STAT.at 0, NVM_BOOT.at 0, SUP_STAT.at 0, DEV_HALF.at 0, pendAddr 0, pendAddr 64]
          ∧ (t.half i).own = 1 ∧ (t.half i).fget NVM_STAT_PSEL = sel % 8 ∧ (t.half i).fget SUP_STAT_MAIN = 1 ∧ (t.half i).isl.seq = .up q
          ∧ (t.half i).out = h.out ++ [.pmbus q pmbVoutCommand (h.railCommand q), .pmbus q pmbClearFaults 0, .pmbus q pmbOperation 0x80]))
    ∧ (h.inStep 3 = true → Completes (.pllLock i) s (fun t => s.OnlyHalf t i ∧ (t.half i).inStep 4 = true ∧ Half.RegsOnly h (t.half i)
        ∧ Half.RegsBut h (t.half i) [NVM_BOOT.at 0]) ∧ down (.pllLockTimeout i))
    ∧ (∀ failed, h.inStep 4 = true → down (.selfTestDone i false failed)
        ∧ goes (.selfTestDone i true failed) (fun g => g.inStep 5 = true
          ∧ (∀ p ∈ bays, p ∈ failed → g.bayState p = bayFailed)
          ∧ (∀ k p, (bays.filter (fun p => !failed.contains p))[k]? = some p →
              (k < 64 → g.bayState p = bayActive ∧ g.bayLogical p = k) ∧ (64 ≤ k → g.bayState p = baySpare ∧ g.bayLogical p = 0xFF))
          ∧ (∀ n, n < 960 → g.srcEnabled n = exyloSource n) ∧ (∀ t n, t < 4 → n < 960 → exyloSource n = true → g.routed t n = true)))
    ∧ (∀ room a b, (h.inStep 6 = true ∨ h.inStep 7 = true) → h.exy.port.slots = [] →
        goes (.flashImageReadDone i true room a b) (fun g => g.inStep 7 = true ∧ g.exy.port.present = true ∧ g.exy.port.slotBytes = room
          ∧ g.exy.port.slot 0 = (if imgFault room a = none then some (a.take (imgLen a)) else none)
          ∧ g.exy.port.slot 1 = (if imgFault room b = none then some (b.take (imgLen b)) else none))
        ∧ goes (.flashImageReadDone i false room a b) (fun g => g.inStep 7 = true ∧ g.exy.port = ⟨false, 0, [none, none]⟩))
    ∧ (∀ c, h.inStep 7 = true → s.bootChoice i = some c → goes (.imageChoice i) (fun g => g.inStep 8 = true ∧ g.calibrating = true
        ∧ g.exy.image = c.map (fun x => x.2.2) ∧ g.isl.imageOk = c.isSome ∧ g.flag NVM_STAT_BARE = c.isNone
        ∧ ∀ p n im, c = some (p, n, im) → p < 2 → n < 2 → g.fget NVM_STAT_BOOTPORT p = p ∧ g.fget NVM_STAT_BOOTSLOT = n ∧ g.getN NVM_SEQ = imgSeq im))
    ∧ (∀ ground reference, h.isl.powered = true → h.inStep 8 = true → h.calibrating = true → h.roleHeld = true → h.exy.image = none → h.isl.rejoin = false →
        s.board.pfwN = true → goes (.hkaCalEnd i ground reference) (fun g => g.own = 2 ∧ g.fget NVM_STAT_REPLAY = 0
          ∧ g.fget NVM_BOOT_STAGE = (if h.flag TMG_STAT_TIME_VALID then 12 else 10)))

/-- R388, R389, R391: the frames left of a held replay go on once time is valid, with a start frame chosen then; the replay ends with the last of them, and
a channel-mask write with a K_E of 0 is planned for the start frame. PROFILE_SWITCH in good form notes the profile and its frame in the halves addressed.
A switch ends when the half has drained or its time is over: the subarrays are gone, the blocks stopped, and the profile is replayed from its start; in
a half without an image nothing is. Where it rests on a reading or a choice of the model,
that is log 42. -/
def Obligations.ReplayAndSwitch : Prop :=
  ∀ (s : State) (i : HalfId), let h := s.half i
    s.Settled →
    (h.mainUp = true → h.fget NVM_STAT_REPLAY = 2 → h.flag TMG_STAT_TIME_VALID = true →
      Completes (.heldFrameResume i) s (fun t => ∃ u : State, t = (State.replay (h.exy.replayLeft.length + 1) u i).on i Half.showStage ∧ s.OnlyHalf u i
        ∧ (u.half i).exy = { h.exy with startFrame := some h.startFrameNow } ∧ (u.half i).fget NVM_STAT_REPLAY = 1)
      ∧ (h.exy.replayLeft = [] → Completes (.heldFrameResume i) s (fun t => (t.half i).fget NVM_STAT_REPLAY = 3 ∧ (t.half i).own = h.own))
      ∧ (∀ bs p, h.exy.replayLeft = [bs] → recordedFault bs = none → frOpcode bs = 0x0403 → h.replays bs = true →
          h.seqRule ⟨3, [], [], 0, frSession bs, true, false, false⟩ (frSeq bs) = .execute → p = withStart 0x0403 (frPayload bs) h.startFrameNow →
          h.opFormat 0x0403 p = true → fieldAt p 8 8 = h.startFrameNow → (∀ x ∈ h.exy.planned, x.opcode ≠ 0x0403) →
          Completes (.heldFrameResume i) s (fun t => (t.half i).fget NVM_STAT_REPLAY = 3 ∧ (t.half i).fget NVM_REPLAY_STATUS = stTick
            ∧ (t.half i).exy.replayLeft = [] ∧ (t.half i).exy.planned = h.exy.planned ++ [⟨h.startFrameNow, h.startFrameNow, 0x0403, 0,
              (List.range (fieldAt p 2 2)).map (fun n => .reg (CHN_MASK.at (fieldAt p 0 2 + n)) (BitVec.ofNat 32 (fieldAt p (16 + 4 * n) 4)))⟩])))
    ∧ (∀ late n ke, h.isl.powered = true → h.running = true → h.exy.switchTo = some (n, ke) → h.exy.draining = true → (late = true ∨ h.switchDrained = true) →
        let ended (u : State) : Prop := (u.half i).exy.subs = [] ∧ (u.half i).exy.places = [] ∧ (u.half i).exy.images = [] ∧ (u.half i).exy.image = h.exy.image
          ∧ (u.half i).exy.switchTo = none ∧ (u.half i).exy.draining = false ∧ (u.half i).fget DEV_SUBARR_ACT_ACTIVE = 0
          ∧ (u.half i).own = h.own ∧ ∀ r ∈ runRegs, bit ((u.half i).getN r) 0 = false
        Completes (.drainDone i late) s (fun t => (∃ u, t = (u.replayProfile i n).on i Half.showStage ∧ ended u)
          ∧ (h.exy.image = none → ended t ∧ (t.half i).fget NVM_STAT_REPLAY = 0)))
    ∧ (∀ (j : HalfId) rx bs ke, let p := frPayload bs
        (s.RunsIn i j rx bs 0x0200 ∨ s.RunsInBoth i rx bs 0x0200) → (j = i ∨ frTarget bs ≠ 2) → s.north.running = true → s.south.running = true →
        (∀ k, (s.half k).exy.switchTo = none ∧ (s.half k).exy.draining = false) → (s.half j).effective (fieldAt p 8 8) = some ke → bit (byteAt p 1) 0 = false →
        Completes (.profileSwitch i rx) s (fun t =>
          s.Replied t i rx bs stTick (if frTarget bs = 2 then stTick else (only j stTick).1) (if frTarget bs = 2 then stTick else (only j stTick).2) (leBytes 8 ke)
          ∧ ∀ k, Half.ChannelOnly (s.half k) (t.half k) [] ∧ Half.ExyWith (s.half k) (t.half k) (fun e => { e with switchTo := some (byteAt p 0, ke) })))

/-- R392 to R394: each operation that ends leads to the next one of the update; one that fails or runs out of time ends the update as failed; the flash
opcodes of the primary open, fill, start and abort an update. Where it rests on a reading or a choice of the model, that is log 40. -/
def Obligations.FlashUpdate : Prop :=
  ∀ (s : State) (i : HalfId), let h := s.half i; let u := h.exy.upd; let room := (s.portSeen i u.port).slotBytes
    s.Settled →
    (s.flashRuns i = true → u.aborting = false →
      (∀ c back, c ∈ [.flashOpDone i false back, .flashOpTimeout i] → Completes c s (fun t => (t.half i).exy.upd.state = 4 ∧ (t.half i).exy.flashUnread = true
        ∧ (t.half i).out = h.out))
      ∧ (∀ back, u.phase = 0 → u.ofs + 4096 < room → s.portReading u.port = false → s.recordFenced i (portHalf u.port) = false →
          Completes (.flashOpDone i true back) s (fun t => (t.half i).exy.upd = { u with ofs := u.ofs + 4096 }
            ∧ (t.half i).out = h.out ++ [.flashOp u.port 0 (u.slot * room + (u.ofs + 4096)) []]))
      ∧ (∀ back, u.phase = 1 → u.ofs + 256 < u.len → s.portReading u.port = false → s.recordFenced i (portHalf u.port) = false →
          Completes (.flashOpDone i true back) s (fun t => (t.half i).exy.upd = { u with ofs := u.ofs + 256, written := u.written + 256 }
            ∧ (t.half i).out = h.out ++ [.flashOp u.port 1 (u.slot * room + (u.ofs + 256)) (u.staged (u.ofs + 256) (min 256 (u.len - (u.ofs + 256))))]))
      ∧ (∀ back code, u.phase = 2 → imgFault room (u.staged 0 (min 256 u.len) ++ (back.take room).drop 256) = some code →
          Completes (.flashOpDone i true back) s (fun t => (t.half i).exy.upd.state = 4 ∧ (t.half i).out = h.out))
      ∧ (∀ back, u.phase = 3 → portHalf u.port = i → u.port = 1 → u.slot < h.exy.port.slots.length →
          Completes (.flashOpDone i true back) s (fun t => (t.half i).exy.upd.state = 3 ∧ (t.half i).exy.flashUnread = true
            ∧ (t.half i).exy.port.slot u.slot = some (u.staged 0 u.len) ∧ (t.half i).out = h.out)))
    ∧ (s.flashRuns i = true → u.aborting = true → ∀ back, Completes (.flashOpDone i true back) s (fun t => (t.half i).exy.upd = Exy.reset.upd ∧ (t.half i).out = h.out))
    ∧ (∀ (k : HalfId) rx bs, let p := frPayload bs; let both (st : Nat) := only i st
      (s.RunsIn k i rx bs 0x0201 → Completes (.flashInfo k rx) s (fun t => (t.half i).exy.flashUnread = false ∧ ∃ data, data.length = 40
          ∧ fieldAt data 32 4 = u.state % 2 ^ 32 ∧ fieldAt data 36 4 = u.written % 2 ^ 32 ∧ s.Replied t k rx bs stOk (both stOk).1 (both stOk).2 data))
      ∧ (∀ a, s.RunsIn k i rx bs 0x0202 → u.state ≠ 1 → u.state ≠ 2 → s.updPorts i ≠ [] → (∀ n ∈ s.updPorts i, fieldAt p 0 4 ≤ (s.portSeen i n).slotBytes) →
          h.ensureLaid.mirrorFit (fieldAt p 0 4) 4096 = some a → Completes (.flashBegin k rx) s (fun t => s.Replied t k rx bs stOk (both stOk).1 (both stOk).2 []
            ∧ (t.half i).exy.upd = { Exy.reset.upd with state := 1, len := fieldAt p 0 4, base := a }))
      ∧ (s.RunsIn k i rx bs 0x0203 → u.state = 1 → fieldAt p 0 4 + (p.drop 4).length ≤ u.len → Completes (.flashData k rx) s (fun t =>
          s.Replied t k rx bs stOk (both stOk).1 (both stOk).2 [] ∧ s.OpFrame t k i []
          ∧ (t.half i).exy.upd = { u with stage := (fieldAt p 0 4, p.drop 4) :: u.stage }))
      ∧ (∀ n ns, s.RunsIn k i rx bs 0x0204 → u.state = 1 → s.updPorts i = n :: ns → (∀ m ∈ s.updPorts i, (s.portSeen i m).spare h.exy.image ≠ none) →
          (∀ m ∈ s.updPorts i, s.recordFenced i (portHalf m) = false) → Completes (.flashCommit k rx) s (fun t =>
            s.Replied t k rx bs stOk (both stOk).1 (both stOk).2 [] ∧ (t.half i).exy.upd.state = 2 ∧ (t.half i).exy.upd.port = n ∧ (t.half i).exy.upd.phase = 0
            ∧ (t.half i).exy.upd.slot = ((s.portSeen i n).spare h.exy.image).getD 0))
      ∧ (s.RunsIn k i rx bs 0x0205 → (u.state = 2 → u.issued = true → Completes (.flashAbort k rx) s (fun t =>
            s.Replied t k rx bs stOk (both stOk).1 (both stOk).2 [] ∧ (t.half i).exy.upd = { u with aborting := true }))
          ∧ (u.state = 1 → Completes (.flashAbort k rx) s (fun t => s.Replied t k rx bs stOk (both stOk).1 (both stOk).2 [] ∧ (t.half i).exy.upd = Exy.reset.upd))))

/-! ### Exylo's commands (21_exylo_commands.md) -/

/-- R395, R396, R399, Tables EXY-6 to EXY-15: a query answers OK with the words it names, as reads of them return them, and changes nothing but what such
reads clear and latch. Where it rests on a reading or a choice of the model, that is log 44. -/
def Obligations.QueriesAnswer : Prop :=
  ∀ (s : State) (i j : HalfId) (rx : Rx) (bs : List Byte), let h := s.half j; let p := frPayload bs
    let s0 := s.taken i rx
    let words (ws : List Nat) : List Byte := (s0.readWords j ws).1
    let ok (c : Instr) (op : Nat) (ws : List Nat) (data : List Byte) : Prop := s.RunsIn i j rx bs op → Completes c s (fun t =>
      s.Replied t i rx bs stOk (only j stOk).1 (only j stOk).2 data ∧ s.OpFrame t i j ws ∧ Half.SessionsOnly h (t.half j))
    ok (.ping i rx) 0x0100 [] (leBytes 4 (h.getN DEV_FWVER) ++ leBytes 1 h.ord ++ leBytes 1 (portOf j + h.fget LSE_STAT_ROLE * 2) ++ leBytes 1 h.own)
    ∧ ok (.halfQuery i rx) 0x0B04 [LSE_STAT.at 0, LSE_EPOCH.at 0, LSE_FENCE.at 0, LSE_PEER.at 0]
        (words [LSE_STAT.at 0, LSE_EPOCH.at 0, LSE_FENCE.at 0, LSE_PEER.at 0])
    ∧ (let ws := (List.range 64).map HKA_RES.at ++ [SUP_STAT.at 0] ++ (List.range 9).map SUP_RAIL_2.at
       ok (.hkRead i rx) 0x0C00 ws (words ws))
    ∧ (let ws := (List.range 10).map (fun w => LAN_STAT.at (byteAt p 0) + 4 * w)
       ok (.laneQuery i rx) 0x0902 ws (words ws))
    ∧ (∀ v, h.feedOf (byteAt p 0) (byteAt p 1) = some v → let ws := (List.range 8).map (fun w => CAP_FSTAT_0.at v + 4 * w)
       ok (.capQuery i rx) 0x0702 ws (words ws))
    ∧ (ringHalf (fieldAt p 0 4) = j → ok (.ringQuery i rx) 0x0603 [] ((List.range 32).flatMap (fun w => leBytes 4 (h.ctxReadWord (fieldAt p 0 4) w).toNat)))
    ∧ (let sub := byteAt p 0
       let ws := [DEV_QUOTA_USE_0.at sub, DEV_QUOTA_USE_1.at sub, DEV_QUOTA_USE_2.at sub, DEV_QUOTA_USE_3.at sub]
       ok (.schedQuery i rx) 0x030B ws (leBytes 8 (match h.sub? sub with | none => 0 | some y => if y.latest.isNone then 3 else if bit (h.getN DEV_SUBARR_ACT) sub then 2 else 1)
        ++ leBytes 8 (if h.subPending sub then (((h.sub? sub).bind (fun y => y.vers.head?)).map (·.1)).getD 0 else 0)
        ++ leBytes 32 (bitmap (((h.sub? sub).map (fun y => y.shed.map (·.1))).getD [])) ++ words ws))
    ∧ (let ws := [TMG_STAT.at 0, TMG_TIME_LO.at 0, TMG_TIME_HI.at 0, TMG_TIME_FR.at 0, HO_TE.at 0]
        ++ (List.range 7).flatMap (fun r => [TMG_REF_5.at r, TMG_REF_6.at r, TMG_REF_PH.at r, TMG_REF_7.at r])
       s.RunsInBoth i rx bs 0x0800 → Completes (.timeQuery i rx) s (fun t => s.Replied t i rx bs stOk stOk stOk (s0.readWords .north ws).1
        ∧ t = { s with north := t.north, south := t.south } ∧ ∀ k, Half.ChannelOnly (s.half k) (t.half k) ws ∧ Half.SessionsOnly (s.half k) (t.half k)))
    ∧ (s.RunsIn i j rx bs 0x0101 → let r := (List.range (fieldAt p 4 2)).foldl (fun (acc : List Byte × State) n =>
          let x := acc.2.busRead j (fieldAt p 0 4 + 4 * n)
          (acc.1 ++ leBytes 4 (x.1.getD 0xFFFFFFFF).toNat, x.2)) ([], s0)
        h.running = true → Completes (.regRead i rx) s (fun t => s.Replied t i rx bs stOk (only j stOk).1 (only j stOk).2 r.1 ∧ r.2.AnsweredFrom t i
          ∧ ∀ k, Half.BytesBut (s.half k) (t.half k) 0 0 ∧ (t.half k).front = (s.half k).front ∧ (t.half k).arc = (s.half k).arc))

/-- R37, R408, R409, Table EXY-9: a table command is accepted for the tick of its effective frame: K_E, or two frames on where K_E is 0, and Δ more for
beams. It sets its writes aside for that tick, one list for each input, subarray or scale slot, and changes nothing else. Where it rests on a reading or a
choice of the model, that is log 46. -/
def Obligations.TablesAtTicks : Prop :=
  ∀ (s : State) (i j : HalfId) (rx : Rx) (bs : List Byte) (ke : Nat), let h := s.half j; let p := frPayload bs
    let accepted (c : Instr) (op extra : Nat) (items : List (Nat × List PWrite)) : Prop :=
      (∀ x ∈ h.exy.planned, x.opcode = op → x.ke ≠ ke → ∀ e ∈ items, e.1 ≠ x.key) → Completes c s (fun t =>
        s.Replied t i rx bs stTick (only j stTick).1 (only j stTick).2 [] ∧ s.OpFrame t i j []
        ∧ Half.ExyWith h (t.half j) (fun e => { e with planned := e.planned ++ items.map (fun w => ⟨ke, ke + extra, op, w.1, w.2⟩) }))
    (∀ k, fieldAt p 8 8 = k → (k = 0 → ke = h.frame + 2) → (k ≠ 0 → ke = k ∧ h.frame + 2 ≤ k) →
      (∀ q : Nat → Nat, s.RunsIn i j rx bs 0x0400 → let e (n : Nat) := slice p (16 + 52 * n) 52
        (∀ n, n < fieldAt p 0 2 → h.qOfPlaza (fieldAt (e n) 0 2) = some (q n)) → accepted (.modelSet i rx) 0x0400 0 ((List.range (fieldAt p 0 2)).map (fun n =>
          (q n, ((List.range 10).map (fun w => fieldAt (e n) (12 + 4 * w) 4) ++ [fieldAt (e n) 6 4, fieldAt (e n) 10 2,
            byteAt (e n) 2 % 2 * 2 ^ 31 + fieldAt (e n) 4 2]).zipIdx.map (fun w => .reg (DLY_MODEL_0.at (q n) + 4 * w.2) (BitVec.ofNat 32 w.1))))))
      ∧ (∀ q, s.RunsIn i j rx bs 0x0401 → h.qOfPlaza (fieldAt p 0 2) = some q → accepted (.gainSet i rx) 0x0401 0 [(q, (List.range (fieldAt p 4 2)).map (fun n =>
          .gain q (fieldAt p 2 2 + n) (BitVec.ofNat 32 (fieldAt p (16 + 4 * n) 4))))])
      ∧ (∀ q : Nat → Nat, s.RunsIn i j rx bs 0x0402 → (∀ n, n < fieldAt p 0 2 → h.qOfPlaza (fieldAt p (16 + 4 * n) 2) = some (q n)) →
          accepted (.inputFlags i rx) 0x0402 0 ((List.range (fieldAt p 0 2)).map (fun n => let f := byteAt p (18 + 4 * n)
            (q n, [.reg (DLY_INPUT_CFG.at (q n)) (BitVec.ofNat 32 (f % 8)), .reg (CHN_INPUT_CFG.at (q n)) (BitVec.ofNat 32 (f / 8 % 2 * 2 + f / 16 % 2))]))))
      ∧ (s.RunsIn i j rx bs 0x0403 → accepted (.maskSet i rx) 0x0403 0 [(0, (List.range (fieldAt p 2 2)).map (fun n =>
          .reg (CHN_MASK.at (fieldAt p 0 2 + n)) (BitVec.ofNat 32 (fieldAt p (16 + 4 * n) 4))))])
      ∧ (s.RunsIn i j rx bs 0x0502 → fieldAt p 2 2 + fieldAt p 4 2 ≤ 512 → accepted (.beamScale i rx) 0x0502 h.delta [(fieldAt p 0 2,
          (List.range (fieldAt p 4 2)).map (fun m => .scale (fieldAt p 0 2) (fieldAt p 2 2 + m) (fieldAt p (16 + 2 * m) 2)))]))
    ∧ (∀ k x, fieldAt p 16 8 = k → (k = 0 → ke = h.frame + 2) → (k ≠ 0 → ke = k ∧ h.frame + 2 ≤ k) → h.schedAt (byteAt p 0) ke = some x →
        (SMap.find? h.exy.subs (byteAt p 0)).any (fun y => y.latest.isSome) = true →
        fieldAt p 2 2 + fieldAt p 4 2 ≤ x.beams → fieldAt p 6 2 + fieldAt p 8 2 ≤ 64 * x.blocks →
        let word (n : Nat) : Nat := ((fieldAt p 2 2 + n / fieldAt p 8 2) * (64 * x.blocks) + (fieldAt p 6 2 + n % fieldAt p 8 2)) * 6
        let three (n : Nat) (ws : List Nat) : List PWrite := ws.zipIdx.map (fun w => .beam (byteAt p 0) (word n + w.2) (BitVec.ofNat 32 w.1))
        (s.RunsIn i j rx bs 0x0501 → accepted (.beamRaw i rx) 0x0501 h.delta [(byteAt p 0, (List.range (fieldAt p 4 2 * fieldAt p 8 2)).flatMap (fun n =>
          three n [fieldAt p (24 + 12 * n) 4, fieldAt p (28 + 12 * n) 4, fieldAt p (32 + 12 * n) 4]))])
        ∧ (let tau (n : Nat) : Int := sext 64 (fieldAt p (24 + 12 * n) 8)
           let input (n : Nat) : Nat := 64 * firstBlk64 x.inputs + (fieldAt p 6 2 + n % fieldAt p 8 2)
           s.RunsIn i j rx bs 0x0500 → (∀ n, n < fieldAt p 4 2 * fieldAt p 8 2 → -(2 ^ 31) ≤ (h.beamPhase (input n) (tau n)).2 ∧ (h.beamPhase (input n) (tau n)).2 < 2 ^ 31) →
            accepted (.beamDelays i rx) 0x0500 h.delta [(byteAt p 0, (List.range (fieldAt p 4 2 * fieldAt p 8 2)).flatMap (fun n =>
              three n [(h.beamPhase (input n) (tau n)).1, wrapBits 32 (h.beamPhase (input n) (tau n)).2, fieldAt p (32 + 12 * n) 4]))]))
    ∧ (s.RunsIn i j rx bs 0x0404 → (∀ n, n < fieldAt p 0 2 → fieldAt p (4 + 12 * n) 2 < h.plazaInputs) → Completes (.skySet i rx) s (fun t =>
        s.Replied t i rx bs stOk (only j stOk).1 (only j stOk).2 [] ∧ s.OpFrame t i j [] ∧ (t.half j).exy.planned = h.exy.planned
        ∧ ∀ n, n < fieldAt p 0 2 → (∀ m, n < m → m < fieldAt p 0 2 → fieldAt p (4 + 12 * m) 2 ≠ fieldAt p (4 + 12 * n) 2) →
            SMap.find? (t.half j).exy.sky (fieldAt p (4 + 12 * n) 2) = some (bit (byteAt p (6 + 12 * n)) 0, fieldAt p (8 + 12 * n) 8)))

/-- Table EXY-8: SCHED_BEGIN opens a draft for its session, empty and without limits, or from the newest schedule; inputs, quotas and products then go into
the draft, and nothing that runs changes. R33, R36, R37, R407: a commit that admission takes closes the draft and gives the subarray its schedule from the effective frame
on, with the quotas that the draft carries, or those that stand; one that meets a pending change is BUSY, closes the draft, and changes no schedule. Where it rests on a reading or a choice of the model, that is log 25
and log 26. -/
def Obligations.DraftsAndCommits : Prop :=
  (∀ (s : State) (i j : HalfId) (rx : Rx) (bs : List Byte), let h := s.half j; let p := frPayload bs; let src := srcOf rx bs; let sub := byteAt p 0
    let drafted (c : Instr) (op : Nat) (d : Draft) : Prop := s.RunsIn i j rx bs op → Completes c s (fun t =>
      s.Replied t i rx bs stOk (only j stOk).1 (only j stOk).2 [] ∧ s.OpFrame t i j []
      ∧ Half.ExyWith h (t.half j) (fun e => { e with drafts := SMap.insert e.drafts sub d }))
    (byteAt p 1 = 0 → h.sub? sub = none → drafted (.schedBegin i rx) 0x0300 ⟨src.kind, src.ip, src.port, src.num, ⟨[], List.replicate 4 (2 ^ 32 - 1), []⟩⟩)
    ∧ (∀ x, byteAt p 1 = 1 → (h.sub? sub).bind Sub.latest = some x → drafted (.schedBegin i rx) 0x0300 ⟨src.kind, src.ip, src.port, src.num, { x with quotas := [] }⟩)
    ∧ (∀ d : Draft, SMap.find? h.exy.drafts sub = some d → d.kind = src.kind → d.ip = src.ip → d.port = src.port → d.num = src.num →
      let with_ (q : Prod) : Draft := { d with sched := { d.sched with
        prods := d.sched.prods.filter (fun r => r.num < q.num) ++ [q] ++ d.sched.prods.filter (fun r => q.num < r.num) } }
      drafted (.schedInputs i rx) 0x0301 { d with sched := { d.sched with
        inputs := setPositions (fieldAt p 20 1024) 8192, quotas := [fieldAt p 4 4, fieldAt p 8 4, fieldAt p 12 4, fieldAt p 16 4] } }
      ∧ (let f := bit (byteAt p 3)
         drafted (.schedVis i rx) 0x0302 (with_ ⟨byteAt p 1, byteAt p 2, .vis ⟨f 0, f 1, f 2, f 3, f 4, byteAt p 4, byteAt p 5, byteAt p 6, fieldAt p 8 4,
          fieldAt p 12 4, fieldAt p 16 4, fieldAt p 20 4⟩⟩))
      ∧ (let f := bit (byteAt p 4)
         drafted (.schedBeam i rx) 0x0303 (with_ ⟨byteAt p 1, byteAt p 2, .beam ⟨byteAt p 3, f 0, f 1, f 2, byteAt p 5, fieldAt p 6 2, fieldAt p 8 2, fieldAt p 10 2, byteAt p 12, byteAt p 13,
          fieldAt p 16 4⟩⟩))
      ∧ drafted (.schedCapture i rx) 0x0304 (with_ ⟨byteAt p 1, byteAt p 2, .cap ⟨bit (byteAt p 3) 0, fieldAt p 4 2, fieldAt p 6 2, fieldAt p 8 2, fieldAt p 10 2, byteAt p 12,
          fieldAt p 16 4⟩⟩)
      ∧ drafted (.schedDrop i rx) 0x0305 { d with sched := { d.sched with prods := d.sched.prods.filter (fun q => q.num != byteAt p 1) } }))
  ∧ (∀ (s : State) (i j : HalfId) (rx : Rx) (bs : List Byte) (d : Draft) (ke : Nat), let h := s.half j; let p := frPayload bs; let src := srcOf rx bs; let sub := byteAt p 0
    let h1 := ((s.taken i rx).on j (fun g => g.modExy (fun e => { e with drafts := SMap.erase e.drafts sub }))).half j
    s.RunsIn i j rx bs 0x0306 → SMap.find? h.exy.drafts sub = some d → d.kind = src.kind → d.ip = src.ip → d.port = src.port → d.num = src.num →
    h.effective (fieldAt p 8 8) = some ke →
    (h.subPending sub = true → Completes (.schedCommit i rx) s (fun t => s.Replied t i rx bs stBusy (only j stBusy).1 (only j stBusy).2 (leBytes 8 ke ++ leBytes 4 0)
      ∧ s.OpFrame t i j [] ∧ Half.ExyWith h (t.half j) (fun e => { e with drafts := SMap.erase e.drafts sub })))
    ∧ (∀ h2 row, h.subPending sub = false → (∀ y, h.sub? sub = some y → y.latest ≠ none) →
        (∀ e ∈ h.exy.subs, e.1 ≠ sub → ∀ n ∈ d.sched.inputs, n ∉ e.2.inputsHeld) →
        (∀ r ∈ d.sched.flows, (h.ringRec r).isSome = true ∧ ctxSub (h.ctx r) = sub ∧ ctxOwner (h.ctx r) = true) →
        h1.admitDraft sub ke d.sched (match h.sub? sub with | some y => y.unshed d.sched | none => d.sched) (commitQuotas d.sched.quotas (h.sub? sub)) = (stOk, row, h2) →
        Completes (.schedCommit i rx) s (fun t => s.Replied t i rx bs stTick (only j stTick).1 (only j stTick).2 (leBytes 8 ke ++ leBytes 4 0)
          ∧ SMap.find? (t.half j).exy.drafts sub = none
          ∧ (∀ n, n ≠ sub → SMap.find? (t.half j).exy.subs n = SMap.find? h.exy.subs n)
          ∧ ∃ y, (t.half j).sub? sub = some y ∧ y.vers.head? = some (ke, some d.sched) ∧ y.quotas = carriedQuotas d.sched.quotas (h.sub? sub)
              ∧ (d.sched.quotas ≠ [] → y.next = some (commitQuotas d.sched.quotas (h.sub? sub)))
              ∧ (d.sched.quotas = [] → ∀ x, h.sub? sub = some x → y.next = x.next) ∧ y.vers.tail = (match h.sub? sub with | some x => x.vers | none => []))))

/-- R24, R39, R41, R42, R44: a tear-down ends the schedule at its effective frame, a quota waits for the next tick, READMIT is held for it, FRAME_CFG sets
the frame where no subarray runs, and a subarray that has stopped is gone with its rings. Where it rests on a reading or a choice of the model, that is log
26. -/
def Obligations.SubarrayChanges : Prop :=
  ∀ (s : State) (i j : HalfId) (rx : Rx) (bs : List Byte), let h := s.half j; let p := frPayload bs; let sub := byteAt p 0; let h0 := (s.taken i rx).half j
    let ok (c : Instr) (op st : Nat) (data : List Byte) (f : Exy → Exy) : Prop := s.RunsIn i j rx bs op → Completes c s (fun t =>
      s.Replied t i rx bs st (only j st).1 (only j st).2 data ∧ s.OpFrame t i j [] ∧ Half.ExyWith h (t.half j) f)
    (∀ y ke, h.sub? sub = some y → y.latest ≠ none → h.subPending sub = false → h.effective (fieldAt p 8 8) = some ke →
      ok (.subTeardown i rx) 0x0307 stTick (leBytes 8 ke) (fun e => { e with
        subs := SMap.insert e.subs sub { y with vers := (ke, none) :: y.vers, next := none, readmit := [] } }))
    ∧ (∀ y, h.sub? sub = some y → y.latest ≠ none → let qs := [fieldAt p 4 4, fieldAt p 8 4, fieldAt p 12 4, fieldAt p 16 4]
      ok (.quotaSet i rx) 0x0308 (if (List.range 4).any (fun k => decide (qs.getD k 0 < (y.next.getD y.quotas).getD k 0)) then stTick else stOk) []
        (fun e => { e with subs := SMap.insert e.subs sub { y with next := some qs } }))
    ∧ (∀ y, h.sub? sub = some y → y.latest ≠ none →
      ok (.readmit i rx) 0x0309 stTick (leBytes 32 (bitmap ((h0.fitting (h0.shedProds (fun n q => n == sub && bit (fieldAt p 32 32) q.1))).map (·.2))))
        (fun e => { e with subs := SMap.insert e.subs sub { y with readmit := y.readmit ++ setPositions (fieldAt p 32 32) 256 } }))
    ∧ (s.RunsIn i j rx bs 0x030A → h.subRuns = false → Completes (.frameCfg i rx) s (fun t => s.Replied t i rx bs stOk (only j stOk).1 (only j stOk).2 []
        ∧ (t.half j).fget DEV_FRM_CFG_FCODE = byteAt p 0 ∧ (t.half j).fget DEV_FRM_CFG_FMT8 = byteAt p 1 ∧ (t.half j).fget DEV_FRM_CFG_DEPTH = fieldAt p 2 2
        ∧ (t.half j).exy.subs = h.exy.subs ∧ (t.half j).exy.rings = h.exy.rings ∧ (t.half j).exy.places = h.exy.places))
    ∧ (s.RunsIn i j rx bs 0x030A → h.subRuns = true → Completes (.frameCfg i rx) s (fun t => s.Replied t i rx bs stLocked (only j stLocked).1 (only j stLocked).2 []
        ∧ s.OpFrame t i j [] ∧ Half.SessionsOnly h (t.half j)))
    ∧ (∀ n, n < 16 → s.Works j →
      (h.subDrained n = true → Completes (.subarrayStopped j n) s (fun t => s.OnlyHalf t j ∧ (t.half j).exy.subs = SMap.erase h.exy.subs n
        ∧ (t.half j).exy.images = SMap.erase h.exy.images n ∧ (t.half j).exy.places = h.exy.places.filter (fun q => q.sub != n)
        ∧ (t.half j).exy.rings = h.exy.rings.filter (fun x => !(ctxSub (h.ctx x.ring) == n && ctxOwner (h.ctx x.ring)))
        ∧ (t.half j).front = h.front ∧ (t.half j).xch = h.xch ∧ (t.half j).arc = h.arc ∧ (t.half j).lta = h.lta ∧ (t.half j).bmf = h.bmf ∧ (t.half j).isl = h.isl
        ∧ bit ((t.half j).getN DEV_SUBARR_ACT) n = false ∧ (t.half j).srcBit EVC_PENDING 457 = true))
      ∧ (h.subDrained n = false → Completes (.subarrayStopped j n) s (fun t => s.OnlyHalf t j ∧ Half.RegsOnly h (t.half j) ∧ Half.RegsBut h (t.half j) [])))

/-- R230, R240, R242, Table EXY-10: RING_CREATE places a ring and gives it its context, RING_SET writes the fields that may be written, STOP and START act as the
ring commands do, DESTROY frees an empty ring that no schedule names; RING_CMD for a ring of the other half logs TRW_CFG_RANGE, and creating one is BUSY. Where it rests on a reading or a
choice of the model, that is log 24 and log 28. -/
def Obligations.RingOpcodes : Prop :=
  ∀ (s : State) (i j : HalfId) (rx : Rx) (bs : List Byte), let h := s.half j; let p := frPayload bs; let r := fieldAt p 0 4
    let ok (t : State) (data : List Byte) : Prop := s.Replied t i rx bs stOk (only j stOk).1 (only j stOk).2 data
    let conf := ringConf p
    let ctx0 (rb cb : Nat) : List Byte := leBytes 8 rb ++ conf ++ leBytes 8 rb ++ leBytes 1 (byteAt p 4) ++ leBytes 1 (byteAt p 5) ++ leBytes 6 0 ++ leBytes 8 cb ++ leBytes 24 0
    h.id = j →
    (ringHalf r = j →
    (∀ rb cb, s.RunsIn i j rx bs 0x0600 → h.ringRec r = none →
        (∀ y, h.sub? (ctxSub (ctx0 0 0)) = some y → y.latest ≠ none → quotaHolds (y.quota 2) (cdiv (h.ringHeld (ctxSub (ctx0 0 0)) + 32 * 2 ^ byteAt p 4) 1024) = true) →
        h.ensureLaid.mirrorFit (32 * 2 ^ byteAt p 4) (32 * 2 ^ byteAt p 4) = some rb →
        (if byteAt p 5 = 0 then cb = 0 else ({ h.ensureLaid with exy := { h.exy with rings := h.exy.rings ++ [⟨r, conf, rb, byteAt p 4, 0, 0, none⟩] } } : Half).mirrorFit
          (16 * 2 ^ byteAt p 5) 16 = some cb) →
        Completes (.ringCreate i rx) s (fun t => ok t (leBytes 8 rb ++ leBytes 8 cb) ∧ (t.half j).ctx r = ctx0 rb cb
          ∧ (t.half j).exy.rings = h.exy.rings ++ [⟨r, conf, rb, byteAt p 4, cb, byteAt p 5, none⟩]))
    ∧ (s.RunsIn i j rx bs 0x0601 → (h.ringRec r).isSome = true → ((h.ctxLoad r).ctx r).length = ctxBytes →
        let c := (h.ctxLoad r).ctx r
        let active := ctxState c = ringRunning ∨ ctxState c = ringParked
        let new := leBytes 1 (byteAt c 8 / 16 * 16 + byteAt conf 0) ++ conf.drop 1
        let mask (w : Nat) : Nat := if ctxState c = ringRunning ∨ ctxState c = ringParked then ctxLiveMask (2 + w) else ctxMask (2 + w)
        (active → ∀ w, w < 10 → (fieldAt new (4 * w) 4 ^^^ fieldAt c (8 + 4 * w) 4) &&& (0xFFFFFFFF ^^^ ctxLiveMask (2 + w)) = 0) →
        Completes (.ringSet i rx) s (fun t => ok t [] ∧ ∀ w, w < 10 →
          fieldAt ((t.half j).ctx r) (8 + 4 * w) 4 = (fieldAt c (8 + 4 * w) 4 &&& (0xFFFFFFFF ^^^ mask w)) ||| (fieldAt new (4 * w) 4 &&& mask w)))
    ∧ (s.RunsIn i j rx bs 0x0602 → (h.ringRec r).isSome = true →
        (byteAt p 4 = 1 → Completes (.ringCmdStop i rx) s (fun t => ok t [] ∧ ((s.taken i rx).after [.trwStop j r]).AnsweredFrom t i))
        ∧ (byteAt p 4 = 2 → Completes (.ringCmdStart i rx) s (fun t => ok t [] ∧ ((s.taken i rx).after [.trwStart j r]).AnsweredFrom t i))
        ∧ (byteAt p 4 = 3 → (ctxState (h.ctx r) = ringStopped ∨ ctxState (h.ctx r) = ringIdle) → ctxPidx (h.ctx r) = ctxDidx (h.ctx r) → h.ringNamed r = false →
            (h.eng r).held = none → Completes (.ringCmdDestroy i rx) s (fun t => ok t [] ∧ (t.half j).ctx r = List.replicate ctxBytes 0
              ∧ (t.half j).exy.rings = h.exy.rings.filter (fun x => x.ring != r)))))
    ∧ (ringHalf r ≠ j →
      (s.RunsIn i j rx bs 0x0600 → Completes (.ringCreate i rx) s (fun t => s.Replied t i rx bs stBusy (only j stBusy).1 (only j stBusy).2 [] ∧ s.OpFrame t i j []
        ∧ Half.SessionsOnly h (t.half j)))
      ∧ (s.RunsIn i j rx bs 0x0602 → ∀ c ∈ [(1, Instr.ringCmdStop i rx), (2, .ringCmdStart i rx), (3, .ringCmdDestroy i rx)], byteAt p 4 = c.1 →
        Completes c.2 s (fun t => ok t [] ∧ s.OpFrame t i j errAddrs ∧ Half.SessionsOnly h (t.half j) ∧ Half.Logged h (t.half j) errTRW_CFG_RANGE 0xFFFF)))

/-- R85, R221, R417, Tables EXY-9 to EXY-15: an opcode that sets up or works a unit by its registers does what writes of the words it carries do, in the order
given, and then answers where its transport still can; a REG_WRITE of CHN_CFG without thresholds writes the row of Table CHN-3 too; a handover, a restart and a
fence do what the unit's own command does. Where it rests on a reading or a choice of the model, that
is log 44 and log 46. -/
def Obligations.RegisterOpcodes : Prop :=
  ∀ (s : State) (i j : HalfId) (rx : Rx) (bs : List Byte), let h := s.half j; let p := frPayload bs; let s0 := s.taken i rx
    let d (o : Nat) : Nat := fieldAt p o 4
    let does (c : Instr) (op st : Nat) (data : State → List Byte) (cs : List Instr) : Prop := s.RunsIn i j rx bs op → s.CanReply (s0.after cs) i rx → Completes c s (fun t =>
      s.Replied t i rx bs st (only j st).1 (only j st).2 (data (s0.after cs)) ∧ (s0.after cs).AnsweredFrom t i)
    let fits (ws : List (RegDef × Nat × Nat)) (k : HalfId) : Prop := ∀ w ∈ ws, (s.half k).wordOk w.1 w.2.1 w.2.2 = true
    let words (ws : List (RegDef × Nat × Nat)) : List (Nat × Nat) := ws.map (fun w => (w.1.at w.2.1, w.2.2))
    let nothing : State → List Byte := fun _ => []
    (∀ late, let ns := List.range (fieldAt p 4 2)
       let addr (k : Nat) : Nat := d 0 + 4 * k
       let word (k : Nat) : Word := BitVec.ofNat 32 (d (8 + 4 * k))
       let st := if ns.any (fun k => recordAddr (addr k) && s0.recordFenced j (windowOf (addr k)).1) then stStaleEpoch else stOk
       let thr (k : Nat) : Bool := ns.any (fun m => (windowOf (addr m % 0x8000000)).1 == (windowOf (addr k % 0x8000000)).1 && namesReg CHN_SK_THR (addr m))
       let u := ns.foldl (fun (u : State) k => u.after (.registerWrite j (addr k) (word k) ⟨late, false, 0⟩ :: (if u.setsSkm (addr k) (word k) && !thr k then
         [.registerWrite j (addr k - CHN_CFG.at 0 + CHN_SK_THR.at 0) (skThrRow (bits (word k).toNat 9 8)) ⟨late, false, 0⟩] else []))) s0
       s.RunsIn i j rx bs 0x0102 → s.CanReply u i rx → (u.half j).running = true → Completes (.regWrite i ⟨rx, late⟩) s (fun t => s.Replied t i rx bs st (only j st).1 (only j st).2 [] ∧ u.AnsweredFrom t i))
    ∧ (h.flag OUT_CTL_RUN = false → does (.portCfg i rx) 0x0604 stOk nothing (regWrites j ((OUT_CTL.at 0, byteAt p 1 * 4 + byteAt p 0 * 2) :: (List.range 4).flatMap (fun l =>
        let o := 4 + 28 * l
        [(OUT_PORT_0.at l, d o), (OUT_PORT_1.at l, fieldAt p (o + 4) 2), (OUT_PORT_2.at l, d (o + 8)), (OUT_PORT_3.at l, d (o + 24)),
          (OUT_PORT_4.at l, d (o + 20)), (OUT_PORT_5.at l, d (o + 16)), (OUT_PORT_6.at l, d (o + 12))]))))
    ∧ (∀ v, h.feedOf (byteAt p 0) (byteAt p 1) = some v → v < 16 →
        (let seqs := [(CAP_FEED_9.at v, d 4), (CAP_FEED_10.at v, d 8)]
         let busy := ((s0.after (regWrites j seqs)).half j).capGivesBusy v (byteAt p 2) (Config.freeValue s0.freeCtr)
         does (.capCmd i rx) 0x0700 (if busy then stBusy else stOk) (fun u => if busy then [] else leBytes 1 ((u.half j).capState v))
           (regWrites j (seqs ++ [(CAP_CMD.at v, byteAt p 2)])))
        ∧ does (.capTrigcfg i rx) 0x0701 stTick nothing (regWrites j [(CAP_FEED_4.at v, fieldAt p 8 3), (CAP_FEED_5.at v, byteAt p 2 % 2 * 2 ^ 31 + fieldAt p 4 2),
            (CAP_FEED_6.at v, d 12), (CAP_FEED_7.at v, fieldAt p 16 2)]))
    ∧ (let lam := byteAt p 0
       let off (n : Nat) : Nat := n &&& (0xFFFFFFFF - 2 ^ LAN_CFG_EN.lo)
       (fits [(LAN_CFG, lam, d 4), (LAN_TIME, lam, d 8), (LAN_DEG, lam, d 12), (LAN_UNC, lam, d 16)] j → does (.laneCfg i rx) 0x0900 stOk nothing (regWrites j
          [(LAN_CFG.at lam, off (h.getN LAN_CFG lam)), (LAN_CFG.at lam, off (d 4)), (LAN_TIME.at lam, d 8), (LAN_DEG.at lam, d 12), (LAN_UNC.at lam, d 16), (LAN_CFG.at lam, d 4)]))
       ∧ (fits [(LAN_TEST, lam, d 4)] j → bits (d 4) 17 16 ≠ 3 → bits (d 4) 11 8 ≤ 9 → bits (d 4) 3 0 ≤ 9 →
          (bit (d 8) 31 = true → bits (d 8) 30 28 ≠ 0 → h.flag LAN_STAT_INJ_ACT lam = false) → does (.laneTest i rx) 0x0901 stOk nothing (regWrites j [(LAN_TEST.at lam, d 4), (LAN_INJ.at lam, d 8)])))
    ∧ (h.fget HKA_STAT_STATE = 0 → (∀ k, k < byteAt p 0 → onlyBits (d (4 + 4 * k)) (fieldMask HKA_SEQ (fun _ => true)) = true) → does (.hkSeq i rx) 0x0C01 stOk nothing
        (regWrites j ((List.range (byteAt p 0)).map (fun k => (HKA_SEQ.at k, d (4 + 4 * k))) ++ [(HKA_CTL.at 0, 2 ^ 31 + byteAt p 1 % 2 * 2 ^ 29 + byteAt p 0)])))
    ∧ (let ws := [(SUP_FEED, 0, d 0), (SUP_BO, 0, d 4), (SUP_AVS, 0, d 8), (SUP_THERM, 0, d 12), (SUP_CTL, 0, d 16)]
       d 16 < 4 → d 8 < 2 ^ 28 → fits ws j → does (.supCfg i rx) 0x0C02 stOk nothing (regWrites j (words ws)))
    ∧ does (.pcFence i rx) 0x0B03 stOk nothing [.hbmPcFence j (byteAt p 0) false]
    ∧ (h.isPrimary = true → h.flag LSE_STAT_OTHER_HOT = true → does (.handover i rx) 0x0B00 stOk nothing [.lseHandover j])
    ∧ (let k := if byteAt p 0 = 0 then HalfId.north else HalfId.south
       (s.half k).isl.powered = true → (s.half k).own = 0 → (s.half k).restartBarred = false → s.board.resetN = true →
        does (.halfRestart i rx) 0x0C03 stOk nothing [.supRestart k])
    ∧ (let both (c : Instr) (op : Nat) (ws : List (RegDef × Nat × Nat)) : Prop := s.RunsInBoth i rx bs op → fits ws .north → fits ws .south →
          s.CanReply (s0.after (regWrites .north (words ws) ++ regWrites .south (words ws))) i rx → Completes c s (fun t =>
          s.Replied t i rx bs stOk stOk stOk [] ∧ (s0.after (regWrites .north (words ws) ++ regWrites .south (words ws))).AnsweredFrom t i)
       both (.refCfg i rx) 0x0801 ([TMG_REF_0, TMG_REF_1, TMG_REF_2, TMG_REF_3, TMG_REF_4].zipIdx.map (fun r => (r.1, byteAt p 0, d (4 + 4 * r.2))))
       ∧ both (.timeCtl i rx) 0x0802 ([TMG_CTL, TMG_SLEW, TMG_QUAL, TMG_LOCK, TMG_DIS_THR, HO_THR, HO_Y, HO_Q].zipIdx.map (fun r => (r.1, 0, d (4 * r.2))))
       ∧ both (.ptpCfg i rx) 0x0804 [(TMG_PTP_CFG, 0, d 0)]
       ∧ (let ws := [(TMG_TSET_0.at 0, d 0), (TMG_TSET_1.at 0, 2 ^ 31 + byteAt p 4)]
          s.RunsInBoth i rx bs 0x0803 → s.north.subRuns = false → s.south.subRuns = false → s.CanReply (s0.after (regWrites .north ws ++ regWrites .south ws)) i rx → Completes (.timeSet i rx) s (fun t =>
            s.Replied t i rx bs stOk stOk stOk [] ∧ (s0.after (regWrites .north ws ++ regWrites .south ws)).AnsweredFrom t i)))

/-- R339, R396, R403, R411, R412: an accepted change of the device record takes its words, one more in GEN, and a new CRC; a subscriber's queues start
afresh in both halves; ERR_READ hands out the first records in handling order; a reset and a repair wait for their tick; a snapshot ends the passes
in flight, writes its image and answers with its records and bytes, or is BUSY where a pass on its slots has not drained. Where it rests on a reading or a choice of the model, that is log 35 and log 46. -/
def Obligations.RecordAndErrors : Prop :=
  ∀ (s : State) (i j : HalfId) (rx : Rx) (bs : List Byte), let h := s.half j; let p := frPayload bs; let src := srcOf rx bs
    let d (o : Nat) : Nat := fieldAt p o 4
    let ok (t : State) (st : Nat) (data : List Byte) : Prop := s.Replied t i rx bs st (only j st).1 (only j st).2 data
    let recorded (c : Instr) (op : Nat) (ws : List (Nat × Nat)) (q : State → Prop) : Prop := s.RunsIn i j rx bs op → s.recordFenced j j = false → Completes c s (fun t =>
      ok t stOk [] ∧ (t.half j).recordGood = true ∧ (t.half j).getN LSE_DREC 1 = (h.record 1 + 1) % 2 ^ 32
      ∧ (∀ w ∈ ws, (t.half j).getN LSE_DREC w.1 = w.2 % 2 ^ 32)
      ∧ (∀ n, 2 ≤ n → n < 63 → (∀ w ∈ ws, w.1 ≠ n) → (t.half j).getN LSE_DREC n = h.record n) ∧ q t)
    let slot (k : Nat) (t : State) : Prop := ∀ m, (t.half m).exy.evts = (s.half m).exy.evts.set k ⟨[], 0, 0⟩
    recorded (.mgmtCfg i rx) 0x0103 [(42, d 0), (43, d 4), (44, d 8), (45, d 12), (46, fieldAt p 18 2 * 65536 + fieldAt p 16 2), (47, fieldAt p 20 2)] (fun _ => True)
    ∧ recorded (.authKey i rx) 0x0104 ((List.range 8).map (fun w => (2 + w, d (4 * w)))) (fun _ => True)
    ∧ (let k := byteAt p 0
       recorded (.evtSubscribe i rx) 0x0A00 [(10 + 4 * k, subscriberCode src.kind i + src.num * 256 + src.port * 65536), (11 + 4 * k, d 4), (12 + 4 * k, beNat src.ip), (13 + 4 * k, 0)] (slot k)
       ∧ recorded (.evtCancel i rx) 0x0A01 [(10 + 4 * k, 0), (11 + 4 * k, 0), (12 + 4 * k, 0), (13 + 4 * k, 0)] (slot k))
    ∧ (let rs := (handlingOrder h.errq.recs).take (byteAt p 0)
       h.mainUp = true → s.RunsIn i j rx bs 0x0A02 → Completes (.errRead i rx) s (fun t =>
        ok t stOk (leBytes 1 rs.length ++ leBytes 1 0 ++ leBytes 2 (h.fget ERR_STAT_OVERFLOW) ++ rs.flatMap (fun r => (errWords r).flatMap (leBytes 4)))
        ∧ s.OpFrame t i j [ERR_STAT.at 0] ∧ (t.half j).fget ERR_STAT_OVERFLOW = 0
        ∧ (t.half j).errq.recs = h.errq.recs.filter (fun r => !rs.any (fun x => x.id == r.id))))
    ∧ (let k := if byteAt p 0 = 0 then HalfId.north else HalfId.south
       ∀ ke, s.RunsIn i j rx bs 0x0B01 → h.effective (fieldAt p 8 8) = some ke →
        ((s.half k).running = true ∨ ((s.half k).isl.powered = true ∧ (s.half k).own = 0 ∧ (s.half k).restartBarred = false ∧ s.board.resetN = true)) →
        ((s.half k).isPrimary = true → (s.half k).flag LSE_STAT_OTHER_HOT = true) → ((s.half k).exy.resetAt = none ∨ (s.half k).exy.resetAt = some ke) →
        Completes (.halfReset i rx) s (fun t => ok t stTick (leBytes 8 ke) ∧ ∀ m, Half.ChannelOnly (s.half m) (t.half m) []
          ∧ Half.ExyWith (s.half m) (t.half m) (fun e => if m = k then { e with resetAt := some ke } else e)))
    ∧ (s.RunsIn i j rx bs 0x0B02 → h.bayState (byteAt p 0) = bayFenced → (∃ q ∈ bays, h.bayState q = baySpare) → Completes (.bayRepair i rx) s (fun t => ok t stTick []
        ∧ Half.ChannelOnly { h with arc := { h.arc with repair := byteAt p 0 :: h.arc.repair.filter (· != byteAt p 0) } } (t.half j) [] ∧ Half.SessionsOnly h (t.half j)))
    ∧ (∀ r slot count trec, s.RunsIn i j rx bs 0x0105 → h.arc.run = some r → r.sub = byteAt p 0 → h.arcGoes = true → h.openBlock r = some (slot, count, trec) →
        let len := imageLen (leBytes 3 0 ++ [1] ++ leBytes 2 count) + 4
        h.mapped (fieldAt p 4 4 * 4096) len = true →
        let u := (s.taken i rx).on j (fun g => Half.finishPasses (2 * (g.fset ARC_CTL_SUSPEND 1).arcSettle.arc.passes.length
          + (g.fset ARC_CTL_SUSPEND 1).arcSettle.lta.blocks.length) (g.fset ARC_CTL_SUSPEND 1).arcSettle)
        let left := (u.half j).arc.passes.any (fun p => p.status != 0 && p.shape < 2 && slot ≤ p.slot && p.slot < slot + count)
        let v := u.on j (fun g =>
          let g := if left then g else g.memWrite (fieldAt p 4 4 * 4096) (g.contextImage r (g.nextPart r) slot trec count true none)
          (g.fset ARC_CTL_SUSPEND 0).arcSettle)
        s.CanReply v i rx → Completes (.snapshot i rx) s (fun t => v.AnsweredFrom t i
          ∧ ok t (if left then stBusy else stOk) (if left then [] else leBytes 2 count ++ leBytes 2 0 ++ leBytes 4 len)))

/-! ### Register accesses (00_scope.md, 02_frames_schedules.md, 22_register_map.md) -/

/-- R4, R6, R7, R8, R31, R332, R417: a write that the register takes is stored by its fields, a W1C bit set in the same cycle ends set, and no other register changes; one out of range is ignored as a whole;
a write of a command register does what the command's own row does; a record word takes only the primary's writes at its epoch; where no register stands,
at a misaligned address and for a narrower write, nothing happens. Where it rests on a reading or a choice of the model, that is log 35 and log 48. -/
def Obligations.RegisterWrites : Prop :=
  ∀ (s : State) (v i : HalfId) (r : RegDef) (k : Nat) (w same : Word) (late : Bool), let h := s.half i
    let addr := r.at k + 0x4000000 * portOf i
    let n := w.toNat
    s.Powered i → s.reach v i (r.at k) = .served → findReg (r.at k) = some (r, k) →
    (r ∉ actingRegs → standingAddr (r.at k) = false → h.regReject r k n (h.regLocked r k) = none →
      Completes (.registerWrite v addr w ⟨late, false, same⟩) s (fun t => s.OnlyHalf t i ∧ Half.Stored h (t.half i) r k n late same.toNat
        ∧ (∀ b, (t.half i).byte b = h.byte b) ∧ (t.half i).front = h.front ∧ (t.half i).arc = h.arc ∧ (t.half i).lanes = h.lanes
        ∧ Half.RegsBut h (t.half i) ([r.at k] ++ (if late then [DEV_SHDW_CTL.at 0, pendAddr 452] else []) ++ errAddrs)))
    ∧ (∀ code, r ≠ LSE_DREC → h.regReject r k n (h.regLocked r k) = some code → Completes (.registerWrite v addr w ⟨late, false, same⟩) s (fun t =>
        (code = 0 → t = s) ∧ s.OnlyHalf t i ∧ Half.RegsOnly h (t.half i) ∧ Half.RegsBut h (t.half i) errAddrs))
    ∧ (r = LSE_DREC → (s.recordFenced v i = false → Completes (.registerWrite v addr w ⟨late, false, same⟩) s (fun t => s.OnlyHalf t i ∧ (t.half i).get LSE_DREC k = w
          ∧ Half.RegsOnly h (t.half i) ∧ Half.RegsBut h (t.half i) [LSE_DREC.at k]))
        ∧ (s.recordFenced v i = true → Completes (.registerWrite v addr w ⟨late, false, same⟩) s (fun t => s.OnlyHalf t i ∧ (t.half i).get LSE_DREC k = h.get LSE_DREC k
          ∧ Half.RegsOnly h (t.half i) ∧ Half.RegsBut h (t.half i) (pendAddr 68 :: errAddrs))))
    ∧ (h.mainUp = true →
      (r = EVC_SWSET → exec (.registerWrite v addr w ⟨late, false, same⟩) s = exec (.evcSwset i (n % 1024)) s)
      ∧ (r = EVC_PENDING → exec (.registerWrite v addr w ⟨late, false, same⟩) s = exec (.evcPendingClear i k (w &&& ~~~ same)) s)
      ∧ (r = EVC_TGT_3 → exec (.registerWrite v addr w ⟨late, false, same⟩) s = exec (.evcComplete i k (n % 1024)) s)
      ∧ (r = ERR_CTL → bit n 1 = true → exec (.registerWrite v addr w ⟨late, false, same⟩) s = exec (.errClear i) s)
      ∧ (r = ERR_CTL → bit n 1 = false → bit n 0 = true → exec (.registerWrite v addr w ⟨late, false, same⟩) s = exec (.errPop i) s)
      ∧ (r = TRW_DOORBELL → exec (.registerWrite v addr w ⟨late, false, same⟩) s = exec (.trwDoorbell i n) s)
      ∧ (r = TRW_RING_CMD → n / 2 ^ 28 = 1 → exec (.registerWrite v addr w ⟨late, false, same⟩) s = exec (.trwStop i n) s)
      ∧ (r = TRW_RING_CMD → n / 2 ^ 28 = 2 → exec (.registerWrite v addr w ⟨late, false, same⟩) s = exec (.trwStart i n) s))
    ∧ (∀ a, findReg a = none → a < 0x4000000 → exec (.registerWrite v (a + 0x4000000 * portOf i) w ⟨late, false, same⟩) s = .next s)
    ∧ (∀ a narrow, a % 4 ≠ 0 ∨ narrow = true → exec (.registerWrite v a w ⟨late, narrow, same⟩) s = .next s)

/-- R4, R7, R304, R419, R420: a read answers with the word's value, clears its RC fields but for what came in the cycle of the read, and latches the words
that go with it; a read of a claim, an error-head or a window word does what its unit does at a read; a narrower or misaligned read answers 0, one that cannot reach its
half 0xFFFFFFFF, and one through a half whose main domain is off nothing. Where it rests on a reading or a choice of the model, that is log 1 and log 48. -/
def Obligations.RegisterReads : Prop :=
  ∀ (s : State) (v i : HalfId) (r : RegDef) (k a : Nat) (inc : Word), let h := s.half i
    let answers (w : Word) (t : State) : Prop := ∀ m, (t.half m).out = (s.half m).out ++ (if m = v then [.value w] else [])
    let kept (t : State) : Prop := t = { s with north := t.north, south := t.south } ∧ ∀ m, Half.StoresKept (s.half m) (t.half m)
    s.Settled → (s.half v).isl.powered = true → h.isl.powered = true →
    (s.reach v i (r.at k) = .served → findReg (r.at k) = some (r, k) →
      let by_ (c : Instr) (n : Nat) : Prop := let x := h.regRead (s.half i.other) (s.witness i) (r.at k) n
        Completes c s (fun t => t = (s.onIsland i (fun _ => x.2)).onIsland v (fun g => g.emit (.value x.1)))
      by_ (.rcRead v ⟨(r.at k + 0x4000000 * portOf i), false, inc⟩) inc.toNat ∧ by_ (.latchingRead v ⟨(r.at k + 0x4000000 * portOf i), false⟩) 0)
    ∧ (s.reach v i (r.at k) = .served → findReg (r.at k) = some (r, k) → r ∉ [EVC_TGT_2, ERR_HEAD_0, DLY_GAIN_DATA, BMF_TDATA, BMF_SDATA] →
      SMap.find? h.latch (r.at k) = none →
      let raw (x : RegDef) : Nat := h.readRaw (s.half i.other) (s.witness i) x k
      let reads (c : Instr) (add : Nat) : Prop :=
        Completes c s (fun t => answers (BitVec.ofNat 32 ((mixBits (tickMask r) (raw r) (h.getShadow r k).toNat &&& readMask r) - add)) t ∧ kept t
          ∧ (standingAddr (r.at k) = false → (t.half i).getN r k = mixBits (rcMask r) (h.getN r k) add)
          ∧ Half.RegsBut h (t.half i) [r.at k] ∧ (i ≠ v → Half.RegsBut (s.half v) (t.half v) [])
          ∧ ∀ x ∈ latchedBy r, SMap.find? (t.half i).latch (x.at k) = some (BitVec.ofNat 32 (raw x)))
      reads (.rcRead v ⟨(r.at k + 0x4000000 * portOf i), false, inc⟩) (addedRc r (h.getN r k) inc.toNat)
        ∧ reads (.latchingRead v ⟨(r.at k + 0x4000000 * portOf i), false⟩) 0)
    ∧ (∀ narrow, a < 0x4000000 → ∀ c ∈ [Instr.rcRead v ⟨(a + 0x4000000 * portOf i), narrow, inc⟩, .latchingRead v ⟨(a + 0x4000000 * portOf i), narrow⟩],
      (s.reach v i a = .served → a % 4 ≠ 0 ∨ narrow = true → Completes c s (fun t => answers 0 t ∧ kept t))
      ∧ (s.reach v i a = .errored → Completes c s (fun t => answers 0xFFFFFFFF t ∧ kept t))
      ∧ (s.reach v i a = .none_ → exec c s = .next s))

/-- R25: a write to DEV_FRM_CFG that reaches its half while the block is stopped and carries FCODE above 4, or DEPTH above 16,384/F, is ignored as a whole:
nothing of the machine changes, so the register keeps its value. -/
def Obligations.FrameConfigRefused : Prop :=
  ∀ (s : State) (v i : HalfId) (w same : Word) (late narrow : Bool), let fcode := bits w.toNat 2 0; let depth := bits w.toNat 18 4
    s.reach v i (DEV_FRM_CFG.at 0) = .served → (s.half i).subRuns = false → 4 < fcode ∨ 16384 / (1024 * 2 ^ fcode) < depth →
    exec (.registerWrite v (DEV_FRM_CFG.at 0 + 0x4000000 * portOf i) w ⟨late, narrow, same⟩) s = .next s

/-- R415: an address from 0x0160_0000 to 0x03FF_FFFF of a window belongs to no block. An access that reaches its half there reads 0x0000_0000 and ignores
writes, and logs nothing: of the registers, stores and error records none changes. -/
def Obligations.UnmappedWindow : Prop :=
  ∀ (s : State) (v i : HalfId) (a : Nat), 0x1600000 ≤ a → a < 0x4000000 →
    findReg a = none ∧ (s.Settled → (s.half v).isl.powered = true → s.reach v i a = .served →
      (∀ (w same : Word) (late narrow : Bool), exec (.registerWrite v (a + 0x4000000 * portOf i) w ⟨late, narrow, same⟩) s = .next s)
      ∧ ∀ (inc : Word) (narrow : Bool), ∀ c ∈ [Instr.rcRead v ⟨(a + 0x4000000 * portOf i), narrow, inc⟩, .latchingRead v ⟨(a + 0x4000000 * portOf i), narrow⟩], Completes c s (fun t =>
          t = { s with north := t.north, south := t.south } ∧ ∀ m, (t.half m).out = (s.half m).out ++ (if m = v then [.value 0] else [])
            ∧ Half.RegsOnly (s.half m) (t.half m) ∧ Half.RegsBut (s.half m) (t.half m) [] ∧ (t.half m).errq = (s.half m).errq))

/-! ### The command channel as a whole (21_exylo_commands.md) -/

/-- R339, R397, R401, R402, R405: at every row a frame that fails one of checks 1 to 5 gets the status of the first that it fails, one of no session with a SEQ gets AUTH_FAIL
where a key is set, any is BUSY while a new primary takes up the device record, a repetition gets the kept reply again, and one out of order gets none; none of them executes anything. An unknown opcode gets BAD_OPCODE, an OP that
RING_CMD does not have BAD_LENGTH; a row takes no other row's frame. R411: an event message hands up to 32
events of a slot to its subscriber's transport, in the half of that transport; what cannot be forwarded is dropped and counted. Where it rests on a reading
or a choice of the model, that is log 44 and log 45. -/
def Obligations.FrameChecksAndEvents : Prop :=
  (∀ (s : State) (i j : HalfId) (rx : Rx) (bs : List Byte), let h := s.half i
    let refused (c : Instr) (st : Nat) : Prop := Completes c s (fun t => s.Sent t i rx (h.reply bs st (only i st).1 (only i st).2 []) ∧ s.OpFrame t i i []
      ∧ Half.SessionsOnly h (t.half i) ∧ (t.half i).exy.sessions = h.exy.sessions)
    s.Settled → h.running = true → h.waitingFrame rx = some bs → (isUdp rx = true → h.laneClear mgmtLane) →
    (20 ≤ bs.length → fieldAt bs 0 2 = 0x4558 → (∀ late, ∀ x, IsFrameRow late x → let c := x.1 i rx
      x.2 bs = true →
        (crcGood bs = false → refused c stBadCrc)
        ∧ (∀ st, h.frameFault rx bs = some st → refused c st)
        ∧ (h.frameFault rx bs = none → h.seqRule (srcOf rx bs) (frSeq bs) = .noAuth → refused c stAuthFail)
        ∧ (h.frameFault rx bs = none → h.seqRule (srcOf rx bs) (frSeq bs) = .execute → s.channelBusy = true → refused c stBusy)
        ∧ (∀ reply, h.frameFault rx bs = none → h.seqRule (srcOf rx bs) (frSeq bs) = .resend reply →
            Completes c s (fun t => s.Sent t i rx reply ∧ s.OpFrame t i i [] ∧ Half.SessionsOnly h (t.half i)))
        ∧ (h.frameFault rx bs = none → h.seqRule (srcOf rx bs) (frSeq bs) = .discard → Completes c s (fun t => s.OpFrame t i i [] ∧ (t.half i).out = h.out
            ∧ (t.half i).exy = { h.exy with seqDiscards := h.exy.seqDiscards + 1 }))))
    ∧ (20 ≤ bs.length → fieldAt bs 0 2 = 0x4558 → crcGood bs = true → opKnown (frOpcode bs) = false → refused (.unknownOpcode i rx) stBadOpcode)
    ∧ (bs.length < 20 ∨ fieldAt bs 0 2 ≠ 0x4558 → ∀ late, ∀ x, IsFrameRow late x → x.2 bs = true →
        Completes (x.1 i rx) s (fun t => s.OpFrame t i i [] ∧ (t.half i).out = h.out ∧ (t.half i).exy = h.exy))
    ∧ (s.FrameRuns i rx bs → frOpcode bs = 0x0602 → frTarget bs = portOf j → s.reaches i j = true → (byteAt (frPayload bs) 4 = 0 ∨ 3 < byteAt (frPayload bs) 4) →
        Completes (.unknownOpcode i rx) s (fun t => s.Replied t i rx bs stBadLength (only j stBadLength).1 (only j stBadLength).2 [] ∧ s.OpFrame t i j []
          ∧ Half.SessionsOnly (s.half j) (t.half j)))
    ∧ (∀ late, ∀ x, IsFrameRow late x → x.2 bs = false → exec (x.1 i rx) s = .next s))
  ∧ (∀ (s : State) (i : HalfId) (slot : Nat) (q : EvtSlot), let h := s.half i
    let w := h.record (10 + 4 * slot)
    let y := subscriberHalf (bits w 7 0)
    let g := s.half y
    let frame := h.eventFrame slot q
    s.Settled → h.running = true → h.exy.evts[slot]? = some q → q.queue ≠ [] → 1 ≤ bits w 7 0 → bits w 7 0 ≤ 6 →
    ((y = i ∨ (s.board.bridgeUp = true ∧ g.running = true)) → (∀ n, g.record n = h.record n) →
      let taken (t : State) : Prop := (t.half i).exy = { h.exy with evts := h.exy.evts.set slot ⟨q.queue.drop 32, 0, q.sent + 1⟩ }
        ∧ ∀ m, Half.StoresKept (s.half m) (t.half m)
      (bits w 7 0 ≤ 2 → g.laneUp mgmtLane = true → g.laneClear mgmtLane → Completes (.eventMsg i slot) s (fun t => taken t
          ∧ (t.half y).out = g.out ++ [.datagram [] (beBytes 4 (h.record (12 + 4 * slot))) (bits w 31 16) frame]))
      ∧ (3 ≤ bits w 7 0 → bits w 7 0 ≤ 4 → g.flag DEV_MBX_CTL_EVT_VALID = false → Completes (.eventMsg i slot) s (fun t => taken t
          ∧ (t.half y).flag DEV_MBX_CTL_EVT_VALID = true ∧ ∀ n, n < (toWords frame).length → n < 2048 → (t.half y).get DEV_MBX_EVT n = (toWords frame).getD n 0))
      ∧ (3 ≤ bits w 7 0 → bits w 7 0 ≤ 4 → g.flag DEV_MBX_CTL_EVT_VALID = true → exec (.eventMsg i slot) s = .next s)
      ∧ (5 ≤ bits w 7 0 → Completes (.eventMsg i slot) s (fun t => taken t ∧ (t.half y).isl.smbReply = g.isl.smbReply ++ frame)))
    ∧ (y ≠ i → (s.board.bridgeUp = false ∨ g.running = false) → Completes (.eventMsg i slot) s (fun t => s.OnlyHalf t i
        ∧ (t.half i).exy = { h.exy with evts := h.exy.evts.set slot { q with queue := [], lost := q.lost + q.queue.length } })))

/-! ### The machine as a whole -/

/-- A step takes the command at the front of the queue and runs it with the rest (the form of this model: the spec names no queue); on an empty queue the
block idles (DESIGN CHOICE, log 3); the command table gives no row bits, so no word spells a command. -/
def Obligations.StepTakesFront : Prop :=
  (∀ (c : Instr) (q : List Instr) (s : State), step { s with pending := c :: q } = exec c { s with pending := q })
  ∧ (∀ s : State, step { s with pending := [] } = .next ({ s with pending := [] } : State).idle)
  ∧ ∀ (s : State) (nbits w : Nat), decodeTableWord nbits w = none ∧ s.withFetchWord nbits w = s

/-- R425 and the register tables: at reset every register word of both halves reads its reset value (those the spec gives; log 2 names the others), nothing
is stored, queued or pending, no island has power, and the state is safe. Where it rests on a reading or a choice of the model, that is log 2 and log 4. -/
def Obligations.ResetState : Prop :=
  State.reset.Safe ∧ State.reset.pending = []
  ∧ (∀ (i : HalfId) (r : RegDef) (n : Nat), (State.reset.half i).getN r n = regReset i r n % 2 ^ 32)
  ∧ ∀ i : HalfId, let h := State.reset.half i
      h.isl.powered = false ∧ h.mainUp = false ∧ h.hbm.mem = [] ∧ h.arc.cy = [] ∧ h.errq.recs = [] ∧ h.out = [] ∧ h.tmg.refs.length = 7 ∧ h.evc.tgts.length = 12

/-- Whatever a step does, the state stays safe: no class H error stands unanswered once its command has ended (R427, R433), each half keeps its place, and
HBM and the Courtyard keep their canonical form. Where it rests on a reading or a choice of the model, that is log 8. -/
def Obligations.SafeKept : Prop :=
  ∀ s t : State, s.Safe → step s = .next t → t.Safe

/-- Every command completes in every state, and neither reads nor changes the queue of those that wait (the form of this model). Where it rests on a reading
or a choice of the model, that is log 1 and log 7. -/
def Obligations.QueueUntouched : Prop :=
  ∀ (c : Instr) (s : State) (q : List Instr), ∃ t, exec c s = .next t ∧ t.pending = s.pending ∧ exec c { s with pending := q } = .next { t with pending := q }
end

