-- ==== Sys2Proof/Laws/State.lean ====
section
/-! SUPPORT. What each update of a half or of the machine leaves in each field, and the reads of a register word after a
write of one. -/

namespace Sys2Proof.Machine

/-! ### The machine -/

@[simp] theorem State.setHalf_north_north (s : State) (h : Half) : (s.setHalf .north h).north = h := rfl
@[simp] theorem State.setHalf_north_south (s : State) (h : Half) : (s.setHalf .north h).south = s.south := rfl
@[simp] theorem State.half_north (s : State) : s.half .north = s.north := rfl
@[simp] theorem State.setHalf_south_south (s : State) (h : Half) : (s.setHalf .south h).south = h := rfl
@[simp] theorem State.setHalf_south_north (s : State) (h : Half) : (s.setHalf .south h).north = s.north := rfl
@[simp] theorem State.half_south (s : State) : s.half .south = s.south := rfl
@[simp] theorem State.setHalf_pending (s : State) (i : HalfId) (h : Half) : (s.setHalf i h).pending = s.pending := by cases i <;> rfl
@[simp] theorem State.setHalf_freeCtr (s : State) (i : HalfId) (h : Half) : (s.setHalf i h).freeCtr = s.freeCtr := by cases i <;> rfl
@[simp] theorem State.setHalf_board (s : State) (i : HalfId) (h : Half) : (s.setHalf i h).board = s.board := by cases i <;> rfl
@[simp] theorem State.half_setHalf (s : State) (i : HalfId) (h : Half) : (s.setHalf i h).half i = h := by cases i <;> rfl
@[simp] theorem State.half_setHalf_other (s : State) (i : HalfId) (h : Half) : (s.setHalf i h).half i.other = s.half i.other := by cases i <;> rfl
@[simp] theorem State.half_setHalf_of_other (s : State) (i : HalfId) (h : Half) : (s.setHalf i.other h).half i = s.half i := by cases i <;> rfl
@[simp] theorem HalfId.other_other (i : HalfId) : i.other.other = i := by cases i <;> rfl
@[simp] theorem State.setHalf_setHalf (s : State) (i : HalfId) (h g : Half) : (s.setHalf i h).setHalf i g = s.setHalf i g := by cases i <;> rfl
@[simp] theorem State.setHalf_half (s : State) (i : HalfId) : s.setHalf i (s.half i) = s := by cases i <;> rfl
@[simp] theorem State.half_withPending (s : State) (q : List Instr) (i : HalfId) : ({ s with pending := q } : State).half i = s.half i := by cases i <;> rfl
@[simp] theorem State.half_withBoard (s : State) (b : Board) (i : HalfId) : ({ s with board := b } : State).half i = s.half i := by cases i <;> rfl
@[simp] theorem State.half_withFree (s : State) (n : Nat) (i : HalfId) : ({ s with freeCtr := n } : State).half i = s.half i := by cases i <;> rfl
@[simp] theorem State.half_free (s : State) (i : HalfId) : s.free.2.half i = s.half i := by cases i <;> rfl

/-! ### Updates of a half, field by field -/

@[simp] theorem Half.put_id (h : Half) (r : RegDef) (w : Word) (i : Nat) : (h.put r w i).id = h.id := rfl
@[simp] theorem Half.put_regs (h : Half) (r : RegDef) (w : Word) (i : Nat) : (h.put r w i).regs = SMap.insert h.regs (r.at i) w := rfl
@[simp] theorem Half.put_shadow (h : Half) (r : RegDef) (w : Word) (i : Nat) : (h.put r w i).shadow = h.shadow := rfl
@[simp] theorem Half.put_shadowLate (h : Half) (r : RegDef) (w : Word) (i : Nat) : (h.put r w i).shadowLate = h.shadowLate := rfl
@[simp] theorem Half.put_holdSample (h : Half) (r : RegDef) (w : Word) (i : Nat) : (h.put r w i).holdSample = h.holdSample := rfl
@[simp] theorem Half.put_latch (h : Half) (r : RegDef) (w : Word) (i : Nat) : (h.put r w i).latch = h.latch := rfl
@[simp] theorem Half.put_once (h : Half) (r : RegDef) (w : Word) (i : Nat) : (h.put r w i).once = h.once := rfl
@[simp] theorem Half.put_hist (h : Half) (r : RegDef) (w : Word) (i : Nat) : (h.put r w i).hist = h.hist := rfl
@[simp] theorem Half.put_hoTicks (h : Half) (r : RegDef) (w : Word) (i : Nat) : (h.put r w i).hoTicks = h.hoTicks := rfl
@[simp] theorem Half.put_errq (h : Half) (r : RegDef) (w : Word) (i : Nat) : (h.put r w i).errq = h.errq := rfl
@[simp] theorem Half.put_evc (h : Half) (r : RegDef) (w : Word) (i : Nat) : (h.put r w i).evc = h.evc := rfl
@[simp] theorem Half.put_isl (h : Half) (r : RegDef) (w : Word) (i : Nat) : (h.put r w i).isl = h.isl := rfl
@[simp] theorem Half.put_exy (h : Half) (r : RegDef) (w : Word) (i : Nat) : (h.put r w i).exy = h.exy := rfl
@[simp] theorem Half.put_tmg (h : Half) (r : RegDef) (w : Word) (i : Nat) : (h.put r w i).tmg = h.tmg := rfl
@[simp] theorem Half.put_front (h : Half) (r : RegDef) (w : Word) (i : Nat) : (h.put r w i).front = h.front := rfl
@[simp] theorem Half.put_lta (h : Half) (r : RegDef) (w : Word) (i : Nat) : (h.put r w i).lta = h.lta := rfl
@[simp] theorem Half.put_hbm (h : Half) (r : RegDef) (w : Word) (i : Nat) : (h.put r w i).hbm = h.hbm := rfl
@[simp] theorem Half.put_rdb (h : Half) (r : RegDef) (w : Word) (i : Nat) : (h.put r w i).rdb = h.rdb := rfl
@[simp] theorem Half.put_trw (h : Half) (r : RegDef) (w : Word) (i : Nat) : (h.put r w i).trw = h.trw := rfl
@[simp] theorem Half.put_caps (h : Half) (r : RegDef) (w : Word) (i : Nat) : (h.put r w i).caps = h.caps := rfl
@[simp] theorem Half.put_lanes (h : Half) (r : RegDef) (w : Word) (i : Nat) : (h.put r w i).lanes = h.lanes := rfl
@[simp] theorem Half.put_xch (h : Half) (r : RegDef) (w : Word) (i : Nat) : (h.put r w i).xch = h.xch := rfl
@[simp] theorem Half.put_arc (h : Half) (r : RegDef) (w : Word) (i : Nat) : (h.put r w i).arc = h.arc := rfl
@[simp] theorem Half.put_bmf (h : Half) (r : RegDef) (w : Word) (i : Nat) : (h.put r w i).bmf = h.bmf := rfl
@[simp] theorem Half.put_stage (h : Half) (r : RegDef) (w : Word) (i : Nat) : (h.put r w i).stage = h.stage := rfl
@[simp] theorem Half.put_fatal (h : Half) (r : RegDef) (w : Word) (i : Nat) : (h.put r w i).fatal = h.fatal := rfl
@[simp] theorem Half.put_out (h : Half) (r : RegDef) (w : Word) (i : Nat) : (h.put r w i).out = h.out := rfl

@[simp] theorem Half.putN_id (h : Half) (r : RegDef) (n : Nat) (i : Nat) : (h.putN r n i).id = h.id := rfl
@[simp] theorem Half.putN_shadow (h : Half) (r : RegDef) (n : Nat) (i : Nat) : (h.putN r n i).shadow = h.shadow := rfl
@[simp] theorem Half.putN_shadowLate (h : Half) (r : RegDef) (n : Nat) (i : Nat) : (h.putN r n i).shadowLate = h.shadowLate := rfl
@[simp] theorem Half.putN_holdSample (h : Half) (r : RegDef) (n : Nat) (i : Nat) : (h.putN r n i).holdSample = h.holdSample := rfl
@[simp] theorem Half.putN_latch (h : Half) (r : RegDef) (n : Nat) (i : Nat) : (h.putN r n i).latch = h.latch := rfl
@[simp] theorem Half.putN_once (h : Half) (r : RegDef) (n : Nat) (i : Nat) : (h.putN r n i).once = h.once := rfl
@[simp] theorem Half.putN_hist (h : Half) (r : RegDef) (n : Nat) (i : Nat) : (h.putN r n i).hist = h.hist := rfl
@[simp] theorem Half.putN_hoTicks (h : Half) (r : RegDef) (n : Nat) (i : Nat) : (h.putN r n i).hoTicks = h.hoTicks := rfl
@[simp] theorem Half.putN_errq (h : Half) (r : RegDef) (n : Nat) (i : Nat) : (h.putN r n i).errq = h.errq := rfl
@[simp] theorem Half.putN_evc (h : Half) (r : RegDef) (n : Nat) (i : Nat) : (h.putN r n i).evc = h.evc := rfl
@[simp] theorem Half.putN_isl (h : Half) (r : RegDef) (n : Nat) (i : Nat) : (h.putN r n i).isl = h.isl := rfl
@[simp] theorem Half.putN_exy (h : Half) (r : RegDef) (n : Nat) (i : Nat) : (h.putN r n i).exy = h.exy := rfl
@[simp] theorem Half.putN_tmg (h : Half) (r : RegDef) (n : Nat) (i : Nat) : (h.putN r n i).tmg = h.tmg := rfl
@[simp] theorem Half.putN_front (h : Half) (r : RegDef) (n : Nat) (i : Nat) : (h.putN r n i).front = h.front := rfl
@[simp] theorem Half.putN_lta (h : Half) (r : RegDef) (n : Nat) (i : Nat) : (h.putN r n i).lta = h.lta := rfl
@[simp] theorem Half.putN_hbm (h : Half) (r : RegDef) (n : Nat) (i : Nat) : (h.putN r n i).hbm = h.hbm := rfl
@[simp] theorem Half.putN_rdb (h : Half) (r : RegDef) (n : Nat) (i : Nat) : (h.putN r n i).rdb = h.rdb := rfl
@[simp] theorem Half.putN_trw (h : Half) (r : RegDef) (n : Nat) (i : Nat) : (h.putN r n i).trw = h.trw := rfl
@[simp] theorem Half.putN_caps (h : Half) (r : RegDef) (n : Nat) (i : Nat) : (h.putN r n i).caps = h.caps := rfl
@[simp] theorem Half.putN_lanes (h : Half) (r : RegDef) (n : Nat) (i : Nat) : (h.putN r n i).lanes = h.lanes := rfl
@[simp] theorem Half.putN_xch (h : Half) (r : RegDef) (n : Nat) (i : Nat) : (h.putN r n i).xch = h.xch := rfl
@[simp] theorem Half.putN_arc (h : Half) (r : RegDef) (n : Nat) (i : Nat) : (h.putN r n i).arc = h.arc := rfl
@[simp] theorem Half.putN_bmf (h : Half) (r : RegDef) (n : Nat) (i : Nat) : (h.putN r n i).bmf = h.bmf := rfl
@[simp] theorem Half.putN_stage (h : Half) (r : RegDef) (n : Nat) (i : Nat) : (h.putN r n i).stage = h.stage := rfl
@[simp] theorem Half.putN_fatal (h : Half) (r : RegDef) (n : Nat) (i : Nat) : (h.putN r n i).fatal = h.fatal := rfl
@[simp] theorem Half.putN_out (h : Half) (r : RegDef) (n : Nat) (i : Nat) : (h.putN r n i).out = h.out := rfl

@[simp] theorem Half.fset_id (h : Half) (f : Fld) (v : Nat) (i : Nat) : (h.fset f v i).id = h.id := rfl
@[simp] theorem Half.fset_shadow (h : Half) (f : Fld) (v : Nat) (i : Nat) : (h.fset f v i).shadow = h.shadow := rfl
@[simp] theorem Half.fset_shadowLate (h : Half) (f : Fld) (v : Nat) (i : Nat) : (h.fset f v i).shadowLate = h.shadowLate := rfl
@[simp] theorem Half.fset_holdSample (h : Half) (f : Fld) (v : Nat) (i : Nat) : (h.fset f v i).holdSample = h.holdSample := rfl
@[simp] theorem Half.fset_latch (h : Half) (f : Fld) (v : Nat) (i : Nat) : (h.fset f v i).latch = h.latch := rfl
@[simp] theorem Half.fset_once (h : Half) (f : Fld) (v : Nat) (i : Nat) : (h.fset f v i).once = h.once := rfl
@[simp] theorem Half.fset_hist (h : Half) (f : Fld) (v : Nat) (i : Nat) : (h.fset f v i).hist = h.hist := rfl
@[simp] theorem Half.fset_hoTicks (h : Half) (f : Fld) (v : Nat) (i : Nat) : (h.fset f v i).hoTicks = h.hoTicks := rfl
@[simp] theorem Half.fset_errq (h : Half) (f : Fld) (v : Nat) (i : Nat) : (h.fset f v i).errq = h.errq := rfl
@[simp] theorem Half.fset_evc (h : Half) (f : Fld) (v : Nat) (i : Nat) : (h.fset f v i).evc = h.evc := rfl
@[simp] theorem Half.fset_isl (h : Half) (f : Fld) (v : Nat) (i : Nat) : (h.fset f v i).isl = h.isl := rfl
@[simp] theorem Half.fset_exy (h : Half) (f : Fld) (v : Nat) (i : Nat) : (h.fset f v i).exy = h.exy := rfl
@[simp] theorem Half.fset_tmg (h : Half) (f : Fld) (v : Nat) (i : Nat) : (h.fset f v i).tmg = h.tmg := rfl
@[simp] theorem Half.fset_front (h : Half) (f : Fld) (v : Nat) (i : Nat) : (h.fset f v i).front = h.front := rfl
@[simp] theorem Half.fset_lta (h : Half) (f : Fld) (v : Nat) (i : Nat) : (h.fset f v i).lta = h.lta := rfl
@[simp] theorem Half.fset_hbm (h : Half) (f : Fld) (v : Nat) (i : Nat) : (h.fset f v i).hbm = h.hbm := rfl
@[simp] theorem Half.fset_rdb (h : Half) (f : Fld) (v : Nat) (i : Nat) : (h.fset f v i).rdb = h.rdb := rfl
@[simp] theorem Half.fset_trw (h : Half) (f : Fld) (v : Nat) (i : Nat) : (h.fset f v i).trw = h.trw := rfl
@[simp] theorem Half.fset_caps (h : Half) (f : Fld) (v : Nat) (i : Nat) : (h.fset f v i).caps = h.caps := rfl
@[simp] theorem Half.fset_lanes (h : Half) (f : Fld) (v : Nat) (i : Nat) : (h.fset f v i).lanes = h.lanes := rfl
@[simp] theorem Half.fset_xch (h : Half) (f : Fld) (v : Nat) (i : Nat) : (h.fset f v i).xch = h.xch := rfl
@[simp] theorem Half.fset_arc (h : Half) (f : Fld) (v : Nat) (i : Nat) : (h.fset f v i).arc = h.arc := rfl
@[simp] theorem Half.fset_bmf (h : Half) (f : Fld) (v : Nat) (i : Nat) : (h.fset f v i).bmf = h.bmf := rfl
@[simp] theorem Half.fset_stage (h : Half) (f : Fld) (v : Nat) (i : Nat) : (h.fset f v i).stage = h.stage := rfl
@[simp] theorem Half.fset_fatal (h : Half) (f : Fld) (v : Nat) (i : Nat) : (h.fset f v i).fatal = h.fatal := rfl
@[simp] theorem Half.fset_out (h : Half) (f : Fld) (v : Nat) (i : Nat) : (h.fset f v i).out = h.out := rfl

@[simp] theorem Half.bump_id (h : Half) (f : Fld) (n : Nat) (i : Nat) : (h.bump f n i).id = h.id := rfl
@[simp] theorem Half.bump_shadow (h : Half) (f : Fld) (n : Nat) (i : Nat) : (h.bump f n i).shadow = h.shadow := rfl
@[simp] theorem Half.bump_shadowLate (h : Half) (f : Fld) (n : Nat) (i : Nat) : (h.bump f n i).shadowLate = h.shadowLate := rfl
@[simp] theorem Half.bump_holdSample (h : Half) (f : Fld) (n : Nat) (i : Nat) : (h.bump f n i).holdSample = h.holdSample := rfl
@[simp] theorem Half.bump_latch (h : Half) (f : Fld) (n : Nat) (i : Nat) : (h.bump f n i).latch = h.latch := rfl
@[simp] theorem Half.bump_once (h : Half) (f : Fld) (n : Nat) (i : Nat) : (h.bump f n i).once = h.once := rfl
@[simp] theorem Half.bump_hist (h : Half) (f : Fld) (n : Nat) (i : Nat) : (h.bump f n i).hist = h.hist := rfl
@[simp] theorem Half.bump_hoTicks (h : Half) (f : Fld) (n : Nat) (i : Nat) : (h.bump f n i).hoTicks = h.hoTicks := rfl
@[simp] theorem Half.bump_errq (h : Half) (f : Fld) (n : Nat) (i : Nat) : (h.bump f n i).errq = h.errq := rfl
@[simp] theorem Half.bump_evc (h : Half) (f : Fld) (n : Nat) (i : Nat) : (h.bump f n i).evc = h.evc := rfl
@[simp] theorem Half.bump_isl (h : Half) (f : Fld) (n : Nat) (i : Nat) : (h.bump f n i).isl = h.isl := rfl
@[simp] theorem Half.bump_exy (h : Half) (f : Fld) (n : Nat) (i : Nat) : (h.bump f n i).exy = h.exy := rfl
@[simp] theorem Half.bump_tmg (h : Half) (f : Fld) (n : Nat) (i : Nat) : (h.bump f n i).tmg = h.tmg := rfl
@[simp] theorem Half.bump_front (h : Half) (f : Fld) (n : Nat) (i : Nat) : (h.bump f n i).front = h.front := rfl
@[simp] theorem Half.bump_lta (h : Half) (f : Fld) (n : Nat) (i : Nat) : (h.bump f n i).lta = h.lta := rfl
@[simp] theorem Half.bump_hbm (h : Half) (f : Fld) (n : Nat) (i : Nat) : (h.bump f n i).hbm = h.hbm := rfl
@[simp] theorem Half.bump_rdb (h : Half) (f : Fld) (n : Nat) (i : Nat) : (h.bump f n i).rdb = h.rdb := rfl
@[simp] theorem Half.bump_trw (h : Half) (f : Fld) (n : Nat) (i : Nat) : (h.bump f n i).trw = h.trw := rfl
@[simp] theorem Half.bump_caps (h : Half) (f : Fld) (n : Nat) (i : Nat) : (h.bump f n i).caps = h.caps := rfl
@[simp] theorem Half.bump_lanes (h : Half) (f : Fld) (n : Nat) (i : Nat) : (h.bump f n i).lanes = h.lanes := rfl
@[simp] theorem Half.bump_xch (h : Half) (f : Fld) (n : Nat) (i : Nat) : (h.bump f n i).xch = h.xch := rfl
@[simp] theorem Half.bump_arc (h : Half) (f : Fld) (n : Nat) (i : Nat) : (h.bump f n i).arc = h.arc := rfl
@[simp] theorem Half.bump_bmf (h : Half) (f : Fld) (n : Nat) (i : Nat) : (h.bump f n i).bmf = h.bmf := rfl
@[simp] theorem Half.bump_stage (h : Half) (f : Fld) (n : Nat) (i : Nat) : (h.bump f n i).stage = h.stage := rfl
@[simp] theorem Half.bump_fatal (h : Half) (f : Fld) (n : Nat) (i : Nat) : (h.bump f n i).fatal = h.fatal := rfl
@[simp] theorem Half.bump_out (h : Half) (f : Fld) (n : Nat) (i : Nat) : (h.bump f n i).out = h.out := rfl

@[simp] theorem Half.bumpWord_id (h : Half) (r : RegDef) (n : Nat) (i : Nat) : (h.bumpWord r n i).id = h.id := rfl
@[simp] theorem Half.bumpWord_shadow (h : Half) (r : RegDef) (n : Nat) (i : Nat) : (h.bumpWord r n i).shadow = h.shadow := rfl
@[simp] theorem Half.bumpWord_shadowLate (h : Half) (r : RegDef) (n : Nat) (i : Nat) : (h.bumpWord r n i).shadowLate = h.shadowLate := rfl
@[simp] theorem Half.bumpWord_holdSample (h : Half) (r : RegDef) (n : Nat) (i : Nat) : (h.bumpWord r n i).holdSample = h.holdSample := rfl
@[simp] theorem Half.bumpWord_latch (h : Half) (r : RegDef) (n : Nat) (i : Nat) : (h.bumpWord r n i).latch = h.latch := rfl
@[simp] theorem Half.bumpWord_once (h : Half) (r : RegDef) (n : Nat) (i : Nat) : (h.bumpWord r n i).once = h.once := rfl
@[simp] theorem Half.bumpWord_hist (h : Half) (r : RegDef) (n : Nat) (i : Nat) : (h.bumpWord r n i).hist = h.hist := rfl
@[simp] theorem Half.bumpWord_hoTicks (h : Half) (r : RegDef) (n : Nat) (i : Nat) : (h.bumpWord r n i).hoTicks = h.hoTicks := rfl
@[simp] theorem Half.bumpWord_errq (h : Half) (r : RegDef) (n : Nat) (i : Nat) : (h.bumpWord r n i).errq = h.errq := rfl
@[simp] theorem Half.bumpWord_evc (h : Half) (r : RegDef) (n : Nat) (i : Nat) : (h.bumpWord r n i).evc = h.evc := rfl
@[simp] theorem Half.bumpWord_isl (h : Half) (r : RegDef) (n : Nat) (i : Nat) : (h.bumpWord r n i).isl = h.isl := rfl
@[simp] theorem Half.bumpWord_exy (h : Half) (r : RegDef) (n : Nat) (i : Nat) : (h.bumpWord r n i).exy = h.exy := rfl
@[simp] theorem Half.bumpWord_tmg (h : Half) (r : RegDef) (n : Nat) (i : Nat) : (h.bumpWord r n i).tmg = h.tmg := rfl
@[simp] theorem Half.bumpWord_front (h : Half) (r : RegDef) (n : Nat) (i : Nat) : (h.bumpWord r n i).front = h.front := rfl
@[simp] theorem Half.bumpWord_lta (h : Half) (r : RegDef) (n : Nat) (i : Nat) : (h.bumpWord r n i).lta = h.lta := rfl
@[simp] theorem Half.bumpWord_hbm (h : Half) (r : RegDef) (n : Nat) (i : Nat) : (h.bumpWord r n i).hbm = h.hbm := rfl
@[simp] theorem Half.bumpWord_rdb (h : Half) (r : RegDef) (n : Nat) (i : Nat) : (h.bumpWord r n i).rdb = h.rdb := rfl
@[simp] theorem Half.bumpWord_trw (h : Half) (r : RegDef) (n : Nat) (i : Nat) : (h.bumpWord r n i).trw = h.trw := rfl
@[simp] theorem Half.bumpWord_caps (h : Half) (r : RegDef) (n : Nat) (i : Nat) : (h.bumpWord r n i).caps = h.caps := rfl
@[simp] theorem Half.bumpWord_lanes (h : Half) (r : RegDef) (n : Nat) (i : Nat) : (h.bumpWord r n i).lanes = h.lanes := rfl
@[simp] theorem Half.bumpWord_xch (h : Half) (r : RegDef) (n : Nat) (i : Nat) : (h.bumpWord r n i).xch = h.xch := rfl
@[simp] theorem Half.bumpWord_arc (h : Half) (r : RegDef) (n : Nat) (i : Nat) : (h.bumpWord r n i).arc = h.arc := rfl
@[simp] theorem Half.bumpWord_bmf (h : Half) (r : RegDef) (n : Nat) (i : Nat) : (h.bumpWord r n i).bmf = h.bmf := rfl
@[simp] theorem Half.bumpWord_stage (h : Half) (r : RegDef) (n : Nat) (i : Nat) : (h.bumpWord r n i).stage = h.stage := rfl
@[simp] theorem Half.bumpWord_fatal (h : Half) (r : RegDef) (n : Nat) (i : Nat) : (h.bumpWord r n i).fatal = h.fatal := rfl
@[simp] theorem Half.bumpWord_out (h : Half) (r : RegDef) (n : Nat) (i : Nat) : (h.bumpWord r n i).out = h.out := rfl

@[simp] theorem Half.setSrcBit_id (h : Half) (r : RegDef) (n : Nat) (b : Bool) : (h.setSrcBit r n b).id = h.id := rfl
@[simp] theorem Half.setSrcBit_shadow (h : Half) (r : RegDef) (n : Nat) (b : Bool) : (h.setSrcBit r n b).shadow = h.shadow := rfl
@[simp] theorem Half.setSrcBit_shadowLate (h : Half) (r : RegDef) (n : Nat) (b : Bool) : (h.setSrcBit r n b).shadowLate = h.shadowLate := rfl
@[simp] theorem Half.setSrcBit_holdSample (h : Half) (r : RegDef) (n : Nat) (b : Bool) : (h.setSrcBit r n b).holdSample = h.holdSample := rfl
@[simp] theorem Half.setSrcBit_latch (h : Half) (r : RegDef) (n : Nat) (b : Bool) : (h.setSrcBit r n b).latch = h.latch := rfl
@[simp] theorem Half.setSrcBit_once (h : Half) (r : RegDef) (n : Nat) (b : Bool) : (h.setSrcBit r n b).once = h.once := rfl
@[simp] theorem Half.setSrcBit_hist (h : Half) (r : RegDef) (n : Nat) (b : Bool) : (h.setSrcBit r n b).hist = h.hist := rfl
@[simp] theorem Half.setSrcBit_hoTicks (h : Half) (r : RegDef) (n : Nat) (b : Bool) : (h.setSrcBit r n b).hoTicks = h.hoTicks := rfl
@[simp] theorem Half.setSrcBit_errq (h : Half) (r : RegDef) (n : Nat) (b : Bool) : (h.setSrcBit r n b).errq = h.errq := rfl
@[simp] theorem Half.setSrcBit_evc (h : Half) (r : RegDef) (n : Nat) (b : Bool) : (h.setSrcBit r n b).evc = h.evc := rfl
@[simp] theorem Half.setSrcBit_isl (h : Half) (r : RegDef) (n : Nat) (b : Bool) : (h.setSrcBit r n b).isl = h.isl := rfl
@[simp] theorem Half.setSrcBit_exy (h : Half) (r : RegDef) (n : Nat) (b : Bool) : (h.setSrcBit r n b).exy = h.exy := rfl
@[simp] theorem Half.setSrcBit_tmg (h : Half) (r : RegDef) (n : Nat) (b : Bool) : (h.setSrcBit r n b).tmg = h.tmg := rfl
@[simp] theorem Half.setSrcBit_front (h : Half) (r : RegDef) (n : Nat) (b : Bool) : (h.setSrcBit r n b).front = h.front := rfl
@[simp] theorem Half.setSrcBit_lta (h : Half) (r : RegDef) (n : Nat) (b : Bool) : (h.setSrcBit r n b).lta = h.lta := rfl
@[simp] theorem Half.setSrcBit_hbm (h : Half) (r : RegDef) (n : Nat) (b : Bool) : (h.setSrcBit r n b).hbm = h.hbm := rfl
@[simp] theorem Half.setSrcBit_rdb (h : Half) (r : RegDef) (n : Nat) (b : Bool) : (h.setSrcBit r n b).rdb = h.rdb := rfl
@[simp] theorem Half.setSrcBit_trw (h : Half) (r : RegDef) (n : Nat) (b : Bool) : (h.setSrcBit r n b).trw = h.trw := rfl
@[simp] theorem Half.setSrcBit_caps (h : Half) (r : RegDef) (n : Nat) (b : Bool) : (h.setSrcBit r n b).caps = h.caps := rfl
@[simp] theorem Half.setSrcBit_lanes (h : Half) (r : RegDef) (n : Nat) (b : Bool) : (h.setSrcBit r n b).lanes = h.lanes := rfl
@[simp] theorem Half.setSrcBit_xch (h : Half) (r : RegDef) (n : Nat) (b : Bool) : (h.setSrcBit r n b).xch = h.xch := rfl
@[simp] theorem Half.setSrcBit_arc (h : Half) (r : RegDef) (n : Nat) (b : Bool) : (h.setSrcBit r n b).arc = h.arc := rfl
@[simp] theorem Half.setSrcBit_bmf (h : Half) (r : RegDef) (n : Nat) (b : Bool) : (h.setSrcBit r n b).bmf = h.bmf := rfl
@[simp] theorem Half.setSrcBit_stage (h : Half) (r : RegDef) (n : Nat) (b : Bool) : (h.setSrcBit r n b).stage = h.stage := rfl
@[simp] theorem Half.setSrcBit_fatal (h : Half) (r : RegDef) (n : Nat) (b : Bool) : (h.setSrcBit r n b).fatal = h.fatal := rfl
@[simp] theorem Half.setSrcBit_out (h : Half) (r : RegDef) (n : Nat) (b : Bool) : (h.setSrcBit r n b).out = h.out := rfl

@[simp] theorem Half.setTgt_id (h : Half) (t : Nat) (f : Tgt → Tgt) : (h.setTgt t f).id = h.id := rfl
@[simp] theorem Half.setTgt_regs (h : Half) (t : Nat) (f : Tgt → Tgt) : (h.setTgt t f).regs = h.regs := rfl
@[simp] theorem Half.setTgt_shadow (h : Half) (t : Nat) (f : Tgt → Tgt) : (h.setTgt t f).shadow = h.shadow := rfl
@[simp] theorem Half.setTgt_shadowLate (h : Half) (t : Nat) (f : Tgt → Tgt) : (h.setTgt t f).shadowLate = h.shadowLate := rfl
@[simp] theorem Half.setTgt_holdSample (h : Half) (t : Nat) (f : Tgt → Tgt) : (h.setTgt t f).holdSample = h.holdSample := rfl
@[simp] theorem Half.setTgt_latch (h : Half) (t : Nat) (f : Tgt → Tgt) : (h.setTgt t f).latch = h.latch := rfl
@[simp] theorem Half.setTgt_once (h : Half) (t : Nat) (f : Tgt → Tgt) : (h.setTgt t f).once = h.once := rfl
@[simp] theorem Half.setTgt_hist (h : Half) (t : Nat) (f : Tgt → Tgt) : (h.setTgt t f).hist = h.hist := rfl
@[simp] theorem Half.setTgt_hoTicks (h : Half) (t : Nat) (f : Tgt → Tgt) : (h.setTgt t f).hoTicks = h.hoTicks := rfl
@[simp] theorem Half.setTgt_errq (h : Half) (t : Nat) (f : Tgt → Tgt) : (h.setTgt t f).errq = h.errq := rfl
@[simp] theorem Half.setTgt_isl (h : Half) (t : Nat) (f : Tgt → Tgt) : (h.setTgt t f).isl = h.isl := rfl
@[simp] theorem Half.setTgt_exy (h : Half) (t : Nat) (f : Tgt → Tgt) : (h.setTgt t f).exy = h.exy := rfl
@[simp] theorem Half.setTgt_tmg (h : Half) (t : Nat) (f : Tgt → Tgt) : (h.setTgt t f).tmg = h.tmg := rfl
@[simp] theorem Half.setTgt_front (h : Half) (t : Nat) (f : Tgt → Tgt) : (h.setTgt t f).front = h.front := rfl
@[simp] theorem Half.setTgt_lta (h : Half) (t : Nat) (f : Tgt → Tgt) : (h.setTgt t f).lta = h.lta := rfl
@[simp] theorem Half.setTgt_hbm (h : Half) (t : Nat) (f : Tgt → Tgt) : (h.setTgt t f).hbm = h.hbm := rfl
@[simp] theorem Half.setTgt_rdb (h : Half) (t : Nat) (f : Tgt → Tgt) : (h.setTgt t f).rdb = h.rdb := rfl
@[simp] theorem Half.setTgt_trw (h : Half) (t : Nat) (f : Tgt → Tgt) : (h.setTgt t f).trw = h.trw := rfl
@[simp] theorem Half.setTgt_caps (h : Half) (t : Nat) (f : Tgt → Tgt) : (h.setTgt t f).caps = h.caps := rfl
@[simp] theorem Half.setTgt_lanes (h : Half) (t : Nat) (f : Tgt → Tgt) : (h.setTgt t f).lanes = h.lanes := rfl
@[simp] theorem Half.setTgt_xch (h : Half) (t : Nat) (f : Tgt → Tgt) : (h.setTgt t f).xch = h.xch := rfl
@[simp] theorem Half.setTgt_arc (h : Half) (t : Nat) (f : Tgt → Tgt) : (h.setTgt t f).arc = h.arc := rfl
@[simp] theorem Half.setTgt_bmf (h : Half) (t : Nat) (f : Tgt → Tgt) : (h.setTgt t f).bmf = h.bmf := rfl
@[simp] theorem Half.setTgt_stage (h : Half) (t : Nat) (f : Tgt → Tgt) : (h.setTgt t f).stage = h.stage := rfl
@[simp] theorem Half.setTgt_fatal (h : Half) (t : Nat) (f : Tgt → Tgt) : (h.setTgt t f).fatal = h.fatal := rfl
@[simp] theorem Half.setTgt_out (h : Half) (t : Nat) (f : Tgt → Tgt) : (h.setTgt t f).out = h.out := rfl
@[simp] theorem Half.setTgt_get (h : Half) (t : Nat) (f : Tgt → Tgt) (w : RegDef) (j : Nat) : (h.setTgt t f).get w j = h.get w j := rfl
@[simp] theorem Half.setTgt_getN (h : Half) (t : Nat) (f : Tgt → Tgt) (w : RegDef) (j : Nat) : (h.setTgt t f).getN w j = h.getN w j := rfl
@[simp] theorem Half.setTgt_fget (h : Half) (t : Nat) (f : Tgt → Tgt) (w : Fld) (j : Nat) : (h.setTgt t f).fget w j = h.fget w j := rfl
@[simp] theorem Half.setTgt_flag (h : Half) (t : Nat) (f : Tgt → Tgt) (w : Fld) (j : Nat) : (h.setTgt t f).flag w j = h.flag w j := rfl
@[simp] theorem Half.setTgt_mainUp (h : Half) (t : Nat) (f : Tgt → Tgt) : (h.setTgt t f).mainUp = h.mainUp := rfl
@[simp] theorem Half.setTgt_own (h : Half) (t : Nat) (f : Tgt → Tgt) : (h.setTgt t f).own = h.own := rfl
@[simp] theorem Half.setTgt_frame (h : Half) (t : Nat) (f : Tgt → Tgt) : (h.setTgt t f).frame = h.frame := rfl
@[simp] theorem Half.setTgt_inHold (h : Half) (t : Nat) (f : Tgt → Tgt) : (h.setTgt t f).inHold = h.inHold := rfl
@[simp] theorem Half.setTgt_running (h : Half) (t : Nat) (f : Tgt → Tgt) : (h.setTgt t f).running = h.running := rfl

@[simp] theorem Half.emit_id (h : Half) (e : Emission) : (h.emit e).id = h.id := rfl
@[simp] theorem Half.emit_regs (h : Half) (e : Emission) : (h.emit e).regs = h.regs := rfl
@[simp] theorem Half.emit_shadow (h : Half) (e : Emission) : (h.emit e).shadow = h.shadow := rfl
@[simp] theorem Half.emit_shadowLate (h : Half) (e : Emission) : (h.emit e).shadowLate = h.shadowLate := rfl
@[simp] theorem Half.emit_holdSample (h : Half) (e : Emission) : (h.emit e).holdSample = h.holdSample := rfl
@[simp] theorem Half.emit_latch (h : Half) (e : Emission) : (h.emit e).latch = h.latch := rfl
@[simp] theorem Half.emit_once (h : Half) (e : Emission) : (h.emit e).once = h.once := rfl
@[simp] theorem Half.emit_hist (h : Half) (e : Emission) : (h.emit e).hist = h.hist := rfl
@[simp] theorem Half.emit_hoTicks (h : Half) (e : Emission) : (h.emit e).hoTicks = h.hoTicks := rfl
@[simp] theorem Half.emit_errq (h : Half) (e : Emission) : (h.emit e).errq = h.errq := rfl
@[simp] theorem Half.emit_evc (h : Half) (e : Emission) : (h.emit e).evc = h.evc := rfl
@[simp] theorem Half.emit_isl (h : Half) (e : Emission) : (h.emit e).isl = h.isl := rfl
@[simp] theorem Half.emit_exy (h : Half) (e : Emission) : (h.emit e).exy = h.exy := rfl
@[simp] theorem Half.emit_tmg (h : Half) (e : Emission) : (h.emit e).tmg = h.tmg := rfl
@[simp] theorem Half.emit_front (h : Half) (e : Emission) : (h.emit e).front = h.front := rfl
@[simp] theorem Half.emit_lta (h : Half) (e : Emission) : (h.emit e).lta = h.lta := rfl
@[simp] theorem Half.emit_hbm (h : Half) (e : Emission) : (h.emit e).hbm = h.hbm := rfl
@[simp] theorem Half.emit_rdb (h : Half) (e : Emission) : (h.emit e).rdb = h.rdb := rfl
@[simp] theorem Half.emit_trw (h : Half) (e : Emission) : (h.emit e).trw = h.trw := rfl
@[simp] theorem Half.emit_caps (h : Half) (e : Emission) : (h.emit e).caps = h.caps := rfl
@[simp] theorem Half.emit_lanes (h : Half) (e : Emission) : (h.emit e).lanes = h.lanes := rfl
@[simp] theorem Half.emit_xch (h : Half) (e : Emission) : (h.emit e).xch = h.xch := rfl
@[simp] theorem Half.emit_arc (h : Half) (e : Emission) : (h.emit e).arc = h.arc := rfl
@[simp] theorem Half.emit_bmf (h : Half) (e : Emission) : (h.emit e).bmf = h.bmf := rfl
@[simp] theorem Half.emit_stage (h : Half) (e : Emission) : (h.emit e).stage = h.stage := rfl
@[simp] theorem Half.emit_fatal (h : Half) (e : Emission) : (h.emit e).fatal = h.fatal := rfl
@[simp] theorem Half.emit_out (h : Half) (e : Emission) : (h.emit e).out = h.out ++ [e] := rfl
@[simp] theorem Half.emit_get (h : Half) (e : Emission) (w : RegDef) (j : Nat) : (h.emit e).get w j = h.get w j := rfl
@[simp] theorem Half.emit_getN (h : Half) (e : Emission) (w : RegDef) (j : Nat) : (h.emit e).getN w j = h.getN w j := rfl
@[simp] theorem Half.emit_fget (h : Half) (e : Emission) (w : Fld) (j : Nat) : (h.emit e).fget w j = h.fget w j := rfl
@[simp] theorem Half.emit_flag (h : Half) (e : Emission) (w : Fld) (j : Nat) : (h.emit e).flag w j = h.flag w j := rfl
@[simp] theorem Half.emit_mainUp (h : Half) (e : Emission) : (h.emit e).mainUp = h.mainUp := rfl
@[simp] theorem Half.emit_own (h : Half) (e : Emission) : (h.emit e).own = h.own := rfl
@[simp] theorem Half.emit_frame (h : Half) (e : Emission) : (h.emit e).frame = h.frame := rfl
@[simp] theorem Half.emit_inHold (h : Half) (e : Emission) : (h.emit e).inHold = h.inHold := rfl
@[simp] theorem Half.emit_running (h : Half) (e : Emission) : (h.emit e).running = h.running := rfl

@[simp] theorem Half.emits_id (h : Half) (es : List Emission) : (h.emits es).id = h.id := rfl
@[simp] theorem Half.emits_regs (h : Half) (es : List Emission) : (h.emits es).regs = h.regs := rfl
@[simp] theorem Half.emits_shadow (h : Half) (es : List Emission) : (h.emits es).shadow = h.shadow := rfl
@[simp] theorem Half.emits_shadowLate (h : Half) (es : List Emission) : (h.emits es).shadowLate = h.shadowLate := rfl
@[simp] theorem Half.emits_holdSample (h : Half) (es : List Emission) : (h.emits es).holdSample = h.holdSample := rfl
@[simp] theorem Half.emits_latch (h : Half) (es : List Emission) : (h.emits es).latch = h.latch := rfl
@[simp] theorem Half.emits_once (h : Half) (es : List Emission) : (h.emits es).once = h.once := rfl
@[simp] theorem Half.emits_hist (h : Half) (es : List Emission) : (h.emits es).hist = h.hist := rfl
@[simp] theorem Half.emits_hoTicks (h : Half) (es : List Emission) : (h.emits es).hoTicks = h.hoTicks := rfl
@[simp] theorem Half.emits_errq (h : Half) (es : List Emission) : (h.emits es).errq = h.errq := rfl
@[simp] theorem Half.emits_evc (h : Half) (es : List Emission) : (h.emits es).evc = h.evc := rfl
@[simp] theorem Half.emits_isl (h : Half) (es : List Emission) : (h.emits es).isl = h.isl := rfl
@[simp] theorem Half.emits_exy (h : Half) (es : List Emission) : (h.emits es).exy = h.exy := rfl
@[simp] theorem Half.emits_tmg (h : Half) (es : List Emission) : (h.emits es).tmg = h.tmg := rfl
@[simp] theorem Half.emits_front (h : Half) (es : List Emission) : (h.emits es).front = h.front := rfl
@[simp] theorem Half.emits_lta (h : Half) (es : List Emission) : (h.emits es).lta = h.lta := rfl
@[simp] theorem Half.emits_hbm (h : Half) (es : List Emission) : (h.emits es).hbm = h.hbm := rfl
@[simp] theorem Half.emits_rdb (h : Half) (es : List Emission) : (h.emits es).rdb = h.rdb := rfl
@[simp] theorem Half.emits_trw (h : Half) (es : List Emission) : (h.emits es).trw = h.trw := rfl
@[simp] theorem Half.emits_caps (h : Half) (es : List Emission) : (h.emits es).caps = h.caps := rfl
@[simp] theorem Half.emits_lanes (h : Half) (es : List Emission) : (h.emits es).lanes = h.lanes := rfl
@[simp] theorem Half.emits_xch (h : Half) (es : List Emission) : (h.emits es).xch = h.xch := rfl
@[simp] theorem Half.emits_arc (h : Half) (es : List Emission) : (h.emits es).arc = h.arc := rfl
@[simp] theorem Half.emits_bmf (h : Half) (es : List Emission) : (h.emits es).bmf = h.bmf := rfl
@[simp] theorem Half.emits_stage (h : Half) (es : List Emission) : (h.emits es).stage = h.stage := rfl
@[simp] theorem Half.emits_fatal (h : Half) (es : List Emission) : (h.emits es).fatal = h.fatal := rfl
@[simp] theorem Half.emits_out (h : Half) (es : List Emission) : (h.emits es).out = h.out ++ es := rfl
@[simp] theorem Half.emits_get (h : Half) (es : List Emission) (w : RegDef) (j : Nat) : (h.emits es).get w j = h.get w j := rfl
@[simp] theorem Half.emits_getN (h : Half) (es : List Emission) (w : RegDef) (j : Nat) : (h.emits es).getN w j = h.getN w j := rfl
@[simp] theorem Half.emits_fget (h : Half) (es : List Emission) (w : Fld) (j : Nat) : (h.emits es).fget w j = h.fget w j := rfl
@[simp] theorem Half.emits_flag (h : Half) (es : List Emission) (w : Fld) (j : Nat) : (h.emits es).flag w j = h.flag w j := rfl
@[simp] theorem Half.emits_mainUp (h : Half) (es : List Emission) : (h.emits es).mainUp = h.mainUp := rfl
@[simp] theorem Half.emits_own (h : Half) (es : List Emission) : (h.emits es).own = h.own := rfl
@[simp] theorem Half.emits_frame (h : Half) (es : List Emission) : (h.emits es).frame = h.frame := rfl
@[simp] theorem Half.emits_inHold (h : Half) (es : List Emission) : (h.emits es).inHold = h.inHold := rfl
@[simp] theorem Half.emits_running (h : Half) (es : List Emission) : (h.emits es).running = h.running := rfl

@[simp] theorem Half.modIsl_id (h : Half) (f : Island → Island) : (h.modIsl f).id = h.id := rfl
@[simp] theorem Half.modIsl_regs (h : Half) (f : Island → Island) : (h.modIsl f).regs = h.regs := rfl
@[simp] theorem Half.modIsl_shadow (h : Half) (f : Island → Island) : (h.modIsl f).shadow = h.shadow := rfl
@[simp] theorem Half.modIsl_shadowLate (h : Half) (f : Island → Island) : (h.modIsl f).shadowLate = h.shadowLate := rfl
@[simp] theorem Half.modIsl_holdSample (h : Half) (f : Island → Island) : (h.modIsl f).holdSample = h.holdSample := rfl
@[simp] theorem Half.modIsl_latch (h : Half) (f : Island → Island) : (h.modIsl f).latch = h.latch := rfl
@[simp] theorem Half.modIsl_once (h : Half) (f : Island → Island) : (h.modIsl f).once = h.once := rfl
@[simp] theorem Half.modIsl_hist (h : Half) (f : Island → Island) : (h.modIsl f).hist = h.hist := rfl
@[simp] theorem Half.modIsl_hoTicks (h : Half) (f : Island → Island) : (h.modIsl f).hoTicks = h.hoTicks := rfl
@[simp] theorem Half.modIsl_errq (h : Half) (f : Island → Island) : (h.modIsl f).errq = h.errq := rfl
@[simp] theorem Half.modIsl_evc (h : Half) (f : Island → Island) : (h.modIsl f).evc = h.evc := rfl
@[simp] theorem Half.modIsl_isl (h : Half) (f : Island → Island) : (h.modIsl f).isl = f h.isl := rfl
@[simp] theorem Half.modIsl_exy (h : Half) (f : Island → Island) : (h.modIsl f).exy = h.exy := rfl
@[simp] theorem Half.modIsl_tmg (h : Half) (f : Island → Island) : (h.modIsl f).tmg = h.tmg := rfl
@[simp] theorem Half.modIsl_front (h : Half) (f : Island → Island) : (h.modIsl f).front = h.front := rfl
@[simp] theorem Half.modIsl_lta (h : Half) (f : Island → Island) : (h.modIsl f).lta = h.lta := rfl
@[simp] theorem Half.modIsl_hbm (h : Half) (f : Island → Island) : (h.modIsl f).hbm = h.hbm := rfl
@[simp] theorem Half.modIsl_rdb (h : Half) (f : Island → Island) : (h.modIsl f).rdb = h.rdb := rfl
@[simp] theorem Half.modIsl_trw (h : Half) (f : Island → Island) : (h.modIsl f).trw = h.trw := rfl
@[simp] theorem Half.modIsl_caps (h : Half) (f : Island → Island) : (h.modIsl f).caps = h.caps := rfl
@[simp] theorem Half.modIsl_lanes (h : Half) (f : Island → Island) : (h.modIsl f).lanes = h.lanes := rfl
@[simp] theorem Half.modIsl_xch (h : Half) (f : Island → Island) : (h.modIsl f).xch = h.xch := rfl
@[simp] theorem Half.modIsl_arc (h : Half) (f : Island → Island) : (h.modIsl f).arc = h.arc := rfl
@[simp] theorem Half.modIsl_bmf (h : Half) (f : Island → Island) : (h.modIsl f).bmf = h.bmf := rfl
@[simp] theorem Half.modIsl_stage (h : Half) (f : Island → Island) : (h.modIsl f).stage = h.stage := rfl
@[simp] theorem Half.modIsl_fatal (h : Half) (f : Island → Island) : (h.modIsl f).fatal = h.fatal := rfl
@[simp] theorem Half.modIsl_out (h : Half) (f : Island → Island) : (h.modIsl f).out = h.out := rfl
@[simp] theorem Half.modIsl_get (h : Half) (f : Island → Island) (w : RegDef) (j : Nat) : (h.modIsl f).get w j = h.get w j := rfl
@[simp] theorem Half.modIsl_getN (h : Half) (f : Island → Island) (w : RegDef) (j : Nat) : (h.modIsl f).getN w j = h.getN w j := rfl
@[simp] theorem Half.modIsl_fget (h : Half) (f : Island → Island) (w : Fld) (j : Nat) : (h.modIsl f).fget w j = h.fget w j := rfl
@[simp] theorem Half.modIsl_flag (h : Half) (f : Island → Island) (w : Fld) (j : Nat) : (h.modIsl f).flag w j = h.flag w j := rfl
@[simp] theorem Half.modIsl_mainUp (h : Half) (f : Island → Island) : (h.modIsl f).mainUp = h.mainUp := rfl
@[simp] theorem Half.modIsl_own (h : Half) (f : Island → Island) : (h.modIsl f).own = h.own := rfl
@[simp] theorem Half.modIsl_frame (h : Half) (f : Island → Island) : (h.modIsl f).frame = h.frame := rfl
@[simp] theorem Half.modIsl_inHold (h : Half) (f : Island → Island) : (h.modIsl f).inHold = h.inHold := rfl
@[simp] theorem Half.modIsl_running (h : Half) (f : Island → Island) : (h.modIsl f).running = h.running := rfl

@[simp] theorem Half.modRdb_id (h : Half) (f : Rdb → Rdb) : (h.modRdb f).id = h.id := rfl
@[simp] theorem Half.modRdb_regs (h : Half) (f : Rdb → Rdb) : (h.modRdb f).regs = h.regs := rfl
@[simp] theorem Half.modRdb_shadow (h : Half) (f : Rdb → Rdb) : (h.modRdb f).shadow = h.shadow := rfl
@[simp] theorem Half.modRdb_shadowLate (h : Half) (f : Rdb → Rdb) : (h.modRdb f).shadowLate = h.shadowLate := rfl
@[simp] theorem Half.modRdb_holdSample (h : Half) (f : Rdb → Rdb) : (h.modRdb f).holdSample = h.holdSample := rfl
@[simp] theorem Half.modRdb_latch (h : Half) (f : Rdb → Rdb) : (h.modRdb f).latch = h.latch := rfl
@[simp] theorem Half.modRdb_once (h : Half) (f : Rdb → Rdb) : (h.modRdb f).once = h.once := rfl
@[simp] theorem Half.modRdb_hist (h : Half) (f : Rdb → Rdb) : (h.modRdb f).hist = h.hist := rfl
@[simp] theorem Half.modRdb_hoTicks (h : Half) (f : Rdb → Rdb) : (h.modRdb f).hoTicks = h.hoTicks := rfl
@[simp] theorem Half.modRdb_errq (h : Half) (f : Rdb → Rdb) : (h.modRdb f).errq = h.errq := rfl
@[simp] theorem Half.modRdb_evc (h : Half) (f : Rdb → Rdb) : (h.modRdb f).evc = h.evc := rfl
@[simp] theorem Half.modRdb_isl (h : Half) (f : Rdb → Rdb) : (h.modRdb f).isl = h.isl := rfl
@[simp] theorem Half.modRdb_exy (h : Half) (f : Rdb → Rdb) : (h.modRdb f).exy = h.exy := rfl
@[simp] theorem Half.modRdb_tmg (h : Half) (f : Rdb → Rdb) : (h.modRdb f).tmg = h.tmg := rfl
@[simp] theorem Half.modRdb_front (h : Half) (f : Rdb → Rdb) : (h.modRdb f).front = h.front := rfl
@[simp] theorem Half.modRdb_lta (h : Half) (f : Rdb → Rdb) : (h.modRdb f).lta = h.lta := rfl
@[simp] theorem Half.modRdb_hbm (h : Half) (f : Rdb → Rdb) : (h.modRdb f).hbm = h.hbm := rfl
@[simp] theorem Half.modRdb_rdb (h : Half) (f : Rdb → Rdb) : (h.modRdb f).rdb = f h.rdb := rfl
@[simp] theorem Half.modRdb_trw (h : Half) (f : Rdb → Rdb) : (h.modRdb f).trw = h.trw := rfl
@[simp] theorem Half.modRdb_caps (h : Half) (f : Rdb → Rdb) : (h.modRdb f).caps = h.caps := rfl
@[simp] theorem Half.modRdb_lanes (h : Half) (f : Rdb → Rdb) : (h.modRdb f).lanes = h.lanes := rfl
@[simp] theorem Half.modRdb_xch (h : Half) (f : Rdb → Rdb) : (h.modRdb f).xch = h.xch := rfl
@[simp] theorem Half.modRdb_arc (h : Half) (f : Rdb → Rdb) : (h.modRdb f).arc = h.arc := rfl
@[simp] theorem Half.modRdb_bmf (h : Half) (f : Rdb → Rdb) : (h.modRdb f).bmf = h.bmf := rfl
@[simp] theorem Half.modRdb_stage (h : Half) (f : Rdb → Rdb) : (h.modRdb f).stage = h.stage := rfl
@[simp] theorem Half.modRdb_fatal (h : Half) (f : Rdb → Rdb) : (h.modRdb f).fatal = h.fatal := rfl
@[simp] theorem Half.modRdb_out (h : Half) (f : Rdb → Rdb) : (h.modRdb f).out = h.out := rfl
@[simp] theorem Half.modRdb_get (h : Half) (f : Rdb → Rdb) (w : RegDef) (j : Nat) : (h.modRdb f).get w j = h.get w j := rfl
@[simp] theorem Half.modRdb_getN (h : Half) (f : Rdb → Rdb) (w : RegDef) (j : Nat) : (h.modRdb f).getN w j = h.getN w j := rfl
@[simp] theorem Half.modRdb_fget (h : Half) (f : Rdb → Rdb) (w : Fld) (j : Nat) : (h.modRdb f).fget w j = h.fget w j := rfl
@[simp] theorem Half.modRdb_flag (h : Half) (f : Rdb → Rdb) (w : Fld) (j : Nat) : (h.modRdb f).flag w j = h.flag w j := rfl
@[simp] theorem Half.modRdb_mainUp (h : Half) (f : Rdb → Rdb) : (h.modRdb f).mainUp = h.mainUp := rfl
@[simp] theorem Half.modRdb_own (h : Half) (f : Rdb → Rdb) : (h.modRdb f).own = h.own := rfl
@[simp] theorem Half.modRdb_frame (h : Half) (f : Rdb → Rdb) : (h.modRdb f).frame = h.frame := rfl
@[simp] theorem Half.modRdb_inHold (h : Half) (f : Rdb → Rdb) : (h.modRdb f).inHold = h.inHold := rfl
@[simp] theorem Half.modRdb_running (h : Half) (f : Rdb → Rdb) : (h.modRdb f).running = h.running := rfl

@[simp] theorem Half.modArc_id (h : Half) (f : Arc → Arc) : (h.modArc f).id = h.id := rfl
@[simp] theorem Half.modArc_regs (h : Half) (f : Arc → Arc) : (h.modArc f).regs = h.regs := rfl
@[simp] theorem Half.modArc_shadow (h : Half) (f : Arc → Arc) : (h.modArc f).shadow = h.shadow := rfl
@[simp] theorem Half.modArc_shadowLate (h : Half) (f : Arc → Arc) : (h.modArc f).shadowLate = h.shadowLate := rfl
@[simp] theorem Half.modArc_holdSample (h : Half) (f : Arc → Arc) : (h.modArc f).holdSample = h.holdSample := rfl
@[simp] theorem Half.modArc_latch (h : Half) (f : Arc → Arc) : (h.modArc f).latch = h.latch := rfl
@[simp] theorem Half.modArc_once (h : Half) (f : Arc → Arc) : (h.modArc f).once = h.once := rfl
@[simp] theorem Half.modArc_hist (h : Half) (f : Arc → Arc) : (h.modArc f).hist = h.hist := rfl
@[simp] theorem Half.modArc_hoTicks (h : Half) (f : Arc → Arc) : (h.modArc f).hoTicks = h.hoTicks := rfl
@[simp] theorem Half.modArc_errq (h : Half) (f : Arc → Arc) : (h.modArc f).errq = h.errq := rfl
@[simp] theorem Half.modArc_evc (h : Half) (f : Arc → Arc) : (h.modArc f).evc = h.evc := rfl
@[simp] theorem Half.modArc_isl (h : Half) (f : Arc → Arc) : (h.modArc f).isl = h.isl := rfl
@[simp] theorem Half.modArc_exy (h : Half) (f : Arc → Arc) : (h.modArc f).exy = h.exy := rfl
@[simp] theorem Half.modArc_tmg (h : Half) (f : Arc → Arc) : (h.modArc f).tmg = h.tmg := rfl
@[simp] theorem Half.modArc_front (h : Half) (f : Arc → Arc) : (h.modArc f).front = h.front := rfl
@[simp] theorem Half.modArc_lta (h : Half) (f : Arc → Arc) : (h.modArc f).lta = h.lta := rfl
@[simp] theorem Half.modArc_hbm (h : Half) (f : Arc → Arc) : (h.modArc f).hbm = h.hbm := rfl
@[simp] theorem Half.modArc_rdb (h : Half) (f : Arc → Arc) : (h.modArc f).rdb = h.rdb := rfl
@[simp] theorem Half.modArc_trw (h : Half) (f : Arc → Arc) : (h.modArc f).trw = h.trw := rfl
@[simp] theorem Half.modArc_caps (h : Half) (f : Arc → Arc) : (h.modArc f).caps = h.caps := rfl
@[simp] theorem Half.modArc_lanes (h : Half) (f : Arc → Arc) : (h.modArc f).lanes = h.lanes := rfl
@[simp] theorem Half.modArc_xch (h : Half) (f : Arc → Arc) : (h.modArc f).xch = h.xch := rfl
@[simp] theorem Half.modArc_arc (h : Half) (f : Arc → Arc) : (h.modArc f).arc = f h.arc := rfl
@[simp] theorem Half.modArc_bmf (h : Half) (f : Arc → Arc) : (h.modArc f).bmf = h.bmf := rfl
@[simp] theorem Half.modArc_stage (h : Half) (f : Arc → Arc) : (h.modArc f).stage = h.stage := rfl
@[simp] theorem Half.modArc_fatal (h : Half) (f : Arc → Arc) : (h.modArc f).fatal = h.fatal := rfl
@[simp] theorem Half.modArc_out (h : Half) (f : Arc → Arc) : (h.modArc f).out = h.out := rfl
@[simp] theorem Half.modArc_get (h : Half) (f : Arc → Arc) (w : RegDef) (j : Nat) : (h.modArc f).get w j = h.get w j := rfl
@[simp] theorem Half.modArc_getN (h : Half) (f : Arc → Arc) (w : RegDef) (j : Nat) : (h.modArc f).getN w j = h.getN w j := rfl
@[simp] theorem Half.modArc_fget (h : Half) (f : Arc → Arc) (w : Fld) (j : Nat) : (h.modArc f).fget w j = h.fget w j := rfl
@[simp] theorem Half.modArc_flag (h : Half) (f : Arc → Arc) (w : Fld) (j : Nat) : (h.modArc f).flag w j = h.flag w j := rfl
@[simp] theorem Half.modArc_mainUp (h : Half) (f : Arc → Arc) : (h.modArc f).mainUp = h.mainUp := rfl
@[simp] theorem Half.modArc_own (h : Half) (f : Arc → Arc) : (h.modArc f).own = h.own := rfl
@[simp] theorem Half.modArc_frame (h : Half) (f : Arc → Arc) : (h.modArc f).frame = h.frame := rfl
@[simp] theorem Half.modArc_inHold (h : Half) (f : Arc → Arc) : (h.modArc f).inHold = h.inHold := rfl
@[simp] theorem Half.modArc_running (h : Half) (f : Arc → Arc) : (h.modArc f).running = h.running := rfl

@[simp] theorem Half.modBmf_id (h : Half) (f : Bmf → Bmf) : (h.modBmf f).id = h.id := rfl
@[simp] theorem Half.modBmf_regs (h : Half) (f : Bmf → Bmf) : (h.modBmf f).regs = h.regs := rfl
@[simp] theorem Half.modBmf_shadow (h : Half) (f : Bmf → Bmf) : (h.modBmf f).shadow = h.shadow := rfl
@[simp] theorem Half.modBmf_shadowLate (h : Half) (f : Bmf → Bmf) : (h.modBmf f).shadowLate = h.shadowLate := rfl
@[simp] theorem Half.modBmf_holdSample (h : Half) (f : Bmf → Bmf) : (h.modBmf f).holdSample = h.holdSample := rfl
@[simp] theorem Half.modBmf_latch (h : Half) (f : Bmf → Bmf) : (h.modBmf f).latch = h.latch := rfl
@[simp] theorem Half.modBmf_once (h : Half) (f : Bmf → Bmf) : (h.modBmf f).once = h.once := rfl
@[simp] theorem Half.modBmf_hist (h : Half) (f : Bmf → Bmf) : (h.modBmf f).hist = h.hist := rfl
@[simp] theorem Half.modBmf_hoTicks (h : Half) (f : Bmf → Bmf) : (h.modBmf f).hoTicks = h.hoTicks := rfl
@[simp] theorem Half.modBmf_errq (h : Half) (f : Bmf → Bmf) : (h.modBmf f).errq = h.errq := rfl
@[simp] theorem Half.modBmf_evc (h : Half) (f : Bmf → Bmf) : (h.modBmf f).evc = h.evc := rfl
@[simp] theorem Half.modBmf_isl (h : Half) (f : Bmf → Bmf) : (h.modBmf f).isl = h.isl := rfl
@[simp] theorem Half.modBmf_exy (h : Half) (f : Bmf → Bmf) : (h.modBmf f).exy = h.exy := rfl
@[simp] theorem Half.modBmf_tmg (h : Half) (f : Bmf → Bmf) : (h.modBmf f).tmg = h.tmg := rfl
@[simp] theorem Half.modBmf_front (h : Half) (f : Bmf → Bmf) : (h.modBmf f).front = h.front := rfl
@[simp] theorem Half.modBmf_lta (h : Half) (f : Bmf → Bmf) : (h.modBmf f).lta = h.lta := rfl
@[simp] theorem Half.modBmf_hbm (h : Half) (f : Bmf → Bmf) : (h.modBmf f).hbm = h.hbm := rfl
@[simp] theorem Half.modBmf_rdb (h : Half) (f : Bmf → Bmf) : (h.modBmf f).rdb = h.rdb := rfl
@[simp] theorem Half.modBmf_trw (h : Half) (f : Bmf → Bmf) : (h.modBmf f).trw = h.trw := rfl
@[simp] theorem Half.modBmf_caps (h : Half) (f : Bmf → Bmf) : (h.modBmf f).caps = h.caps := rfl
@[simp] theorem Half.modBmf_lanes (h : Half) (f : Bmf → Bmf) : (h.modBmf f).lanes = h.lanes := rfl
@[simp] theorem Half.modBmf_xch (h : Half) (f : Bmf → Bmf) : (h.modBmf f).xch = h.xch := rfl
@[simp] theorem Half.modBmf_arc (h : Half) (f : Bmf → Bmf) : (h.modBmf f).arc = h.arc := rfl
@[simp] theorem Half.modBmf_bmf (h : Half) (f : Bmf → Bmf) : (h.modBmf f).bmf = f h.bmf := rfl
@[simp] theorem Half.modBmf_stage (h : Half) (f : Bmf → Bmf) : (h.modBmf f).stage = h.stage := rfl
@[simp] theorem Half.modBmf_fatal (h : Half) (f : Bmf → Bmf) : (h.modBmf f).fatal = h.fatal := rfl
@[simp] theorem Half.modBmf_out (h : Half) (f : Bmf → Bmf) : (h.modBmf f).out = h.out := rfl
@[simp] theorem Half.modBmf_get (h : Half) (f : Bmf → Bmf) (w : RegDef) (j : Nat) : (h.modBmf f).get w j = h.get w j := rfl
@[simp] theorem Half.modBmf_getN (h : Half) (f : Bmf → Bmf) (w : RegDef) (j : Nat) : (h.modBmf f).getN w j = h.getN w j := rfl
@[simp] theorem Half.modBmf_fget (h : Half) (f : Bmf → Bmf) (w : Fld) (j : Nat) : (h.modBmf f).fget w j = h.fget w j := rfl
@[simp] theorem Half.modBmf_flag (h : Half) (f : Bmf → Bmf) (w : Fld) (j : Nat) : (h.modBmf f).flag w j = h.flag w j := rfl
@[simp] theorem Half.modBmf_mainUp (h : Half) (f : Bmf → Bmf) : (h.modBmf f).mainUp = h.mainUp := rfl
@[simp] theorem Half.modBmf_own (h : Half) (f : Bmf → Bmf) : (h.modBmf f).own = h.own := rfl
@[simp] theorem Half.modBmf_frame (h : Half) (f : Bmf → Bmf) : (h.modBmf f).frame = h.frame := rfl
@[simp] theorem Half.modBmf_inHold (h : Half) (f : Bmf → Bmf) : (h.modBmf f).inHold = h.inHold := rfl
@[simp] theorem Half.modBmf_running (h : Half) (f : Bmf → Bmf) : (h.modBmf f).running = h.running := rfl

@[simp] theorem Half.modExy_id (h : Half) (f : Exy → Exy) : (h.modExy f).id = h.id := rfl
@[simp] theorem Half.modExy_regs (h : Half) (f : Exy → Exy) : (h.modExy f).regs = h.regs := rfl
@[simp] theorem Half.modExy_shadow (h : Half) (f : Exy → Exy) : (h.modExy f).shadow = h.shadow := rfl
@[simp] theorem Half.modExy_shadowLate (h : Half) (f : Exy → Exy) : (h.modExy f).shadowLate = h.shadowLate := rfl
@[simp] theorem Half.modExy_holdSample (h : Half) (f : Exy → Exy) : (h.modExy f).holdSample = h.holdSample := rfl
@[simp] theorem Half.modExy_latch (h : Half) (f : Exy → Exy) : (h.modExy f).latch = h.latch := rfl
@[simp] theorem Half.modExy_once (h : Half) (f : Exy → Exy) : (h.modExy f).once = h.once := rfl
@[simp] theorem Half.modExy_hist (h : Half) (f : Exy → Exy) : (h.modExy f).hist = h.hist := rfl
@[simp] theorem Half.modExy_hoTicks (h : Half) (f : Exy → Exy) : (h.modExy f).hoTicks = h.hoTicks := rfl
@[simp] theorem Half.modExy_errq (h : Half) (f : Exy → Exy) : (h.modExy f).errq = h.errq := rfl
@[simp] theorem Half.modExy_evc (h : Half) (f : Exy → Exy) : (h.modExy f).evc = h.evc := rfl
@[simp] theorem Half.modExy_isl (h : Half) (f : Exy → Exy) : (h.modExy f).isl = h.isl := rfl
@[simp] theorem Half.modExy_exy (h : Half) (f : Exy → Exy) : (h.modExy f).exy = f h.exy := rfl
@[simp] theorem Half.modExy_tmg (h : Half) (f : Exy → Exy) : (h.modExy f).tmg = h.tmg := rfl
@[simp] theorem Half.modExy_front (h : Half) (f : Exy → Exy) : (h.modExy f).front = h.front := rfl
@[simp] theorem Half.modExy_lta (h : Half) (f : Exy → Exy) : (h.modExy f).lta = h.lta := rfl
@[simp] theorem Half.modExy_hbm (h : Half) (f : Exy → Exy) : (h.modExy f).hbm = h.hbm := rfl
@[simp] theorem Half.modExy_rdb (h : Half) (f : Exy → Exy) : (h.modExy f).rdb = h.rdb := rfl
@[simp] theorem Half.modExy_trw (h : Half) (f : Exy → Exy) : (h.modExy f).trw = h.trw := rfl
@[simp] theorem Half.modExy_caps (h : Half) (f : Exy → Exy) : (h.modExy f).caps = h.caps := rfl
@[simp] theorem Half.modExy_lanes (h : Half) (f : Exy → Exy) : (h.modExy f).lanes = h.lanes := rfl
@[simp] theorem Half.modExy_xch (h : Half) (f : Exy → Exy) : (h.modExy f).xch = h.xch := rfl
@[simp] theorem Half.modExy_arc (h : Half) (f : Exy → Exy) : (h.modExy f).arc = h.arc := rfl
@[simp] theorem Half.modExy_bmf (h : Half) (f : Exy → Exy) : (h.modExy f).bmf = h.bmf := rfl
@[simp] theorem Half.modExy_stage (h : Half) (f : Exy → Exy) : (h.modExy f).stage = h.stage := rfl
@[simp] theorem Half.modExy_fatal (h : Half) (f : Exy → Exy) : (h.modExy f).fatal = h.fatal := rfl
@[simp] theorem Half.modExy_out (h : Half) (f : Exy → Exy) : (h.modExy f).out = h.out := rfl
@[simp] theorem Half.modExy_get (h : Half) (f : Exy → Exy) (w : RegDef) (j : Nat) : (h.modExy f).get w j = h.get w j := rfl
@[simp] theorem Half.modExy_getN (h : Half) (f : Exy → Exy) (w : RegDef) (j : Nat) : (h.modExy f).getN w j = h.getN w j := rfl
@[simp] theorem Half.modExy_fget (h : Half) (f : Exy → Exy) (w : Fld) (j : Nat) : (h.modExy f).fget w j = h.fget w j := rfl
@[simp] theorem Half.modExy_flag (h : Half) (f : Exy → Exy) (w : Fld) (j : Nat) : (h.modExy f).flag w j = h.flag w j := rfl
@[simp] theorem Half.modExy_mainUp (h : Half) (f : Exy → Exy) : (h.modExy f).mainUp = h.mainUp := rfl
@[simp] theorem Half.modExy_own (h : Half) (f : Exy → Exy) : (h.modExy f).own = h.own := rfl
@[simp] theorem Half.modExy_frame (h : Half) (f : Exy → Exy) : (h.modExy f).frame = h.frame := rfl
@[simp] theorem Half.modExy_inHold (h : Half) (f : Exy → Exy) : (h.modExy f).inHold = h.inHold := rfl
@[simp] theorem Half.modExy_running (h : Half) (f : Exy → Exy) : (h.modExy f).running = h.running := rfl

@[simp] theorem Half.modHbm_id (h : Half) (f : Hbm → Hbm) : (h.modHbm f).id = h.id := rfl
@[simp] theorem Half.modHbm_regs (h : Half) (f : Hbm → Hbm) : (h.modHbm f).regs = h.regs := rfl
@[simp] theorem Half.modHbm_shadow (h : Half) (f : Hbm → Hbm) : (h.modHbm f).shadow = h.shadow := rfl
@[simp] theorem Half.modHbm_shadowLate (h : Half) (f : Hbm → Hbm) : (h.modHbm f).shadowLate = h.shadowLate := rfl
@[simp] theorem Half.modHbm_holdSample (h : Half) (f : Hbm → Hbm) : (h.modHbm f).holdSample = h.holdSample := rfl
@[simp] theorem Half.modHbm_latch (h : Half) (f : Hbm → Hbm) : (h.modHbm f).latch = h.latch := rfl
@[simp] theorem Half.modHbm_once (h : Half) (f : Hbm → Hbm) : (h.modHbm f).once = h.once := rfl
@[simp] theorem Half.modHbm_hist (h : Half) (f : Hbm → Hbm) : (h.modHbm f).hist = h.hist := rfl
@[simp] theorem Half.modHbm_hoTicks (h : Half) (f : Hbm → Hbm) : (h.modHbm f).hoTicks = h.hoTicks := rfl
@[simp] theorem Half.modHbm_errq (h : Half) (f : Hbm → Hbm) : (h.modHbm f).errq = h.errq := rfl
@[simp] theorem Half.modHbm_evc (h : Half) (f : Hbm → Hbm) : (h.modHbm f).evc = h.evc := rfl
@[simp] theorem Half.modHbm_isl (h : Half) (f : Hbm → Hbm) : (h.modHbm f).isl = h.isl := rfl
@[simp] theorem Half.modHbm_exy (h : Half) (f : Hbm → Hbm) : (h.modHbm f).exy = h.exy := rfl
@[simp] theorem Half.modHbm_tmg (h : Half) (f : Hbm → Hbm) : (h.modHbm f).tmg = h.tmg := rfl
@[simp] theorem Half.modHbm_front (h : Half) (f : Hbm → Hbm) : (h.modHbm f).front = h.front := rfl
@[simp] theorem Half.modHbm_lta (h : Half) (f : Hbm → Hbm) : (h.modHbm f).lta = h.lta := rfl
@[simp] theorem Half.modHbm_hbm (h : Half) (f : Hbm → Hbm) : (h.modHbm f).hbm = f h.hbm := rfl
@[simp] theorem Half.modHbm_rdb (h : Half) (f : Hbm → Hbm) : (h.modHbm f).rdb = h.rdb := rfl
@[simp] theorem Half.modHbm_trw (h : Half) (f : Hbm → Hbm) : (h.modHbm f).trw = h.trw := rfl
@[simp] theorem Half.modHbm_caps (h : Half) (f : Hbm → Hbm) : (h.modHbm f).caps = h.caps := rfl
@[simp] theorem Half.modHbm_lanes (h : Half) (f : Hbm → Hbm) : (h.modHbm f).lanes = h.lanes := rfl
@[simp] theorem Half.modHbm_xch (h : Half) (f : Hbm → Hbm) : (h.modHbm f).xch = h.xch := rfl
@[simp] theorem Half.modHbm_arc (h : Half) (f : Hbm → Hbm) : (h.modHbm f).arc = h.arc := rfl
@[simp] theorem Half.modHbm_bmf (h : Half) (f : Hbm → Hbm) : (h.modHbm f).bmf = h.bmf := rfl
@[simp] theorem Half.modHbm_stage (h : Half) (f : Hbm → Hbm) : (h.modHbm f).stage = h.stage := rfl
@[simp] theorem Half.modHbm_fatal (h : Half) (f : Hbm → Hbm) : (h.modHbm f).fatal = h.fatal := rfl
@[simp] theorem Half.modHbm_out (h : Half) (f : Hbm → Hbm) : (h.modHbm f).out = h.out := rfl
@[simp] theorem Half.modHbm_get (h : Half) (f : Hbm → Hbm) (w : RegDef) (j : Nat) : (h.modHbm f).get w j = h.get w j := rfl
@[simp] theorem Half.modHbm_getN (h : Half) (f : Hbm → Hbm) (w : RegDef) (j : Nat) : (h.modHbm f).getN w j = h.getN w j := rfl
@[simp] theorem Half.modHbm_fget (h : Half) (f : Hbm → Hbm) (w : Fld) (j : Nat) : (h.modHbm f).fget w j = h.fget w j := rfl
@[simp] theorem Half.modHbm_flag (h : Half) (f : Hbm → Hbm) (w : Fld) (j : Nat) : (h.modHbm f).flag w j = h.flag w j := rfl
@[simp] theorem Half.modHbm_mainUp (h : Half) (f : Hbm → Hbm) : (h.modHbm f).mainUp = h.mainUp := rfl
@[simp] theorem Half.modHbm_own (h : Half) (f : Hbm → Hbm) : (h.modHbm f).own = h.own := rfl
@[simp] theorem Half.modHbm_frame (h : Half) (f : Hbm → Hbm) : (h.modHbm f).frame = h.frame := rfl
@[simp] theorem Half.modHbm_inHold (h : Half) (f : Hbm → Hbm) : (h.modHbm f).inHold = h.inHold := rfl
@[simp] theorem Half.modHbm_running (h : Half) (f : Hbm → Hbm) : (h.modHbm f).running = h.running := rfl

@[simp] theorem Half.modLta_id (h : Half) (f : Lta → Lta) : (h.modLta f).id = h.id := rfl
@[simp] theorem Half.modLta_regs (h : Half) (f : Lta → Lta) : (h.modLta f).regs = h.regs := rfl
@[simp] theorem Half.modLta_shadow (h : Half) (f : Lta → Lta) : (h.modLta f).shadow = h.shadow := rfl
@[simp] theorem Half.modLta_shadowLate (h : Half) (f : Lta → Lta) : (h.modLta f).shadowLate = h.shadowLate := rfl
@[simp] theorem Half.modLta_holdSample (h : Half) (f : Lta → Lta) : (h.modLta f).holdSample = h.holdSample := rfl
@[simp] theorem Half.modLta_latch (h : Half) (f : Lta → Lta) : (h.modLta f).latch = h.latch := rfl
@[simp] theorem Half.modLta_once (h : Half) (f : Lta → Lta) : (h.modLta f).once = h.once := rfl
@[simp] theorem Half.modLta_hist (h : Half) (f : Lta → Lta) : (h.modLta f).hist = h.hist := rfl
@[simp] theorem Half.modLta_hoTicks (h : Half) (f : Lta → Lta) : (h.modLta f).hoTicks = h.hoTicks := rfl
@[simp] theorem Half.modLta_errq (h : Half) (f : Lta → Lta) : (h.modLta f).errq = h.errq := rfl
@[simp] theorem Half.modLta_evc (h : Half) (f : Lta → Lta) : (h.modLta f).evc = h.evc := rfl
@[simp] theorem Half.modLta_isl (h : Half) (f : Lta → Lta) : (h.modLta f).isl = h.isl := rfl
@[simp] theorem Half.modLta_exy (h : Half) (f : Lta → Lta) : (h.modLta f).exy = h.exy := rfl
@[simp] theorem Half.modLta_tmg (h : Half) (f : Lta → Lta) : (h.modLta f).tmg = h.tmg := rfl
@[simp] theorem Half.modLta_front (h : Half) (f : Lta → Lta) : (h.modLta f).front = h.front := rfl
@[simp] theorem Half.modLta_lta (h : Half) (f : Lta → Lta) : (h.modLta f).lta = f h.lta := rfl
@[simp] theorem Half.modLta_hbm (h : Half) (f : Lta → Lta) : (h.modLta f).hbm = h.hbm := rfl
@[simp] theorem Half.modLta_rdb (h : Half) (f : Lta → Lta) : (h.modLta f).rdb = h.rdb := rfl
@[simp] theorem Half.modLta_trw (h : Half) (f : Lta → Lta) : (h.modLta f).trw = h.trw := rfl
@[simp] theorem Half.modLta_caps (h : Half) (f : Lta → Lta) : (h.modLta f).caps = h.caps := rfl
@[simp] theorem Half.modLta_lanes (h : Half) (f : Lta → Lta) : (h.modLta f).lanes = h.lanes := rfl
@[simp] theorem Half.modLta_xch (h : Half) (f : Lta → Lta) : (h.modLta f).xch = h.xch := rfl
@[simp] theorem Half.modLta_arc (h : Half) (f : Lta → Lta) : (h.modLta f).arc = h.arc := rfl
@[simp] theorem Half.modLta_bmf (h : Half) (f : Lta → Lta) : (h.modLta f).bmf = h.bmf := rfl
@[simp] theorem Half.modLta_stage (h : Half) (f : Lta → Lta) : (h.modLta f).stage = h.stage := rfl
@[simp] theorem Half.modLta_fatal (h : Half) (f : Lta → Lta) : (h.modLta f).fatal = h.fatal := rfl
@[simp] theorem Half.modLta_out (h : Half) (f : Lta → Lta) : (h.modLta f).out = h.out := rfl
@[simp] theorem Half.modLta_get (h : Half) (f : Lta → Lta) (w : RegDef) (j : Nat) : (h.modLta f).get w j = h.get w j := rfl
@[simp] theorem Half.modLta_getN (h : Half) (f : Lta → Lta) (w : RegDef) (j : Nat) : (h.modLta f).getN w j = h.getN w j := rfl
@[simp] theorem Half.modLta_fget (h : Half) (f : Lta → Lta) (w : Fld) (j : Nat) : (h.modLta f).fget w j = h.fget w j := rfl
@[simp] theorem Half.modLta_flag (h : Half) (f : Lta → Lta) (w : Fld) (j : Nat) : (h.modLta f).flag w j = h.flag w j := rfl
@[simp] theorem Half.modLta_mainUp (h : Half) (f : Lta → Lta) : (h.modLta f).mainUp = h.mainUp := rfl
@[simp] theorem Half.modLta_own (h : Half) (f : Lta → Lta) : (h.modLta f).own = h.own := rfl
@[simp] theorem Half.modLta_frame (h : Half) (f : Lta → Lta) : (h.modLta f).frame = h.frame := rfl
@[simp] theorem Half.modLta_inHold (h : Half) (f : Lta → Lta) : (h.modLta f).inHold = h.inHold := rfl
@[simp] theorem Half.modLta_running (h : Half) (f : Lta → Lta) : (h.modLta f).running = h.running := rfl

@[simp] theorem Half.modTmg_id (h : Half) (f : Tmg → Tmg) : (h.modTmg f).id = h.id := rfl
@[simp] theorem Half.modTmg_regs (h : Half) (f : Tmg → Tmg) : (h.modTmg f).regs = h.regs := rfl
@[simp] theorem Half.modTmg_shadow (h : Half) (f : Tmg → Tmg) : (h.modTmg f).shadow = h.shadow := rfl
@[simp] theorem Half.modTmg_shadowLate (h : Half) (f : Tmg → Tmg) : (h.modTmg f).shadowLate = h.shadowLate := rfl
@[simp] theorem Half.modTmg_holdSample (h : Half) (f : Tmg → Tmg) : (h.modTmg f).holdSample = h.holdSample := rfl
@[simp] theorem Half.modTmg_latch (h : Half) (f : Tmg → Tmg) : (h.modTmg f).latch = h.latch := rfl
@[simp] theorem Half.modTmg_once (h : Half) (f : Tmg → Tmg) : (h.modTmg f).once = h.once := rfl
@[simp] theorem Half.modTmg_hist (h : Half) (f : Tmg → Tmg) : (h.modTmg f).hist = h.hist := rfl
@[simp] theorem Half.modTmg_hoTicks (h : Half) (f : Tmg → Tmg) : (h.modTmg f).hoTicks = h.hoTicks := rfl
@[simp] theorem Half.modTmg_errq (h : Half) (f : Tmg → Tmg) : (h.modTmg f).errq = h.errq := rfl
@[simp] theorem Half.modTmg_evc (h : Half) (f : Tmg → Tmg) : (h.modTmg f).evc = h.evc := rfl
@[simp] theorem Half.modTmg_isl (h : Half) (f : Tmg → Tmg) : (h.modTmg f).isl = h.isl := rfl
@[simp] theorem Half.modTmg_exy (h : Half) (f : Tmg → Tmg) : (h.modTmg f).exy = h.exy := rfl
@[simp] theorem Half.modTmg_tmg (h : Half) (f : Tmg → Tmg) : (h.modTmg f).tmg = f h.tmg := rfl
@[simp] theorem Half.modTmg_front (h : Half) (f : Tmg → Tmg) : (h.modTmg f).front = h.front := rfl
@[simp] theorem Half.modTmg_lta (h : Half) (f : Tmg → Tmg) : (h.modTmg f).lta = h.lta := rfl
@[simp] theorem Half.modTmg_hbm (h : Half) (f : Tmg → Tmg) : (h.modTmg f).hbm = h.hbm := rfl
@[simp] theorem Half.modTmg_rdb (h : Half) (f : Tmg → Tmg) : (h.modTmg f).rdb = h.rdb := rfl
@[simp] theorem Half.modTmg_trw (h : Half) (f : Tmg → Tmg) : (h.modTmg f).trw = h.trw := rfl
@[simp] theorem Half.modTmg_caps (h : Half) (f : Tmg → Tmg) : (h.modTmg f).caps = h.caps := rfl
@[simp] theorem Half.modTmg_lanes (h : Half) (f : Tmg → Tmg) : (h.modTmg f).lanes = h.lanes := rfl
@[simp] theorem Half.modTmg_xch (h : Half) (f : Tmg → Tmg) : (h.modTmg f).xch = h.xch := rfl
@[simp] theorem Half.modTmg_arc (h : Half) (f : Tmg → Tmg) : (h.modTmg f).arc = h.arc := rfl
@[simp] theorem Half.modTmg_bmf (h : Half) (f : Tmg → Tmg) : (h.modTmg f).bmf = h.bmf := rfl
@[simp] theorem Half.modTmg_stage (h : Half) (f : Tmg → Tmg) : (h.modTmg f).stage = h.stage := rfl
@[simp] theorem Half.modTmg_fatal (h : Half) (f : Tmg → Tmg) : (h.modTmg f).fatal = h.fatal := rfl
@[simp] theorem Half.modTmg_out (h : Half) (f : Tmg → Tmg) : (h.modTmg f).out = h.out := rfl
@[simp] theorem Half.modTmg_get (h : Half) (f : Tmg → Tmg) (w : RegDef) (j : Nat) : (h.modTmg f).get w j = h.get w j := rfl
@[simp] theorem Half.modTmg_getN (h : Half) (f : Tmg → Tmg) (w : RegDef) (j : Nat) : (h.modTmg f).getN w j = h.getN w j := rfl
@[simp] theorem Half.modTmg_fget (h : Half) (f : Tmg → Tmg) (w : Fld) (j : Nat) : (h.modTmg f).fget w j = h.fget w j := rfl
@[simp] theorem Half.modTmg_flag (h : Half) (f : Tmg → Tmg) (w : Fld) (j : Nat) : (h.modTmg f).flag w j = h.flag w j := rfl
@[simp] theorem Half.modTmg_mainUp (h : Half) (f : Tmg → Tmg) : (h.modTmg f).mainUp = h.mainUp := rfl
@[simp] theorem Half.modTmg_own (h : Half) (f : Tmg → Tmg) : (h.modTmg f).own = h.own := rfl
@[simp] theorem Half.modTmg_frame (h : Half) (f : Tmg → Tmg) : (h.modTmg f).frame = h.frame := rfl
@[simp] theorem Half.modTmg_inHold (h : Half) (f : Tmg → Tmg) : (h.modTmg f).inHold = h.inHold := rfl
@[simp] theorem Half.modTmg_running (h : Half) (f : Tmg → Tmg) : (h.modTmg f).running = h.running := rfl

@[simp] theorem Half.setCap_id (h : Half) (v : Nat) (f : Cap → Cap) : (h.setCap v f).id = h.id := rfl
@[simp] theorem Half.setCap_regs (h : Half) (v : Nat) (f : Cap → Cap) : (h.setCap v f).regs = h.regs := rfl
@[simp] theorem Half.setCap_shadow (h : Half) (v : Nat) (f : Cap → Cap) : (h.setCap v f).shadow = h.shadow := rfl
@[simp] theorem Half.setCap_shadowLate (h : Half) (v : Nat) (f : Cap → Cap) : (h.setCap v f).shadowLate = h.shadowLate := rfl
@[simp] theorem Half.setCap_holdSample (h : Half) (v : Nat) (f : Cap → Cap) : (h.setCap v f).holdSample = h.holdSample := rfl
@[simp] theorem Half.setCap_latch (h : Half) (v : Nat) (f : Cap → Cap) : (h.setCap v f).latch = h.latch := rfl
@[simp] theorem Half.setCap_once (h : Half) (v : Nat) (f : Cap → Cap) : (h.setCap v f).once = h.once := rfl
@[simp] theorem Half.setCap_hist (h : Half) (v : Nat) (f : Cap → Cap) : (h.setCap v f).hist = h.hist := rfl
@[simp] theorem Half.setCap_hoTicks (h : Half) (v : Nat) (f : Cap → Cap) : (h.setCap v f).hoTicks = h.hoTicks := rfl
@[simp] theorem Half.setCap_errq (h : Half) (v : Nat) (f : Cap → Cap) : (h.setCap v f).errq = h.errq := rfl
@[simp] theorem Half.setCap_evc (h : Half) (v : Nat) (f : Cap → Cap) : (h.setCap v f).evc = h.evc := rfl
@[simp] theorem Half.setCap_isl (h : Half) (v : Nat) (f : Cap → Cap) : (h.setCap v f).isl = h.isl := rfl
@[simp] theorem Half.setCap_exy (h : Half) (v : Nat) (f : Cap → Cap) : (h.setCap v f).exy = h.exy := rfl
@[simp] theorem Half.setCap_tmg (h : Half) (v : Nat) (f : Cap → Cap) : (h.setCap v f).tmg = h.tmg := rfl
@[simp] theorem Half.setCap_front (h : Half) (v : Nat) (f : Cap → Cap) : (h.setCap v f).front = h.front := rfl
@[simp] theorem Half.setCap_lta (h : Half) (v : Nat) (f : Cap → Cap) : (h.setCap v f).lta = h.lta := rfl
@[simp] theorem Half.setCap_hbm (h : Half) (v : Nat) (f : Cap → Cap) : (h.setCap v f).hbm = h.hbm := rfl
@[simp] theorem Half.setCap_rdb (h : Half) (v : Nat) (f : Cap → Cap) : (h.setCap v f).rdb = h.rdb := rfl
@[simp] theorem Half.setCap_trw (h : Half) (v : Nat) (f : Cap → Cap) : (h.setCap v f).trw = h.trw := rfl
@[simp] theorem Half.setCap_caps (h : Half) (v : Nat) (f : Cap → Cap) : (h.setCap v f).caps = SMap.modify h.caps v Cap.reset f := rfl
@[simp] theorem Half.setCap_lanes (h : Half) (v : Nat) (f : Cap → Cap) : (h.setCap v f).lanes = h.lanes := rfl
@[simp] theorem Half.setCap_xch (h : Half) (v : Nat) (f : Cap → Cap) : (h.setCap v f).xch = h.xch := rfl
@[simp] theorem Half.setCap_arc (h : Half) (v : Nat) (f : Cap → Cap) : (h.setCap v f).arc = h.arc := rfl
@[simp] theorem Half.setCap_bmf (h : Half) (v : Nat) (f : Cap → Cap) : (h.setCap v f).bmf = h.bmf := rfl
@[simp] theorem Half.setCap_stage (h : Half) (v : Nat) (f : Cap → Cap) : (h.setCap v f).stage = h.stage := rfl
@[simp] theorem Half.setCap_fatal (h : Half) (v : Nat) (f : Cap → Cap) : (h.setCap v f).fatal = h.fatal := rfl
@[simp] theorem Half.setCap_out (h : Half) (v : Nat) (f : Cap → Cap) : (h.setCap v f).out = h.out := rfl
@[simp] theorem Half.setCap_get (h : Half) (v : Nat) (f : Cap → Cap) (w : RegDef) (j : Nat) : (h.setCap v f).get w j = h.get w j := rfl
@[simp] theorem Half.setCap_getN (h : Half) (v : Nat) (f : Cap → Cap) (w : RegDef) (j : Nat) : (h.setCap v f).getN w j = h.getN w j := rfl
@[simp] theorem Half.setCap_fget (h : Half) (v : Nat) (f : Cap → Cap) (w : Fld) (j : Nat) : (h.setCap v f).fget w j = h.fget w j := rfl
@[simp] theorem Half.setCap_flag (h : Half) (v : Nat) (f : Cap → Cap) (w : Fld) (j : Nat) : (h.setCap v f).flag w j = h.flag w j := rfl
@[simp] theorem Half.setCap_mainUp (h : Half) (v : Nat) (f : Cap → Cap) : (h.setCap v f).mainUp = h.mainUp := rfl
@[simp] theorem Half.setCap_own (h : Half) (v : Nat) (f : Cap → Cap) : (h.setCap v f).own = h.own := rfl
@[simp] theorem Half.setCap_frame (h : Half) (v : Nat) (f : Cap → Cap) : (h.setCap v f).frame = h.frame := rfl
@[simp] theorem Half.setCap_inHold (h : Half) (v : Nat) (f : Cap → Cap) : (h.setCap v f).inHold = h.inHold := rfl
@[simp] theorem Half.setCap_running (h : Half) (v : Nat) (f : Cap → Cap) : (h.setCap v f).running = h.running := rfl

@[simp] theorem Half.setLane_id (h : Half) (n : Nat) (f : Lane → Lane) : (h.setLane n f).id = h.id := rfl
@[simp] theorem Half.setLane_regs (h : Half) (n : Nat) (f : Lane → Lane) : (h.setLane n f).regs = h.regs := rfl
@[simp] theorem Half.setLane_shadow (h : Half) (n : Nat) (f : Lane → Lane) : (h.setLane n f).shadow = h.shadow := rfl
@[simp] theorem Half.setLane_shadowLate (h : Half) (n : Nat) (f : Lane → Lane) : (h.setLane n f).shadowLate = h.shadowLate := rfl
@[simp] theorem Half.setLane_holdSample (h : Half) (n : Nat) (f : Lane → Lane) : (h.setLane n f).holdSample = h.holdSample := rfl
@[simp] theorem Half.setLane_latch (h : Half) (n : Nat) (f : Lane → Lane) : (h.setLane n f).latch = h.latch := rfl
@[simp] theorem Half.setLane_once (h : Half) (n : Nat) (f : Lane → Lane) : (h.setLane n f).once = h.once := rfl
@[simp] theorem Half.setLane_hist (h : Half) (n : Nat) (f : Lane → Lane) : (h.setLane n f).hist = h.hist := rfl
@[simp] theorem Half.setLane_hoTicks (h : Half) (n : Nat) (f : Lane → Lane) : (h.setLane n f).hoTicks = h.hoTicks := rfl
@[simp] theorem Half.setLane_errq (h : Half) (n : Nat) (f : Lane → Lane) : (h.setLane n f).errq = h.errq := rfl
@[simp] theorem Half.setLane_evc (h : Half) (n : Nat) (f : Lane → Lane) : (h.setLane n f).evc = h.evc := rfl
@[simp] theorem Half.setLane_isl (h : Half) (n : Nat) (f : Lane → Lane) : (h.setLane n f).isl = h.isl := rfl
@[simp] theorem Half.setLane_exy (h : Half) (n : Nat) (f : Lane → Lane) : (h.setLane n f).exy = h.exy := rfl
@[simp] theorem Half.setLane_tmg (h : Half) (n : Nat) (f : Lane → Lane) : (h.setLane n f).tmg = h.tmg := rfl
@[simp] theorem Half.setLane_front (h : Half) (n : Nat) (f : Lane → Lane) : (h.setLane n f).front = h.front := rfl
@[simp] theorem Half.setLane_lta (h : Half) (n : Nat) (f : Lane → Lane) : (h.setLane n f).lta = h.lta := rfl
@[simp] theorem Half.setLane_hbm (h : Half) (n : Nat) (f : Lane → Lane) : (h.setLane n f).hbm = h.hbm := rfl
@[simp] theorem Half.setLane_rdb (h : Half) (n : Nat) (f : Lane → Lane) : (h.setLane n f).rdb = h.rdb := rfl
@[simp] theorem Half.setLane_trw (h : Half) (n : Nat) (f : Lane → Lane) : (h.setLane n f).trw = h.trw := rfl
@[simp] theorem Half.setLane_caps (h : Half) (n : Nat) (f : Lane → Lane) : (h.setLane n f).caps = h.caps := rfl
@[simp] theorem Half.setLane_lanes (h : Half) (n : Nat) (f : Lane → Lane) : (h.setLane n f).lanes = SMap.modify h.lanes n Lane.reset f := rfl
@[simp] theorem Half.setLane_xch (h : Half) (n : Nat) (f : Lane → Lane) : (h.setLane n f).xch = h.xch := rfl
@[simp] theorem Half.setLane_arc (h : Half) (n : Nat) (f : Lane → Lane) : (h.setLane n f).arc = h.arc := rfl
@[simp] theorem Half.setLane_bmf (h : Half) (n : Nat) (f : Lane → Lane) : (h.setLane n f).bmf = h.bmf := rfl
@[simp] theorem Half.setLane_stage (h : Half) (n : Nat) (f : Lane → Lane) : (h.setLane n f).stage = h.stage := rfl
@[simp] theorem Half.setLane_fatal (h : Half) (n : Nat) (f : Lane → Lane) : (h.setLane n f).fatal = h.fatal := rfl
@[simp] theorem Half.setLane_out (h : Half) (n : Nat) (f : Lane → Lane) : (h.setLane n f).out = h.out := rfl
@[simp] theorem Half.setLane_get (h : Half) (n : Nat) (f : Lane → Lane) (w : RegDef) (j : Nat) : (h.setLane n f).get w j = h.get w j := rfl
@[simp] theorem Half.setLane_getN (h : Half) (n : Nat) (f : Lane → Lane) (w : RegDef) (j : Nat) : (h.setLane n f).getN w j = h.getN w j := rfl
@[simp] theorem Half.setLane_fget (h : Half) (n : Nat) (f : Lane → Lane) (w : Fld) (j : Nat) : (h.setLane n f).fget w j = h.fget w j := rfl
@[simp] theorem Half.setLane_flag (h : Half) (n : Nat) (f : Lane → Lane) (w : Fld) (j : Nat) : (h.setLane n f).flag w j = h.flag w j := rfl
@[simp] theorem Half.setLane_mainUp (h : Half) (n : Nat) (f : Lane → Lane) : (h.setLane n f).mainUp = h.mainUp := rfl
@[simp] theorem Half.setLane_own (h : Half) (n : Nat) (f : Lane → Lane) : (h.setLane n f).own = h.own := rfl
@[simp] theorem Half.setLane_frame (h : Half) (n : Nat) (f : Lane → Lane) : (h.setLane n f).frame = h.frame := rfl
@[simp] theorem Half.setLane_inHold (h : Half) (n : Nat) (f : Lane → Lane) : (h.setLane n f).inHold = h.inHold := rfl
@[simp] theorem Half.setLane_running (h : Half) (n : Nat) (f : Lane → Lane) : (h.setLane n f).running = h.running := rfl

@[simp] theorem Half.setInp_id (h : Half) (q : Nat) (f : Inp → Inp) : (h.setInp q f).id = h.id := rfl
@[simp] theorem Half.setInp_regs (h : Half) (q : Nat) (f : Inp → Inp) : (h.setInp q f).regs = h.regs := rfl
@[simp] theorem Half.setInp_shadow (h : Half) (q : Nat) (f : Inp → Inp) : (h.setInp q f).shadow = h.shadow := rfl
@[simp] theorem Half.setInp_shadowLate (h : Half) (q : Nat) (f : Inp → Inp) : (h.setInp q f).shadowLate = h.shadowLate := rfl
@[simp] theorem Half.setInp_holdSample (h : Half) (q : Nat) (f : Inp → Inp) : (h.setInp q f).holdSample = h.holdSample := rfl
@[simp] theorem Half.setInp_latch (h : Half) (q : Nat) (f : Inp → Inp) : (h.setInp q f).latch = h.latch := rfl
@[simp] theorem Half.setInp_once (h : Half) (q : Nat) (f : Inp → Inp) : (h.setInp q f).once = h.once := rfl
@[simp] theorem Half.setInp_hist (h : Half) (q : Nat) (f : Inp → Inp) : (h.setInp q f).hist = h.hist := rfl
@[simp] theorem Half.setInp_hoTicks (h : Half) (q : Nat) (f : Inp → Inp) : (h.setInp q f).hoTicks = h.hoTicks := rfl
@[simp] theorem Half.setInp_errq (h : Half) (q : Nat) (f : Inp → Inp) : (h.setInp q f).errq = h.errq := rfl
@[simp] theorem Half.setInp_evc (h : Half) (q : Nat) (f : Inp → Inp) : (h.setInp q f).evc = h.evc := rfl
@[simp] theorem Half.setInp_isl (h : Half) (q : Nat) (f : Inp → Inp) : (h.setInp q f).isl = h.isl := rfl
@[simp] theorem Half.setInp_exy (h : Half) (q : Nat) (f : Inp → Inp) : (h.setInp q f).exy = h.exy := rfl
@[simp] theorem Half.setInp_tmg (h : Half) (q : Nat) (f : Inp → Inp) : (h.setInp q f).tmg = h.tmg := rfl
@[simp] theorem Half.setInp_lta (h : Half) (q : Nat) (f : Inp → Inp) : (h.setInp q f).lta = h.lta := rfl
@[simp] theorem Half.setInp_hbm (h : Half) (q : Nat) (f : Inp → Inp) : (h.setInp q f).hbm = h.hbm := rfl
@[simp] theorem Half.setInp_rdb (h : Half) (q : Nat) (f : Inp → Inp) : (h.setInp q f).rdb = h.rdb := rfl
@[simp] theorem Half.setInp_trw (h : Half) (q : Nat) (f : Inp → Inp) : (h.setInp q f).trw = h.trw := rfl
@[simp] theorem Half.setInp_caps (h : Half) (q : Nat) (f : Inp → Inp) : (h.setInp q f).caps = h.caps := rfl
@[simp] theorem Half.setInp_lanes (h : Half) (q : Nat) (f : Inp → Inp) : (h.setInp q f).lanes = h.lanes := rfl
@[simp] theorem Half.setInp_xch (h : Half) (q : Nat) (f : Inp → Inp) : (h.setInp q f).xch = h.xch := rfl
@[simp] theorem Half.setInp_arc (h : Half) (q : Nat) (f : Inp → Inp) : (h.setInp q f).arc = h.arc := rfl
@[simp] theorem Half.setInp_bmf (h : Half) (q : Nat) (f : Inp → Inp) : (h.setInp q f).bmf = h.bmf := rfl
@[simp] theorem Half.setInp_stage (h : Half) (q : Nat) (f : Inp → Inp) : (h.setInp q f).stage = h.stage := rfl
@[simp] theorem Half.setInp_fatal (h : Half) (q : Nat) (f : Inp → Inp) : (h.setInp q f).fatal = h.fatal := rfl
@[simp] theorem Half.setInp_out (h : Half) (q : Nat) (f : Inp → Inp) : (h.setInp q f).out = h.out := rfl
@[simp] theorem Half.setInp_get (h : Half) (q : Nat) (f : Inp → Inp) (w : RegDef) (j : Nat) : (h.setInp q f).get w j = h.get w j := rfl
@[simp] theorem Half.setInp_getN (h : Half) (q : Nat) (f : Inp → Inp) (w : RegDef) (j : Nat) : (h.setInp q f).getN w j = h.getN w j := rfl
@[simp] theorem Half.setInp_fget (h : Half) (q : Nat) (f : Inp → Inp) (w : Fld) (j : Nat) : (h.setInp q f).fget w j = h.fget w j := rfl
@[simp] theorem Half.setInp_flag (h : Half) (q : Nat) (f : Inp → Inp) (w : Fld) (j : Nat) : (h.setInp q f).flag w j = h.flag w j := rfl
@[simp] theorem Half.setInp_mainUp (h : Half) (q : Nat) (f : Inp → Inp) : (h.setInp q f).mainUp = h.mainUp := rfl
@[simp] theorem Half.setInp_own (h : Half) (q : Nat) (f : Inp → Inp) : (h.setInp q f).own = h.own := rfl
@[simp] theorem Half.setInp_frame (h : Half) (q : Nat) (f : Inp → Inp) : (h.setInp q f).frame = h.frame := rfl
@[simp] theorem Half.setInp_inHold (h : Half) (q : Nat) (f : Inp → Inp) : (h.setInp q f).inHold = h.inHold := rfl
@[simp] theorem Half.setInp_running (h : Half) (q : Nat) (f : Inp → Inp) : (h.setInp q f).running = h.running := rfl

@[simp] theorem Half.setXlane_id (h : Half) (n : Nat) (f : XLane → XLane) : (h.setXlane n f).id = h.id := rfl
@[simp] theorem Half.setXlane_regs (h : Half) (n : Nat) (f : XLane → XLane) : (h.setXlane n f).regs = h.regs := rfl
@[simp] theorem Half.setXlane_shadow (h : Half) (n : Nat) (f : XLane → XLane) : (h.setXlane n f).shadow = h.shadow := rfl
@[simp] theorem Half.setXlane_shadowLate (h : Half) (n : Nat) (f : XLane → XLane) : (h.setXlane n f).shadowLate = h.shadowLate := rfl
@[simp] theorem Half.setXlane_holdSample (h : Half) (n : Nat) (f : XLane → XLane) : (h.setXlane n f).holdSample = h.holdSample := rfl
@[simp] theorem Half.setXlane_latch (h : Half) (n : Nat) (f : XLane → XLane) : (h.setXlane n f).latch = h.latch := rfl
@[simp] theorem Half.setXlane_once (h : Half) (n : Nat) (f : XLane → XLane) : (h.setXlane n f).once = h.once := rfl
@[simp] theorem Half.setXlane_hist (h : Half) (n : Nat) (f : XLane → XLane) : (h.setXlane n f).hist = h.hist := rfl
@[simp] theorem Half.setXlane_hoTicks (h : Half) (n : Nat) (f : XLane → XLane) : (h.setXlane n f).hoTicks = h.hoTicks := rfl
@[simp] theorem Half.setXlane_errq (h : Half) (n : Nat) (f : XLane → XLane) : (h.setXlane n f).errq = h.errq := rfl
@[simp] theorem Half.setXlane_evc (h : Half) (n : Nat) (f : XLane → XLane) : (h.setXlane n f).evc = h.evc := rfl
@[simp] theorem Half.setXlane_isl (h : Half) (n : Nat) (f : XLane → XLane) : (h.setXlane n f).isl = h.isl := rfl
@[simp] theorem Half.setXlane_exy (h : Half) (n : Nat) (f : XLane → XLane) : (h.setXlane n f).exy = h.exy := rfl
@[simp] theorem Half.setXlane_tmg (h : Half) (n : Nat) (f : XLane → XLane) : (h.setXlane n f).tmg = h.tmg := rfl
@[simp] theorem Half.setXlane_front (h : Half) (n : Nat) (f : XLane → XLane) : (h.setXlane n f).front = h.front := rfl
@[simp] theorem Half.setXlane_lta (h : Half) (n : Nat) (f : XLane → XLane) : (h.setXlane n f).lta = h.lta := rfl
@[simp] theorem Half.setXlane_hbm (h : Half) (n : Nat) (f : XLane → XLane) : (h.setXlane n f).hbm = h.hbm := rfl
@[simp] theorem Half.setXlane_rdb (h : Half) (n : Nat) (f : XLane → XLane) : (h.setXlane n f).rdb = h.rdb := rfl
@[simp] theorem Half.setXlane_trw (h : Half) (n : Nat) (f : XLane → XLane) : (h.setXlane n f).trw = h.trw := rfl
@[simp] theorem Half.setXlane_caps (h : Half) (n : Nat) (f : XLane → XLane) : (h.setXlane n f).caps = h.caps := rfl
@[simp] theorem Half.setXlane_lanes (h : Half) (n : Nat) (f : XLane → XLane) : (h.setXlane n f).lanes = h.lanes := rfl
@[simp] theorem Half.setXlane_arc (h : Half) (n : Nat) (f : XLane → XLane) : (h.setXlane n f).arc = h.arc := rfl
@[simp] theorem Half.setXlane_bmf (h : Half) (n : Nat) (f : XLane → XLane) : (h.setXlane n f).bmf = h.bmf := rfl
@[simp] theorem Half.setXlane_stage (h : Half) (n : Nat) (f : XLane → XLane) : (h.setXlane n f).stage = h.stage := rfl
@[simp] theorem Half.setXlane_fatal (h : Half) (n : Nat) (f : XLane → XLane) : (h.setXlane n f).fatal = h.fatal := rfl
@[simp] theorem Half.setXlane_out (h : Half) (n : Nat) (f : XLane → XLane) : (h.setXlane n f).out = h.out := rfl
@[simp] theorem Half.setXlane_get (h : Half) (n : Nat) (f : XLane → XLane) (w : RegDef) (j : Nat) : (h.setXlane n f).get w j = h.get w j := rfl
@[simp] theorem Half.setXlane_getN (h : Half) (n : Nat) (f : XLane → XLane) (w : RegDef) (j : Nat) : (h.setXlane n f).getN w j = h.getN w j := rfl
@[simp] theorem Half.setXlane_fget (h : Half) (n : Nat) (f : XLane → XLane) (w : Fld) (j : Nat) : (h.setXlane n f).fget w j = h.fget w j := rfl
@[simp] theorem Half.setXlane_flag (h : Half) (n : Nat) (f : XLane → XLane) (w : Fld) (j : Nat) : (h.setXlane n f).flag w j = h.flag w j := rfl
@[simp] theorem Half.setXlane_mainUp (h : Half) (n : Nat) (f : XLane → XLane) : (h.setXlane n f).mainUp = h.mainUp := rfl
@[simp] theorem Half.setXlane_own (h : Half) (n : Nat) (f : XLane → XLane) : (h.setXlane n f).own = h.own := rfl
@[simp] theorem Half.setXlane_frame (h : Half) (n : Nat) (f : XLane → XLane) : (h.setXlane n f).frame = h.frame := rfl
@[simp] theorem Half.setXlane_inHold (h : Half) (n : Nat) (f : XLane → XLane) : (h.setXlane n f).inHold = h.inHold := rfl
@[simp] theorem Half.setXlane_running (h : Half) (n : Nat) (f : XLane → XLane) : (h.setXlane n f).running = h.running := rfl

@[simp] theorem Half.setLink_id (h : Half) (p : Nat) (f : Link → Link) : (h.setLink p f).id = h.id := rfl
@[simp] theorem Half.setLink_regs (h : Half) (p : Nat) (f : Link → Link) : (h.setLink p f).regs = h.regs := rfl
@[simp] theorem Half.setLink_shadow (h : Half) (p : Nat) (f : Link → Link) : (h.setLink p f).shadow = h.shadow := rfl
@[simp] theorem Half.setLink_shadowLate (h : Half) (p : Nat) (f : Link → Link) : (h.setLink p f).shadowLate = h.shadowLate := rfl
@[simp] theorem Half.setLink_holdSample (h : Half) (p : Nat) (f : Link → Link) : (h.setLink p f).holdSample = h.holdSample := rfl
@[simp] theorem Half.setLink_latch (h : Half) (p : Nat) (f : Link → Link) : (h.setLink p f).latch = h.latch := rfl
@[simp] theorem Half.setLink_once (h : Half) (p : Nat) (f : Link → Link) : (h.setLink p f).once = h.once := rfl
@[simp] theorem Half.setLink_hist (h : Half) (p : Nat) (f : Link → Link) : (h.setLink p f).hist = h.hist := rfl
@[simp] theorem Half.setLink_hoTicks (h : Half) (p : Nat) (f : Link → Link) : (h.setLink p f).hoTicks = h.hoTicks := rfl
@[simp] theorem Half.setLink_errq (h : Half) (p : Nat) (f : Link → Link) : (h.setLink p f).errq = h.errq := rfl
@[simp] theorem Half.setLink_evc (h : Half) (p : Nat) (f : Link → Link) : (h.setLink p f).evc = h.evc := rfl
@[simp] theorem Half.setLink_isl (h : Half) (p : Nat) (f : Link → Link) : (h.setLink p f).isl = h.isl := rfl
@[simp] theorem Half.setLink_exy (h : Half) (p : Nat) (f : Link → Link) : (h.setLink p f).exy = h.exy := rfl
@[simp] theorem Half.setLink_tmg (h : Half) (p : Nat) (f : Link → Link) : (h.setLink p f).tmg = h.tmg := rfl
@[simp] theorem Half.setLink_front (h : Half) (p : Nat) (f : Link → Link) : (h.setLink p f).front = h.front := rfl
@[simp] theorem Half.setLink_lta (h : Half) (p : Nat) (f : Link → Link) : (h.setLink p f).lta = h.lta := rfl
@[simp] theorem Half.setLink_hbm (h : Half) (p : Nat) (f : Link → Link) : (h.setLink p f).hbm = h.hbm := rfl
@[simp] theorem Half.setLink_rdb (h : Half) (p : Nat) (f : Link → Link) : (h.setLink p f).rdb = h.rdb := rfl
@[simp] theorem Half.setLink_trw (h : Half) (p : Nat) (f : Link → Link) : (h.setLink p f).trw = h.trw := rfl
@[simp] theorem Half.setLink_caps (h : Half) (p : Nat) (f : Link → Link) : (h.setLink p f).caps = h.caps := rfl
@[simp] theorem Half.setLink_lanes (h : Half) (p : Nat) (f : Link → Link) : (h.setLink p f).lanes = h.lanes := rfl
@[simp] theorem Half.setLink_arc (h : Half) (p : Nat) (f : Link → Link) : (h.setLink p f).arc = h.arc := rfl
@[simp] theorem Half.setLink_bmf (h : Half) (p : Nat) (f : Link → Link) : (h.setLink p f).bmf = h.bmf := rfl
@[simp] theorem Half.setLink_stage (h : Half) (p : Nat) (f : Link → Link) : (h.setLink p f).stage = h.stage := rfl
@[simp] theorem Half.setLink_fatal (h : Half) (p : Nat) (f : Link → Link) : (h.setLink p f).fatal = h.fatal := rfl
@[simp] theorem Half.setLink_out (h : Half) (p : Nat) (f : Link → Link) : (h.setLink p f).out = h.out := rfl
@[simp] theorem Half.setLink_get (h : Half) (p : Nat) (f : Link → Link) (w : RegDef) (j : Nat) : (h.setLink p f).get w j = h.get w j := rfl
@[simp] theorem Half.setLink_getN (h : Half) (p : Nat) (f : Link → Link) (w : RegDef) (j : Nat) : (h.setLink p f).getN w j = h.getN w j := rfl
@[simp] theorem Half.setLink_fget (h : Half) (p : Nat) (f : Link → Link) (w : Fld) (j : Nat) : (h.setLink p f).fget w j = h.fget w j := rfl
@[simp] theorem Half.setLink_flag (h : Half) (p : Nat) (f : Link → Link) (w : Fld) (j : Nat) : (h.setLink p f).flag w j = h.flag w j := rfl
@[simp] theorem Half.setLink_mainUp (h : Half) (p : Nat) (f : Link → Link) : (h.setLink p f).mainUp = h.mainUp := rfl
@[simp] theorem Half.setLink_own (h : Half) (p : Nat) (f : Link → Link) : (h.setLink p f).own = h.own := rfl
@[simp] theorem Half.setLink_frame (h : Half) (p : Nat) (f : Link → Link) : (h.setLink p f).frame = h.frame := rfl
@[simp] theorem Half.setLink_inHold (h : Half) (p : Nat) (f : Link → Link) : (h.setLink p f).inHold = h.inHold := rfl
@[simp] theorem Half.setLink_running (h : Half) (p : Nat) (f : Link → Link) : (h.setLink p f).running = h.running := rfl

@[simp] theorem Half.setEng_id (h : Half) (r : Nat) (f : RingEng → RingEng) : (h.setEng r f).id = h.id := rfl
@[simp] theorem Half.setEng_regs (h : Half) (r : Nat) (f : RingEng → RingEng) : (h.setEng r f).regs = h.regs := rfl
@[simp] theorem Half.setEng_shadow (h : Half) (r : Nat) (f : RingEng → RingEng) : (h.setEng r f).shadow = h.shadow := rfl
@[simp] theorem Half.setEng_shadowLate (h : Half) (r : Nat) (f : RingEng → RingEng) : (h.setEng r f).shadowLate = h.shadowLate := rfl
@[simp] theorem Half.setEng_holdSample (h : Half) (r : Nat) (f : RingEng → RingEng) : (h.setEng r f).holdSample = h.holdSample := rfl
@[simp] theorem Half.setEng_latch (h : Half) (r : Nat) (f : RingEng → RingEng) : (h.setEng r f).latch = h.latch := rfl
@[simp] theorem Half.setEng_once (h : Half) (r : Nat) (f : RingEng → RingEng) : (h.setEng r f).once = h.once := rfl
@[simp] theorem Half.setEng_hist (h : Half) (r : Nat) (f : RingEng → RingEng) : (h.setEng r f).hist = h.hist := rfl
@[simp] theorem Half.setEng_hoTicks (h : Half) (r : Nat) (f : RingEng → RingEng) : (h.setEng r f).hoTicks = h.hoTicks := rfl
@[simp] theorem Half.setEng_errq (h : Half) (r : Nat) (f : RingEng → RingEng) : (h.setEng r f).errq = h.errq := rfl
@[simp] theorem Half.setEng_evc (h : Half) (r : Nat) (f : RingEng → RingEng) : (h.setEng r f).evc = h.evc := rfl
@[simp] theorem Half.setEng_isl (h : Half) (r : Nat) (f : RingEng → RingEng) : (h.setEng r f).isl = h.isl := rfl
@[simp] theorem Half.setEng_exy (h : Half) (r : Nat) (f : RingEng → RingEng) : (h.setEng r f).exy = h.exy := rfl
@[simp] theorem Half.setEng_tmg (h : Half) (r : Nat) (f : RingEng → RingEng) : (h.setEng r f).tmg = h.tmg := rfl
@[simp] theorem Half.setEng_front (h : Half) (r : Nat) (f : RingEng → RingEng) : (h.setEng r f).front = h.front := rfl
@[simp] theorem Half.setEng_lta (h : Half) (r : Nat) (f : RingEng → RingEng) : (h.setEng r f).lta = h.lta := rfl
@[simp] theorem Half.setEng_hbm (h : Half) (r : Nat) (f : RingEng → RingEng) : (h.setEng r f).hbm = h.hbm := rfl
@[simp] theorem Half.setEng_rdb (h : Half) (r : Nat) (f : RingEng → RingEng) : (h.setEng r f).rdb = h.rdb := rfl
@[simp] theorem Half.setEng_caps (h : Half) (r : Nat) (f : RingEng → RingEng) : (h.setEng r f).caps = h.caps := rfl
@[simp] theorem Half.setEng_lanes (h : Half) (r : Nat) (f : RingEng → RingEng) : (h.setEng r f).lanes = h.lanes := rfl
@[simp] theorem Half.setEng_xch (h : Half) (r : Nat) (f : RingEng → RingEng) : (h.setEng r f).xch = h.xch := rfl
@[simp] theorem Half.setEng_arc (h : Half) (r : Nat) (f : RingEng → RingEng) : (h.setEng r f).arc = h.arc := rfl
@[simp] theorem Half.setEng_bmf (h : Half) (r : Nat) (f : RingEng → RingEng) : (h.setEng r f).bmf = h.bmf := rfl
@[simp] theorem Half.setEng_stage (h : Half) (r : Nat) (f : RingEng → RingEng) : (h.setEng r f).stage = h.stage := rfl
@[simp] theorem Half.setEng_fatal (h : Half) (r : Nat) (f : RingEng → RingEng) : (h.setEng r f).fatal = h.fatal := rfl
@[simp] theorem Half.setEng_out (h : Half) (r : Nat) (f : RingEng → RingEng) : (h.setEng r f).out = h.out := rfl
@[simp] theorem Half.setEng_get (h : Half) (r : Nat) (f : RingEng → RingEng) (w : RegDef) (j : Nat) : (h.setEng r f).get w j = h.get w j := rfl
@[simp] theorem Half.setEng_getN (h : Half) (r : Nat) (f : RingEng → RingEng) (w : RegDef) (j : Nat) : (h.setEng r f).getN w j = h.getN w j := rfl
@[simp] theorem Half.setEng_fget (h : Half) (r : Nat) (f : RingEng → RingEng) (w : Fld) (j : Nat) : (h.setEng r f).fget w j = h.fget w j := rfl
@[simp] theorem Half.setEng_flag (h : Half) (r : Nat) (f : RingEng → RingEng) (w : Fld) (j : Nat) : (h.setEng r f).flag w j = h.flag w j := rfl
@[simp] theorem Half.setEng_mainUp (h : Half) (r : Nat) (f : RingEng → RingEng) : (h.setEng r f).mainUp = h.mainUp := rfl
@[simp] theorem Half.setEng_own (h : Half) (r : Nat) (f : RingEng → RingEng) : (h.setEng r f).own = h.own := rfl
@[simp] theorem Half.setEng_frame (h : Half) (r : Nat) (f : RingEng → RingEng) : (h.setEng r f).frame = h.frame := rfl
@[simp] theorem Half.setEng_inHold (h : Half) (r : Nat) (f : RingEng → RingEng) : (h.setEng r f).inHold = h.inHold := rfl
@[simp] theorem Half.setEng_running (h : Half) (r : Nat) (f : RingEng → RingEng) : (h.setEng r f).running = h.running := rfl

end Sys2Proof.Machine
end

