-- ==== Sys2Proof/Laws/Regs.lean ====
section
/-! SUPPORT. Reads of a sparse table after a write, and of register words and fields after a write of one. -/

namespace Sys2Proof.Machine

/-! ### Sparse tables -/

@[simp] theorem SMap.find?_insert_same {α : Type} (m : SMap α) (k : Nat) (v : α) : SMap.find? (SMap.insert m k v) k = some v := by
  induction m with
  | nil => simp [SMap.insert, SMap.find?]
  | cons e m ih =>
    obtain ⟨k', w⟩ := e
    simp only [SMap.insert]
    split
    · simp [SMap.find?]
    · split
      · simp [SMap.find?]
      · rename_i _ hne
        simpa [SMap.find?, hne] using ih

theorem SMap.find?_insert_other {α : Type} (m : SMap α) {k j : Nat} (v : α) (hne : j ≠ k) :
    SMap.find? (SMap.insert m k v) j = SMap.find? m j := by
  induction m with
  | nil => simp [SMap.insert, SMap.find?, hne]
  | cons e m ih =>
    obtain ⟨k', w⟩ := e
    simp only [SMap.insert]
    split
    · simp [SMap.find?, hne]
    · split
      · rename_i _ heq
        subst heq
        simp [SMap.find?, hne]
      · simp only [SMap.find?]
        split
        · rfl
        · exact ih

@[simp] theorem SMap.getD_insert_same {α : Type} (m : SMap α) (k : Nat) (v d : α) : SMap.getD (SMap.insert m k v) k d = v := by
  simp [SMap.getD]

theorem SMap.getD_insert_other {α : Type} (m : SMap α) {k j : Nat} (v d : α) (hne : j ≠ k) :
    SMap.getD (SMap.insert m k v) j d = SMap.getD m j d := by
  simp [SMap.getD, SMap.find?_insert_other m v hne]

@[simp] theorem SMap.getD_modify_same {α : Type} (m : SMap α) (k : Nat) (d : α) (f : α → α) :
    SMap.getD (SMap.modify m k d f) k d = f (SMap.getD m k d) := by
  simp [SMap.modify]

theorem SMap.getD_modify_other {α : Type} (m : SMap α) {k j : Nat} (d e : α) (f : α → α) (hne : j ≠ k) :
    SMap.getD (SMap.modify m k d f) j e = SMap.getD m j e := by
  simp [SMap.modify, SMap.getD_insert_other m _ _ hne]

/-! ### Register words -/

@[simp] theorem Half.get_put_same (h : Half) (r : RegDef) (w : Word) (i : Nat) : (h.put r w i).get r i = w := by
  simp [Half.get, Half.put]

theorem Half.get_put_other (h : Half) {r q : RegDef} (w : Word) {i j : Nat} (hne : q.at j ≠ r.at i) :
    (h.put r w i).get q j = h.get q j := by
  simp [Half.get, Half.put, SMap.find?_insert_other h.regs w hne]

/-- A word read by value depends only on its offset, so a word at the same offset reads what was put there. -/
theorem Half.get_put (h : Half) (r q : RegDef) (w : Word) (i j : Nat) :
    (h.put r w i).get q j = if q.at j = r.at i then w else h.get q j := by
  split
  · rename_i heq
    simp [Half.get, Half.put, heq]
  · rename_i hne
    exact h.get_put_other w hne

theorem Half.getN_putN (h : Half) (r q : RegDef) (n i j : Nat) :
    (h.putN r n i).getN q j = if q.at j = r.at i then n % 2 ^ 32 else h.getN q j := by
  simp only [Half.getN, Half.putN, Half.get_put]
  split <;> simp

@[simp] theorem Half.getN_putN_same (h : Half) (r : RegDef) (n i : Nat) : (h.putN r n i).getN r i = n % 2 ^ 32 := by
  simp [Half.getN, Half.putN]

theorem Half.getN_putN_other (h : Half) {r q : RegDef} (n : Nat) {i j : Nat} (hne : q.at j ≠ r.at i) :
    (h.putN r n i).getN q j = h.getN q j := by
  simp [Half.getN_putN, hne]

theorem Half.getN_lt (h : Half) (r : RegDef) (i : Nat) : h.getN r i < 2 ^ 32 := (h.get r i).isLt

/-! ### Fields -/

theorem setBits_lt (w hi lo v n : Nat) (hw : w < 2 ^ n) (hhi : hi < n) (hlo : lo ≤ hi) : setBits w hi lo v < 2 ^ n := by
  unfold setBits
  have h1 : w / 2 ^ (hi + 1) * 2 ^ (hi + 1) + 2 ^ (hi + 1) ≤ 2 ^ n := by
    have hn : (2 : Nat) ^ n = 2 ^ (n - (hi + 1)) * 2 ^ (hi + 1) := by rw [← Nat.pow_add]; congr 1; omega
    have : w / 2 ^ (hi + 1) < 2 ^ (n - (hi + 1)) := by
      rw [Nat.div_lt_iff_lt_mul (Nat.two_pow_pos _), ← hn]; exact hw
    rw [hn, ← Nat.succ_mul]
    exact Nat.mul_le_mul_right _ this
  have h2 : v % 2 ^ (hi + 1 - lo) * 2 ^ lo + w % 2 ^ lo < 2 ^ (hi + 1) := by
    have hv : v % 2 ^ (hi + 1 - lo) < 2 ^ (hi + 1 - lo) := Nat.mod_lt _ (Nat.two_pow_pos _)
    have hl : w % 2 ^ lo < 2 ^ lo := Nat.mod_lt _ (Nat.two_pow_pos _)
    have hs : (2 : Nat) ^ (hi + 1) = 2 ^ (hi + 1 - lo) * 2 ^ lo := by rw [← Nat.pow_add]; congr 1; omega
    calc _ < v % 2 ^ (hi + 1 - lo) * 2 ^ lo + 2 ^ lo := by omega
      _ = (v % 2 ^ (hi + 1 - lo) + 1) * 2 ^ lo := by rw [Nat.succ_mul]
      _ ≤ 2 ^ (hi + 1 - lo) * 2 ^ lo := Nat.mul_le_mul_right _ hv
      _ = _ := hs.symm
  omega

theorem setBits_testBit (w hi lo v i : Nat) (hlo : lo ≤ hi + 1) :
    (setBits w hi lo v).testBit i = if hi < i then w.testBit i else if lo ≤ i then v.testBit (i - lo) else w.testBit i := by
  have hl : w % 2 ^ lo < 2 ^ lo := Nat.mod_lt _ (Nat.two_pow_pos _)
  have hv : v % 2 ^ (hi + 1 - lo) * 2 ^ lo + w % 2 ^ lo < 2 ^ (hi + 1) := by
    have hv : v % 2 ^ (hi + 1 - lo) < 2 ^ (hi + 1 - lo) := Nat.mod_lt _ (Nat.two_pow_pos _)
    have hs : (2 : Nat) ^ (hi + 1) = 2 ^ (hi + 1 - lo) * 2 ^ lo := by rw [← Nat.pow_add]; congr 1; omega
    calc _ < v % 2 ^ (hi + 1 - lo) * 2 ^ lo + 2 ^ lo := by omega
      _ = (v % 2 ^ (hi + 1 - lo) + 1) * 2 ^ lo := by rw [Nat.succ_mul]
      _ ≤ 2 ^ (hi + 1 - lo) * 2 ^ lo := Nat.mul_le_mul_right _ hv
      _ = _ := hs.symm
  unfold setBits
  rw [Nat.add_assoc, Nat.mul_comm (w / _), Nat.two_pow_add_eq_or_of_lt hv, Nat.mul_comm (v % _), Nat.two_pow_add_eq_or_of_lt hl]
  simp only [Nat.testBit_or, Nat.testBit_two_pow_mul, Nat.testBit_div_two_pow, Nat.testBit_mod_two_pow]
  by_cases h1 : hi < i
  · have e : i - (hi + 1) + (hi + 1) = i := by omega
    simp [h1, Nat.succ_le_of_lt h1, show ¬ i < lo by omega, show ¬ (i - lo < hi + 1 - lo) by omega]
  · by_cases h2 : lo ≤ i
    · simp [h1, h2, show ¬ i < lo by omega, show ¬ hi + 1 ≤ i by omega, show i - lo < hi + 1 - lo by omega]
    · simp [h1, h2, show i < lo by omega, show ¬ hi + 1 ≤ i by omega]

theorem bits_testBit (n hi lo i : Nat) : (bits n hi lo).testBit i = (decide (i < hi + 1 - lo) && n.testBit (i + lo)) := by
  simp [bits, Nat.testBit_mod_two_pow, Nat.testBit_div_two_pow]

/-- A field that was set reads what was stored, cut to its width. -/
theorem bits_setBits_same (w hi lo v : Nat) (hlo : lo ≤ hi) : bits (setBits w hi lo v) hi lo = v % 2 ^ (hi + 1 - lo) := by
  apply Nat.eq_of_testBit_eq
  intro i
  rw [bits_testBit, setBits_testBit _ _ _ _ _ (by omega), Nat.testBit_mod_two_pow]
  by_cases h : i < hi + 1 - lo
  · simp [h, show ¬ hi < i + lo by omega]
  · simp [h]

/-- A field with no bit in common with the one set keeps its value. -/
theorem bits_setBits_other (w hi lo v hi' lo' : Nat) (hlo : lo ≤ hi) (hd : hi < lo' ∨ hi' < lo) :
    bits (setBits w hi lo v) hi' lo' = bits w hi' lo' := by
  apply Nat.eq_of_testBit_eq
  intro i
  rw [bits_testBit, bits_testBit, setBits_testBit _ _ _ _ _ (by omega)]
  by_cases h : i < hi' + 1 - lo'
  · rcases hd with hd | hd
    · simp [h, show hi < i + lo' by omega]
    · simp [h, show ¬ lo ≤ i + lo' by omega]
  · simp [h]

/-- The value of a field that `fset` set. -/
theorem Half.fget_fset_same (h : Half) (f : Fld) (v i : Nat) (hlo : f.lo ≤ f.hi) (hhi : f.hi < 32) :
    (h.fset f v i).fget f i = v % 2 ^ (f.hi + 1 - f.lo) := by
  have hlt := setBits_lt (h.getN f.reg i) f.hi f.lo v 32 (h.getN_lt _ _) hhi hlo
  simp only [Half.fget, Half.fset, Half.getN_putN_same, Nat.mod_eq_of_lt hlt]
  exact bits_setBits_same _ _ _ _ hlo

/-- A field of another word keeps its value. -/
theorem Half.fget_fset_otherWord (h : Half) {f g : Fld} (v : Nat) {i j : Nat} (hne : g.reg.at j ≠ f.reg.at i) :
    (h.fset f v i).fget g j = h.fget g j := by
  simp [Half.fget, Half.fset, Half.getN_putN_other h _ hne]

/-- A field beside it in the same word keeps its value. -/
theorem Half.fget_fset_beside (h : Half) {f g : Fld} (v i : Nat) (hr : g.reg = f.reg) (hlo : f.lo ≤ f.hi) (hhi : f.hi < 32)
    (hd : f.hi < g.lo ∨ g.hi < f.lo) : (h.fset f v i).fget g i = h.fget g i := by
  have hlt := setBits_lt (h.getN f.reg i) f.hi f.lo v 32 (h.getN_lt _ _) hhi hlo
  simp only [Half.fget, Half.fset, hr, Half.getN_putN_same, Nat.mod_eq_of_lt hlt]
  exact bits_setBits_other _ _ _ _ _ _ hlo hd

theorem Half.fget_putN_other (h : Half) {r : RegDef} {g : Fld} (n : Nat) {i j : Nat} (hne : g.reg.at j ≠ r.at i) :
    (h.putN r n i).fget g j = h.fget g j := by
  simp [Half.fget, Half.getN_putN_other h _ hne]

theorem Half.getN_fset_other (h : Half) {f : Fld} {q : RegDef} (v : Nat) {i j : Nat} (hne : q.at j ≠ f.reg.at i) :
    (h.fset f v i).getN q j = h.getN q j := by
  simp [Half.fset, Half.getN_putN_other h _ hne]

theorem Half.fget_lt (h : Half) (f : Fld) (i : Nat) : h.fget f i < 2 ^ (f.hi + 1 - f.lo) := Nat.mod_lt _ (Nat.two_pow_pos _)

/-! ### Registers under the updates that leave `regs` and `id` alone -/

/-- Two halves with the same register table and place read the same words. -/
theorem Half.get_congr {h g : Half} (hid : g.id = h.id) (hr : g.regs = h.regs) (r : RegDef) (i : Nat) : g.get r i = h.get r i := by
  simp [Half.get, hid, hr]

end Sys2Proof.Machine
end

