-- ==== Sys2Proof/Laws/Ops.lean ====
section
/-! SUPPORT. What an error occurrence, a raised source, a withdrawn offer and the end of a command change of a half, and what
a change of one half changes of the machine. -/

namespace Sys2Proof.Machine

/-- What a fold keeps where each of its steps keeps it. -/
theorem Half.fold_keeps {α β : Type} (P : Half → β) (f : Half → α → Half) (hf : ∀ h x, P (f h x) = P h) (xs : List α) (h : Half) :
    P (h.fold xs f) = P h := by
  unfold Half.fold
  induction xs generalizing h with
  | nil => rfl
  | cons x xs ih => rw [List.foldl_cons, ih, hf]

/-! ### Error occurrences -/

theorem Half.newRec_shape (h : Half) (code inst info : Nat) :
    ∃ q r, h.newRec code inst info = { h with errq := q, regs := r } ∧ (r = h.regs ∨ ∃ n, r = SMap.insert h.regs (ERR_STAT.at 0) n) := by
  unfold Half.newRec
  dsimp only
  split
  · exact ⟨_, _, rfl, .inl rfl⟩
  · split
    · exact ⟨_, _, rfl, .inr ⟨_, rfl⟩⟩
    · exact ⟨_, _, rfl, .inr ⟨_, rfl⟩⟩

/-- An error occurrence changes the error queue and, of the registers, ERR_STAT or ERR_SUPPR alone. -/
theorem Half.logErr_shape (h : Half) (code inst info : Nat) :
    ∃ q r, h.logErr code inst info = { h with errq := q, regs := r } ∧
      (r = h.regs ∨ (∃ n, r = SMap.insert h.regs (ERR_STAT.at 0) n) ∨ ∃ n, r = SMap.insert h.regs (ERR_SUPPR.at 0) n) := by
  unfold Half.logErr
  split
  · exact ⟨_, _, rfl, .inl rfl⟩
  · split
    · exact ⟨_, _, rfl, .inl rfl⟩
    · split
      · exact ⟨_, _, rfl, .inr (.inr ⟨_, rfl⟩)⟩
      · obtain ⟨q, r, e, hr⟩ := h.newRec_shape code inst info
        exact ⟨q, r, e, hr.imp (fun x => x) .inl⟩

@[simp] theorem Half.logErr_id (h : Half) (code inst info : Nat) : (h.logErr code inst info).id = h.id := by obtain ⟨_, _, e, _⟩ := h.logErr_shape code inst info; rw [e]
@[simp] theorem Half.logErr_shadow (h : Half) (code inst info : Nat) : (h.logErr code inst info).shadow = h.shadow := by obtain ⟨_, _, e, _⟩ := h.logErr_shape code inst info; rw [e]
@[simp] theorem Half.logErr_shadowLate (h : Half) (code inst info : Nat) : (h.logErr code inst info).shadowLate = h.shadowLate := by obtain ⟨_, _, e, _⟩ := h.logErr_shape code inst info; rw [e]
@[simp] theorem Half.logErr_holdSample (h : Half) (code inst info : Nat) : (h.logErr code inst info).holdSample = h.holdSample := by obtain ⟨_, _, e, _⟩ := h.logErr_shape code inst info; rw [e]
@[simp] theorem Half.logErr_latch (h : Half) (code inst info : Nat) : (h.logErr code inst info).latch = h.latch := by obtain ⟨_, _, e, _⟩ := h.logErr_shape code inst info; rw [e]
@[simp] theorem Half.logErr_once (h : Half) (code inst info : Nat) : (h.logErr code inst info).once = h.once := by obtain ⟨_, _, e, _⟩ := h.logErr_shape code inst info; rw [e]
@[simp] theorem Half.logErr_hist (h : Half) (code inst info : Nat) : (h.logErr code inst info).hist = h.hist := by obtain ⟨_, _, e, _⟩ := h.logErr_shape code inst info; rw [e]
@[simp] theorem Half.logErr_hoTicks (h : Half) (code inst info : Nat) : (h.logErr code inst info).hoTicks = h.hoTicks := by obtain ⟨_, _, e, _⟩ := h.logErr_shape code inst info; rw [e]
@[simp] theorem Half.logErr_evc (h : Half) (code inst info : Nat) : (h.logErr code inst info).evc = h.evc := by obtain ⟨_, _, e, _⟩ := h.logErr_shape code inst info; rw [e]
@[simp] theorem Half.logErr_isl (h : Half) (code inst info : Nat) : (h.logErr code inst info).isl = h.isl := by obtain ⟨_, _, e, _⟩ := h.logErr_shape code inst info; rw [e]
@[simp] theorem Half.logErr_exy (h : Half) (code inst info : Nat) : (h.logErr code inst info).exy = h.exy := by obtain ⟨_, _, e, _⟩ := h.logErr_shape code inst info; rw [e]
@[simp] theorem Half.logErr_tmg (h : Half) (code inst info : Nat) : (h.logErr code inst info).tmg = h.tmg := by obtain ⟨_, _, e, _⟩ := h.logErr_shape code inst info; rw [e]
@[simp] theorem Half.logErr_front (h : Half) (code inst info : Nat) : (h.logErr code inst info).front = h.front := by obtain ⟨_, _, e, _⟩ := h.logErr_shape code inst info; rw [e]
@[simp] theorem Half.logErr_lta (h : Half) (code inst info : Nat) : (h.logErr code inst info).lta = h.lta := by obtain ⟨_, _, e, _⟩ := h.logErr_shape code inst info; rw [e]
@[simp] theorem Half.logErr_hbm (h : Half) (code inst info : Nat) : (h.logErr code inst info).hbm = h.hbm := by obtain ⟨_, _, e, _⟩ := h.logErr_shape code inst info; rw [e]
@[simp] theorem Half.logErr_rdb (h : Half) (code inst info : Nat) : (h.logErr code inst info).rdb = h.rdb := by obtain ⟨_, _, e, _⟩ := h.logErr_shape code inst info; rw [e]
@[simp] theorem Half.logErr_trw (h : Half) (code inst info : Nat) : (h.logErr code inst info).trw = h.trw := by obtain ⟨_, _, e, _⟩ := h.logErr_shape code inst info; rw [e]
@[simp] theorem Half.logErr_caps (h : Half) (code inst info : Nat) : (h.logErr code inst info).caps = h.caps := by obtain ⟨_, _, e, _⟩ := h.logErr_shape code inst info; rw [e]
@[simp] theorem Half.logErr_lanes (h : Half) (code inst info : Nat) : (h.logErr code inst info).lanes = h.lanes := by obtain ⟨_, _, e, _⟩ := h.logErr_shape code inst info; rw [e]
@[simp] theorem Half.logErr_xch (h : Half) (code inst info : Nat) : (h.logErr code inst info).xch = h.xch := by obtain ⟨_, _, e, _⟩ := h.logErr_shape code inst info; rw [e]
@[simp] theorem Half.logErr_arc (h : Half) (code inst info : Nat) : (h.logErr code inst info).arc = h.arc := by obtain ⟨_, _, e, _⟩ := h.logErr_shape code inst info; rw [e]
@[simp] theorem Half.logErr_bmf (h : Half) (code inst info : Nat) : (h.logErr code inst info).bmf = h.bmf := by obtain ⟨_, _, e, _⟩ := h.logErr_shape code inst info; rw [e]
@[simp] theorem Half.logErr_stage (h : Half) (code inst info : Nat) : (h.logErr code inst info).stage = h.stage := by obtain ⟨_, _, e, _⟩ := h.logErr_shape code inst info; rw [e]
@[simp] theorem Half.logErr_fatal (h : Half) (code inst info : Nat) : (h.logErr code inst info).fatal = h.fatal := by obtain ⟨_, _, e, _⟩ := h.logErr_shape code inst info; rw [e]
@[simp] theorem Half.logErr_out (h : Half) (code inst info : Nat) : (h.logErr code inst info).out = h.out := by obtain ⟨_, _, e, _⟩ := h.logErr_shape code inst info; rw [e]

/-- The words that an error occurrence may change. -/
theorem Half.logErr_get (h : Half) (code inst info : Nat) {r : RegDef} {i : Nat} (h1 : r.at i ≠ ERR_STAT.at 0) (h2 : r.at i ≠ ERR_SUPPR.at 0) :
    (h.logErr code inst info).get r i = h.get r i := by
  obtain ⟨q, s, e, hs⟩ := h.logErr_shape code inst info
  rw [e]
  rcases hs with hs | ⟨n, hs⟩ | ⟨n, hs⟩ <;> subst hs
  · rfl
  · simp [Half.get, SMap.find?_insert_other _ _ h1]
  · simp [Half.get, SMap.find?_insert_other _ _ h2]

/-- With the queue working and no record or suppression of the pair, the occurrence becomes the youngest record (R430). -/
theorem Half.logErr_new (h : Half) (code inst info : Nat) (hu : h.mainUp = true) (hn : h.errq.recs.any (fun r => r.code == code && r.inst == inst) = false)
    (hc : h.errq.created.contains (code, inst) = false) (hl : h.errq.recs.length < 64) :
    (h.logErr code inst info).errq.recs = h.errq.recs ++ [⟨h.errq.nextId, inst, code, h.frame, 1, false, info⟩] := by
  unfold Half.logErr
  rw [if_neg (by simp [hu]), if_neg (by rw [hn]; decide), if_neg (by rw [hc]; decide)]
  unfold Half.newRec
  simp [hl]

@[simp] theorem Half.log_id (h : Half) (code inst : Nat) : (h.log code inst).id = h.id := by simp [Half.log]
@[simp] theorem Half.log_shadow (h : Half) (code inst : Nat) : (h.log code inst).shadow = h.shadow := by simp [Half.log]
@[simp] theorem Half.log_shadowLate (h : Half) (code inst : Nat) : (h.log code inst).shadowLate = h.shadowLate := by simp [Half.log]
@[simp] theorem Half.log_holdSample (h : Half) (code inst : Nat) : (h.log code inst).holdSample = h.holdSample := by simp [Half.log]
@[simp] theorem Half.log_latch (h : Half) (code inst : Nat) : (h.log code inst).latch = h.latch := by simp [Half.log]
@[simp] theorem Half.log_once (h : Half) (code inst : Nat) : (h.log code inst).once = h.once := by simp [Half.log]
@[simp] theorem Half.log_hist (h : Half) (code inst : Nat) : (h.log code inst).hist = h.hist := by simp [Half.log]
@[simp] theorem Half.log_hoTicks (h : Half) (code inst : Nat) : (h.log code inst).hoTicks = h.hoTicks := by simp [Half.log]
@[simp] theorem Half.log_evc (h : Half) (code inst : Nat) : (h.log code inst).evc = h.evc := by simp [Half.log]
@[simp] theorem Half.log_isl (h : Half) (code inst : Nat) : (h.log code inst).isl = h.isl := by simp [Half.log]
@[simp] theorem Half.log_exy (h : Half) (code inst : Nat) : (h.log code inst).exy = h.exy := by simp [Half.log]
@[simp] theorem Half.log_tmg (h : Half) (code inst : Nat) : (h.log code inst).tmg = h.tmg := by simp [Half.log]
@[simp] theorem Half.log_front (h : Half) (code inst : Nat) : (h.log code inst).front = h.front := by simp [Half.log]
@[simp] theorem Half.log_lta (h : Half) (code inst : Nat) : (h.log code inst).lta = h.lta := by simp [Half.log]
@[simp] theorem Half.log_hbm (h : Half) (code inst : Nat) : (h.log code inst).hbm = h.hbm := by simp [Half.log]
@[simp] theorem Half.log_rdb (h : Half) (code inst : Nat) : (h.log code inst).rdb = h.rdb := by simp [Half.log]
@[simp] theorem Half.log_trw (h : Half) (code inst : Nat) : (h.log code inst).trw = h.trw := by simp [Half.log]
@[simp] theorem Half.log_caps (h : Half) (code inst : Nat) : (h.log code inst).caps = h.caps := by simp [Half.log]
@[simp] theorem Half.log_lanes (h : Half) (code inst : Nat) : (h.log code inst).lanes = h.lanes := by simp [Half.log]
@[simp] theorem Half.log_xch (h : Half) (code inst : Nat) : (h.log code inst).xch = h.xch := by simp [Half.log]
@[simp] theorem Half.log_arc (h : Half) (code inst : Nat) : (h.log code inst).arc = h.arc := by simp [Half.log]
@[simp] theorem Half.log_bmf (h : Half) (code inst : Nat) : (h.log code inst).bmf = h.bmf := by simp [Half.log]
@[simp] theorem Half.log_stage (h : Half) (code inst : Nat) : (h.log code inst).stage = h.stage := by simp [Half.log]
@[simp] theorem Half.log_fatal (h : Half) (code inst : Nat) : (h.log code inst).fatal = h.fatal := by simp [Half.log]
@[simp] theorem Half.log_out (h : Half) (code inst : Nat) : (h.log code inst).out = h.out := by simp [Half.log]

theorem Half.log_get (h : Half) (code inst : Nat) {r : RegDef} {i : Nat} (h1 : r.at i ≠ ERR_STAT.at 0) (h2 : r.at i ≠ ERR_SUPPR.at 0) :
    (h.log code inst).get r i = h.get r i := h.logErr_get _ _ _ h1 h2

/-! ### Event sources -/

theorem Half.wake_shape (h : Half) (n : Nat) : ∃ e, h.wake n = { h with evc := e } := by
  unfold Half.wake
  split
  · generalize List.range 4 = xs
    unfold Half.fold
    suffices H : ∀ g : Half, (∃ e, g = { h with evc := e }) → ∃ e, List.foldl (fun (h : Half) (t : Nat) => if h.routed t n then h.setTgt t (fun x => { x with sleep := false }) else h) g xs = { h with evc := e } from H h ⟨_, rfl⟩
    induction xs with
    | nil => exact fun g hg => hg
    | cons x xs ih =>
      intro g ⟨e, hg⟩
      rw [List.foldl_cons]
      apply ih
      split
      · exact ⟨_, by rw [hg]; rfl⟩
      · exact ⟨_, hg⟩
  · exact ⟨_, rfl⟩

@[simp] theorem Half.wake_id (h : Half) (n : Nat) : (h.wake n).id = h.id := by obtain ⟨_, e⟩ := h.wake_shape n; rw [e]
@[simp] theorem Half.wake_regs (h : Half) (n : Nat) : (h.wake n).regs = h.regs := by obtain ⟨_, e⟩ := h.wake_shape n; rw [e]
@[simp] theorem Half.wake_shadow (h : Half) (n : Nat) : (h.wake n).shadow = h.shadow := by obtain ⟨_, e⟩ := h.wake_shape n; rw [e]
@[simp] theorem Half.wake_shadowLate (h : Half) (n : Nat) : (h.wake n).shadowLate = h.shadowLate := by obtain ⟨_, e⟩ := h.wake_shape n; rw [e]
@[simp] theorem Half.wake_holdSample (h : Half) (n : Nat) : (h.wake n).holdSample = h.holdSample := by obtain ⟨_, e⟩ := h.wake_shape n; rw [e]
@[simp] theorem Half.wake_latch (h : Half) (n : Nat) : (h.wake n).latch = h.latch := by obtain ⟨_, e⟩ := h.wake_shape n; rw [e]
@[simp] theorem Half.wake_once (h : Half) (n : Nat) : (h.wake n).once = h.once := by obtain ⟨_, e⟩ := h.wake_shape n; rw [e]
@[simp] theorem Half.wake_hist (h : Half) (n : Nat) : (h.wake n).hist = h.hist := by obtain ⟨_, e⟩ := h.wake_shape n; rw [e]
@[simp] theorem Half.wake_hoTicks (h : Half) (n : Nat) : (h.wake n).hoTicks = h.hoTicks := by obtain ⟨_, e⟩ := h.wake_shape n; rw [e]
@[simp] theorem Half.wake_errq (h : Half) (n : Nat) : (h.wake n).errq = h.errq := by obtain ⟨_, e⟩ := h.wake_shape n; rw [e]
@[simp] theorem Half.wake_isl (h : Half) (n : Nat) : (h.wake n).isl = h.isl := by obtain ⟨_, e⟩ := h.wake_shape n; rw [e]
@[simp] theorem Half.wake_exy (h : Half) (n : Nat) : (h.wake n).exy = h.exy := by obtain ⟨_, e⟩ := h.wake_shape n; rw [e]
@[simp] theorem Half.wake_tmg (h : Half) (n : Nat) : (h.wake n).tmg = h.tmg := by obtain ⟨_, e⟩ := h.wake_shape n; rw [e]
@[simp] theorem Half.wake_front (h : Half) (n : Nat) : (h.wake n).front = h.front := by obtain ⟨_, e⟩ := h.wake_shape n; rw [e]
@[simp] theorem Half.wake_lta (h : Half) (n : Nat) : (h.wake n).lta = h.lta := by obtain ⟨_, e⟩ := h.wake_shape n; rw [e]
@[simp] theorem Half.wake_hbm (h : Half) (n : Nat) : (h.wake n).hbm = h.hbm := by obtain ⟨_, e⟩ := h.wake_shape n; rw [e]
@[simp] theorem Half.wake_rdb (h : Half) (n : Nat) : (h.wake n).rdb = h.rdb := by obtain ⟨_, e⟩ := h.wake_shape n; rw [e]
@[simp] theorem Half.wake_trw (h : Half) (n : Nat) : (h.wake n).trw = h.trw := by obtain ⟨_, e⟩ := h.wake_shape n; rw [e]
@[simp] theorem Half.wake_caps (h : Half) (n : Nat) : (h.wake n).caps = h.caps := by obtain ⟨_, e⟩ := h.wake_shape n; rw [e]
@[simp] theorem Half.wake_lanes (h : Half) (n : Nat) : (h.wake n).lanes = h.lanes := by obtain ⟨_, e⟩ := h.wake_shape n; rw [e]
@[simp] theorem Half.wake_xch (h : Half) (n : Nat) : (h.wake n).xch = h.xch := by obtain ⟨_, e⟩ := h.wake_shape n; rw [e]
@[simp] theorem Half.wake_arc (h : Half) (n : Nat) : (h.wake n).arc = h.arc := by obtain ⟨_, e⟩ := h.wake_shape n; rw [e]
@[simp] theorem Half.wake_bmf (h : Half) (n : Nat) : (h.wake n).bmf = h.bmf := by obtain ⟨_, e⟩ := h.wake_shape n; rw [e]
@[simp] theorem Half.wake_stage (h : Half) (n : Nat) : (h.wake n).stage = h.stage := by obtain ⟨_, e⟩ := h.wake_shape n; rw [e]
@[simp] theorem Half.wake_fatal (h : Half) (n : Nat) : (h.wake n).fatal = h.fatal := by obtain ⟨_, e⟩ := h.wake_shape n; rw [e]
@[simp] theorem Half.wake_out (h : Half) (n : Nat) : (h.wake n).out = h.out := by obtain ⟨_, e⟩ := h.wake_shape n; rw [e]

@[simp] theorem Half.wake_get (h : Half) (n : Nat) (r : RegDef) (i : Nat) : (h.wake n).get r i = h.get r i :=
  Half.get_congr (h.wake_id n) (h.wake_regs n) r i

@[simp] theorem Half.raise_id (h : Half) (n : Nat) : (h.raise n).id = h.id := by unfold Half.raise; split <;> simp
@[simp] theorem Half.raise_shadow (h : Half) (n : Nat) : (h.raise n).shadow = h.shadow := by unfold Half.raise; split <;> simp
@[simp] theorem Half.raise_shadowLate (h : Half) (n : Nat) : (h.raise n).shadowLate = h.shadowLate := by unfold Half.raise; split <;> simp
@[simp] theorem Half.raise_holdSample (h : Half) (n : Nat) : (h.raise n).holdSample = h.holdSample := by unfold Half.raise; split <;> simp
@[simp] theorem Half.raise_latch (h : Half) (n : Nat) : (h.raise n).latch = h.latch := by unfold Half.raise; split <;> simp
@[simp] theorem Half.raise_once (h : Half) (n : Nat) : (h.raise n).once = h.once := by unfold Half.raise; split <;> simp
@[simp] theorem Half.raise_hist (h : Half) (n : Nat) : (h.raise n).hist = h.hist := by unfold Half.raise; split <;> simp
@[simp] theorem Half.raise_hoTicks (h : Half) (n : Nat) : (h.raise n).hoTicks = h.hoTicks := by unfold Half.raise; split <;> simp
@[simp] theorem Half.raise_errq (h : Half) (n : Nat) : (h.raise n).errq = h.errq := by unfold Half.raise; split <;> simp
@[simp] theorem Half.raise_isl (h : Half) (n : Nat) : (h.raise n).isl = h.isl := by unfold Half.raise; split <;> simp
@[simp] theorem Half.raise_exy (h : Half) (n : Nat) : (h.raise n).exy = h.exy := by unfold Half.raise; split <;> simp
@[simp] theorem Half.raise_tmg (h : Half) (n : Nat) : (h.raise n).tmg = h.tmg := by unfold Half.raise; split <;> simp
@[simp] theorem Half.raise_front (h : Half) (n : Nat) : (h.raise n).front = h.front := by unfold Half.raise; split <;> simp
@[simp] theorem Half.raise_lta (h : Half) (n : Nat) : (h.raise n).lta = h.lta := by unfold Half.raise; split <;> simp
@[simp] theorem Half.raise_hbm (h : Half) (n : Nat) : (h.raise n).hbm = h.hbm := by unfold Half.raise; split <;> simp
@[simp] theorem Half.raise_rdb (h : Half) (n : Nat) : (h.raise n).rdb = h.rdb := by unfold Half.raise; split <;> simp
@[simp] theorem Half.raise_trw (h : Half) (n : Nat) : (h.raise n).trw = h.trw := by unfold Half.raise; split <;> simp
@[simp] theorem Half.raise_caps (h : Half) (n : Nat) : (h.raise n).caps = h.caps := by unfold Half.raise; split <;> simp
@[simp] theorem Half.raise_lanes (h : Half) (n : Nat) : (h.raise n).lanes = h.lanes := by unfold Half.raise; split <;> simp
@[simp] theorem Half.raise_xch (h : Half) (n : Nat) : (h.raise n).xch = h.xch := by unfold Half.raise; split <;> simp
@[simp] theorem Half.raise_arc (h : Half) (n : Nat) : (h.raise n).arc = h.arc := by unfold Half.raise; split <;> simp
@[simp] theorem Half.raise_bmf (h : Half) (n : Nat) : (h.raise n).bmf = h.bmf := by unfold Half.raise; split <;> simp
@[simp] theorem Half.raise_stage (h : Half) (n : Nat) : (h.raise n).stage = h.stage := by unfold Half.raise; split <;> simp
@[simp] theorem Half.raise_fatal (h : Half) (n : Nat) : (h.raise n).fatal = h.fatal := by unfold Half.raise; split <;> simp
@[simp] theorem Half.raise_out (h : Half) (n : Nat) : (h.raise n).out = h.out := by unfold Half.raise; split <;> simp

/-- A raised source touches its own word of pending bits alone. -/
theorem Half.raise_get (h : Half) (n : Nat) {r : RegDef} {i : Nat} (hne : r.at i ≠ EVC_PENDING.at (n / 32)) : (h.raise n).get r i = h.get r i := by
  unfold Half.raise
  split
  · rfl
  · rw [Half.wake_get, Half.setSrcBit, Half.putN, Half.get_put_other _ _ hne]

@[simp] theorem Half.raiseOnce_id (h : Half) (n : Nat) : (h.raiseOnce n).id = h.id := by unfold Half.raiseOnce; split <;> simp
@[simp] theorem Half.raiseOnce_shadow (h : Half) (n : Nat) : (h.raiseOnce n).shadow = h.shadow := by unfold Half.raiseOnce; split <;> simp
@[simp] theorem Half.raiseOnce_shadowLate (h : Half) (n : Nat) : (h.raiseOnce n).shadowLate = h.shadowLate := by unfold Half.raiseOnce; split <;> simp
@[simp] theorem Half.raiseOnce_holdSample (h : Half) (n : Nat) : (h.raiseOnce n).holdSample = h.holdSample := by unfold Half.raiseOnce; split <;> simp
@[simp] theorem Half.raiseOnce_latch (h : Half) (n : Nat) : (h.raiseOnce n).latch = h.latch := by unfold Half.raiseOnce; split <;> simp
@[simp] theorem Half.raiseOnce_hist (h : Half) (n : Nat) : (h.raiseOnce n).hist = h.hist := by unfold Half.raiseOnce; split <;> simp
@[simp] theorem Half.raiseOnce_hoTicks (h : Half) (n : Nat) : (h.raiseOnce n).hoTicks = h.hoTicks := by unfold Half.raiseOnce; split <;> simp
@[simp] theorem Half.raiseOnce_errq (h : Half) (n : Nat) : (h.raiseOnce n).errq = h.errq := by unfold Half.raiseOnce; split <;> simp
@[simp] theorem Half.raiseOnce_isl (h : Half) (n : Nat) : (h.raiseOnce n).isl = h.isl := by unfold Half.raiseOnce; split <;> simp
@[simp] theorem Half.raiseOnce_exy (h : Half) (n : Nat) : (h.raiseOnce n).exy = h.exy := by unfold Half.raiseOnce; split <;> simp
@[simp] theorem Half.raiseOnce_tmg (h : Half) (n : Nat) : (h.raiseOnce n).tmg = h.tmg := by unfold Half.raiseOnce; split <;> simp
@[simp] theorem Half.raiseOnce_front (h : Half) (n : Nat) : (h.raiseOnce n).front = h.front := by unfold Half.raiseOnce; split <;> simp
@[simp] theorem Half.raiseOnce_lta (h : Half) (n : Nat) : (h.raiseOnce n).lta = h.lta := by unfold Half.raiseOnce; split <;> simp
@[simp] theorem Half.raiseOnce_hbm (h : Half) (n : Nat) : (h.raiseOnce n).hbm = h.hbm := by unfold Half.raiseOnce; split <;> simp
@[simp] theorem Half.raiseOnce_rdb (h : Half) (n : Nat) : (h.raiseOnce n).rdb = h.rdb := by unfold Half.raiseOnce; split <;> simp
@[simp] theorem Half.raiseOnce_trw (h : Half) (n : Nat) : (h.raiseOnce n).trw = h.trw := by unfold Half.raiseOnce; split <;> simp
@[simp] theorem Half.raiseOnce_caps (h : Half) (n : Nat) : (h.raiseOnce n).caps = h.caps := by unfold Half.raiseOnce; split <;> simp
@[simp] theorem Half.raiseOnce_lanes (h : Half) (n : Nat) : (h.raiseOnce n).lanes = h.lanes := by unfold Half.raiseOnce; split <;> simp
@[simp] theorem Half.raiseOnce_xch (h : Half) (n : Nat) : (h.raiseOnce n).xch = h.xch := by unfold Half.raiseOnce; split <;> simp
@[simp] theorem Half.raiseOnce_arc (h : Half) (n : Nat) : (h.raiseOnce n).arc = h.arc := by unfold Half.raiseOnce; split <;> simp
@[simp] theorem Half.raiseOnce_bmf (h : Half) (n : Nat) : (h.raiseOnce n).bmf = h.bmf := by unfold Half.raiseOnce; split <;> simp
@[simp] theorem Half.raiseOnce_stage (h : Half) (n : Nat) : (h.raiseOnce n).stage = h.stage := by unfold Half.raiseOnce; split <;> simp
@[simp] theorem Half.raiseOnce_fatal (h : Half) (n : Nat) : (h.raiseOnce n).fatal = h.fatal := by unfold Half.raiseOnce; split <;> simp
@[simp] theorem Half.raiseOnce_out (h : Half) (n : Nat) : (h.raiseOnce n).out = h.out := by unfold Half.raiseOnce; split <;> simp

theorem Half.raiseOnce_get (h : Half) (n : Nat) {r : RegDef} {i : Nat} (hne : r.at i ≠ EVC_PENDING.at (n / 32)) : (h.raiseOnce n).get r i = h.get r i := by
  unfold Half.raiseOnce
  split
  · rfl
  · exact h.raise_get n hne

/-- A raised source that an owner may raise is pending (R345). -/
theorem Half.raise_pending (h : Half) (n : Nat) (hu : h.mainUp = true) (hr : sourceReserved n = false) (hl : sourceLevel n = false) :
    (h.raise n).srcBit EVC_PENDING n = true := by
  unfold Half.raise
  split
  · rename_i hc
    simpa [hu, hr, hl] using hc
  · rw [Half.srcBit, Half.getN, Half.wake_get]
    have h32 : n % 32 < 32 := Nat.mod_lt _ (by decide)
    have hlt := setBits_lt (h.getN EVC_PENDING (n / 32)) (n % 32) (n % 32) (b2n true) 32 (h.getN_lt _ _) h32 (Nat.le_refl _)
    show bit ((h.setSrcBit EVC_PENDING n true).getN EVC_PENDING (n / 32)) (n % 32) = true
    rw [Half.setSrcBit, Half.getN_putN_same, Nat.mod_eq_of_lt hlt, bit, setBits_testBit _ _ _ _ _ (by omega)]
    simp [b2n]

/-! ### The end of a command -/

theorem Half.withdraw_shape (h : Half) (t : Nat) : ∃ e r, h.withdraw t = { h with evc := e, regs := r } := by
  unfold Half.withdraw
  dsimp only
  split
  · exact ⟨_, _, rfl⟩
  · split
    · exact ⟨_, _, rfl⟩
    · exact ⟨_, _, rfl⟩

@[simp] theorem Half.withdraw_id (h : Half) (t : Nat) : (h.withdraw t).id = h.id := by obtain ⟨_, _, e⟩ := h.withdraw_shape t; rw [e]
@[simp] theorem Half.withdraw_shadow (h : Half) (t : Nat) : (h.withdraw t).shadow = h.shadow := by obtain ⟨_, _, e⟩ := h.withdraw_shape t; rw [e]
@[simp] theorem Half.withdraw_shadowLate (h : Half) (t : Nat) : (h.withdraw t).shadowLate = h.shadowLate := by obtain ⟨_, _, e⟩ := h.withdraw_shape t; rw [e]
@[simp] theorem Half.withdraw_holdSample (h : Half) (t : Nat) : (h.withdraw t).holdSample = h.holdSample := by obtain ⟨_, _, e⟩ := h.withdraw_shape t; rw [e]
@[simp] theorem Half.withdraw_latch (h : Half) (t : Nat) : (h.withdraw t).latch = h.latch := by obtain ⟨_, _, e⟩ := h.withdraw_shape t; rw [e]
@[simp] theorem Half.withdraw_once (h : Half) (t : Nat) : (h.withdraw t).once = h.once := by obtain ⟨_, _, e⟩ := h.withdraw_shape t; rw [e]
@[simp] theorem Half.withdraw_hist (h : Half) (t : Nat) : (h.withdraw t).hist = h.hist := by obtain ⟨_, _, e⟩ := h.withdraw_shape t; rw [e]
@[simp] theorem Half.withdraw_hoTicks (h : Half) (t : Nat) : (h.withdraw t).hoTicks = h.hoTicks := by obtain ⟨_, _, e⟩ := h.withdraw_shape t; rw [e]
@[simp] theorem Half.withdraw_errq (h : Half) (t : Nat) : (h.withdraw t).errq = h.errq := by obtain ⟨_, _, e⟩ := h.withdraw_shape t; rw [e]
@[simp] theorem Half.withdraw_isl (h : Half) (t : Nat) : (h.withdraw t).isl = h.isl := by obtain ⟨_, _, e⟩ := h.withdraw_shape t; rw [e]
@[simp] theorem Half.withdraw_exy (h : Half) (t : Nat) : (h.withdraw t).exy = h.exy := by obtain ⟨_, _, e⟩ := h.withdraw_shape t; rw [e]
@[simp] theorem Half.withdraw_tmg (h : Half) (t : Nat) : (h.withdraw t).tmg = h.tmg := by obtain ⟨_, _, e⟩ := h.withdraw_shape t; rw [e]
@[simp] theorem Half.withdraw_front (h : Half) (t : Nat) : (h.withdraw t).front = h.front := by obtain ⟨_, _, e⟩ := h.withdraw_shape t; rw [e]
@[simp] theorem Half.withdraw_lta (h : Half) (t : Nat) : (h.withdraw t).lta = h.lta := by obtain ⟨_, _, e⟩ := h.withdraw_shape t; rw [e]
@[simp] theorem Half.withdraw_hbm (h : Half) (t : Nat) : (h.withdraw t).hbm = h.hbm := by obtain ⟨_, _, e⟩ := h.withdraw_shape t; rw [e]
@[simp] theorem Half.withdraw_rdb (h : Half) (t : Nat) : (h.withdraw t).rdb = h.rdb := by obtain ⟨_, _, e⟩ := h.withdraw_shape t; rw [e]
@[simp] theorem Half.withdraw_trw (h : Half) (t : Nat) : (h.withdraw t).trw = h.trw := by obtain ⟨_, _, e⟩ := h.withdraw_shape t; rw [e]
@[simp] theorem Half.withdraw_caps (h : Half) (t : Nat) : (h.withdraw t).caps = h.caps := by obtain ⟨_, _, e⟩ := h.withdraw_shape t; rw [e]
@[simp] theorem Half.withdraw_lanes (h : Half) (t : Nat) : (h.withdraw t).lanes = h.lanes := by obtain ⟨_, _, e⟩ := h.withdraw_shape t; rw [e]
@[simp] theorem Half.withdraw_xch (h : Half) (t : Nat) : (h.withdraw t).xch = h.xch := by obtain ⟨_, _, e⟩ := h.withdraw_shape t; rw [e]
@[simp] theorem Half.withdraw_arc (h : Half) (t : Nat) : (h.withdraw t).arc = h.arc := by obtain ⟨_, _, e⟩ := h.withdraw_shape t; rw [e]
@[simp] theorem Half.withdraw_bmf (h : Half) (t : Nat) : (h.withdraw t).bmf = h.bmf := by obtain ⟨_, _, e⟩ := h.withdraw_shape t; rw [e]
@[simp] theorem Half.withdraw_stage (h : Half) (t : Nat) : (h.withdraw t).stage = h.stage := by obtain ⟨_, _, e⟩ := h.withdraw_shape t; rw [e]
@[simp] theorem Half.withdraw_fatal (h : Half) (t : Nat) : (h.withdraw t).fatal = h.fatal := by obtain ⟨_, _, e⟩ := h.withdraw_shape t; rw [e]
@[simp] theorem Half.withdraw_out (h : Half) (t : Nat) : (h.withdraw t).out = h.out := by obtain ⟨_, _, e⟩ := h.withdraw_shape t; rw [e]

theorem Half.withdraw_get (h : Half) {t : Nat} (ht : t < 12) {r : RegDef} {i : Nat} (hs : standingAddr (r.at i) = false) :
    (h.withdraw t).get r i = h.get r i := by
  simp only [standingAddr, Bool.or_eq_false_iff, beq_eq_false_iff_ne, List.any_eq_false, List.mem_range, beq_iff_eq] at hs
  unfold Half.withdraw
  dsimp only
  split
  · rfl
  · split
    · rw [Half.putN, Half.get_put_other _ _ hs.1, Half.bumpWord, Half.putN, Half.get_put_other _ _ (hs.2 t ht)]
      exact Half.get_congr rfl rfl r i
    · rw [Half.bumpWord, Half.putN, Half.get_put_other _ _ (hs.2 t ht)]
      exact Half.get_congr rfl rfl r i

theorem Half.withdrawStale_keeps {β : Type} (P : Half → β) (hf : ∀ (h : Half) (t : Nat), t < 12 → P (h.withdraw t) = P h) (h : Half) :
    P h.withdrawStale = P h := by
  unfold Half.withdrawStale Half.fold
  suffices H : ∀ (xs : List Nat), (∀ t ∈ xs, t < 12) → ∀ g : Half, P g = P h → P (List.foldl _ g xs) = P h from
    H _ (fun t ht => List.mem_range.mp ht) h rfl
  intro xs
  induction xs with
  | nil => exact fun _ g hg => hg
  | cons t xs ih =>
    intro hx g hg
    rw [List.foldl_cons]
    apply ih (fun t ht => hx t (List.mem_cons_of_mem _ ht))
    split
    · exact hg
    · split
      · exact hg
      · rw [hf g t (hx t List.mem_cons_self), hg]

/-- What waking and withdrawing keep, the end of a command keeps. -/
theorem Half.finish_keeps {β : Type} (P : Half → β) (hw : ∀ (h : Half) (n : Nat), P (h.wake n) = P h)
    (hf : ∀ (h : Half) (t : Nat), t < 12 → P (h.withdraw t) = P h) (old new : Half) : P (Half.finish old new) = P new := by
  unfold Half.finish
  rw [Half.withdrawStale_keeps P hf]
  apply Half.fold_keeps
  intro h n
  split
  · exact hw h n
  · rfl

@[simp] theorem Half.finish_id (old new : Half) : (Half.finish old new).id = new.id := Half.finish_keeps (·.id) (by simp) (by simp) old new
@[simp] theorem Half.finish_shadow (old new : Half) : (Half.finish old new).shadow = new.shadow := Half.finish_keeps (·.shadow) (by simp) (by simp) old new
@[simp] theorem Half.finish_shadowLate (old new : Half) : (Half.finish old new).shadowLate = new.shadowLate := Half.finish_keeps (·.shadowLate) (by simp) (by simp) old new
@[simp] theorem Half.finish_holdSample (old new : Half) : (Half.finish old new).holdSample = new.holdSample := Half.finish_keeps (·.holdSample) (by simp) (by simp) old new
@[simp] theorem Half.finish_latch (old new : Half) : (Half.finish old new).latch = new.latch := Half.finish_keeps (·.latch) (by simp) (by simp) old new
@[simp] theorem Half.finish_once (old new : Half) : (Half.finish old new).once = new.once := Half.finish_keeps (·.once) (by simp) (by simp) old new
@[simp] theorem Half.finish_hist (old new : Half) : (Half.finish old new).hist = new.hist := Half.finish_keeps (·.hist) (by simp) (by simp) old new
@[simp] theorem Half.finish_hoTicks (old new : Half) : (Half.finish old new).hoTicks = new.hoTicks := Half.finish_keeps (·.hoTicks) (by simp) (by simp) old new
@[simp] theorem Half.finish_errq (old new : Half) : (Half.finish old new).errq = new.errq := Half.finish_keeps (·.errq) (by simp) (by simp) old new
@[simp] theorem Half.finish_isl (old new : Half) : (Half.finish old new).isl = new.isl := Half.finish_keeps (·.isl) (by simp) (by simp) old new
@[simp] theorem Half.finish_exy (old new : Half) : (Half.finish old new).exy = new.exy := Half.finish_keeps (·.exy) (by simp) (by simp) old new
@[simp] theorem Half.finish_tmg (old new : Half) : (Half.finish old new).tmg = new.tmg := Half.finish_keeps (·.tmg) (by simp) (by simp) old new
@[simp] theorem Half.finish_front (old new : Half) : (Half.finish old new).front = new.front := Half.finish_keeps (·.front) (by simp) (by simp) old new
@[simp] theorem Half.finish_lta (old new : Half) : (Half.finish old new).lta = new.lta := Half.finish_keeps (·.lta) (by simp) (by simp) old new
@[simp] theorem Half.finish_hbm (old new : Half) : (Half.finish old new).hbm = new.hbm := Half.finish_keeps (·.hbm) (by simp) (by simp) old new
@[simp] theorem Half.finish_rdb (old new : Half) : (Half.finish old new).rdb = new.rdb := Half.finish_keeps (·.rdb) (by simp) (by simp) old new
@[simp] theorem Half.finish_trw (old new : Half) : (Half.finish old new).trw = new.trw := Half.finish_keeps (·.trw) (by simp) (by simp) old new
@[simp] theorem Half.finish_caps (old new : Half) : (Half.finish old new).caps = new.caps := Half.finish_keeps (·.caps) (by simp) (by simp) old new
@[simp] theorem Half.finish_lanes (old new : Half) : (Half.finish old new).lanes = new.lanes := Half.finish_keeps (·.lanes) (by simp) (by simp) old new
@[simp] theorem Half.finish_xch (old new : Half) : (Half.finish old new).xch = new.xch := Half.finish_keeps (·.xch) (by simp) (by simp) old new
@[simp] theorem Half.finish_arc (old new : Half) : (Half.finish old new).arc = new.arc := Half.finish_keeps (·.arc) (by simp) (by simp) old new
@[simp] theorem Half.finish_bmf (old new : Half) : (Half.finish old new).bmf = new.bmf := Half.finish_keeps (·.bmf) (by simp) (by simp) old new
@[simp] theorem Half.finish_stage (old new : Half) : (Half.finish old new).stage = new.stage := Half.finish_keeps (·.stage) (by simp) (by simp) old new
@[simp] theorem Half.finish_fatal (old new : Half) : (Half.finish old new).fatal = new.fatal := Half.finish_keeps (·.fatal) (by simp) (by simp) old new
@[simp] theorem Half.finish_out (old new : Half) : (Half.finish old new).out = new.out := Half.finish_keeps (·.out) (by simp) (by simp) old new

/-- The end of a command changes no register but those of withdrawn offers (R354). -/
theorem Half.finish_get (old new : Half) {r : RegDef} {i : Nat} (hs : standingAddr (r.at i) = false) : (Half.finish old new).get r i = new.get r i :=
  Half.finish_keeps (fun h => h.get r i) (fun h n => h.wake_get n r i) (fun h _ ht => h.withdraw_get ht hs) old new

theorem Half.finish_getN (old new : Half) {r : RegDef} {i : Nat} (hs : standingAddr (r.at i) = false) : (Half.finish old new).getN r i = new.getN r i := by
  rw [Half.getN, Half.finish_get old new hs, Half.getN]

theorem Half.finish_fget (old new : Half) {f : Fld} {i : Nat} (hs : standingAddr (f.reg.at i) = false) : (Half.finish old new).fget f i = new.fget f i := by
  rw [Half.fget, Half.finish_getN old new hs, Half.fget]

theorem Half.logErr_getN (h : Half) (code inst info : Nat) {q : RegDef} {j : Nat} (h1 : q.at j ≠ ERR_STAT.at 0) (h2 : q.at j ≠ ERR_SUPPR.at 0) : (h.logErr code inst info).getN q j = h.getN q j := by
  rw [Half.getN, h.logErr_get code inst info h1 h2, Half.getN]

theorem Half.logErr_fget (h : Half) (code inst info : Nat) {q : Fld} {j : Nat} (h1 : q.reg.at j ≠ ERR_STAT.at 0) (h2 : q.reg.at j ≠ ERR_SUPPR.at 0) : (h.logErr code inst info).fget q j = h.fget q j := by
  rw [Half.fget, h.logErr_getN code inst info h1 h2, Half.fget]

theorem Half.log_getN (h : Half) (code inst : Nat) {q : RegDef} {j : Nat} (h1 : q.at j ≠ ERR_STAT.at 0) (h2 : q.at j ≠ ERR_SUPPR.at 0) : (h.log code inst).getN q j = h.getN q j := by
  rw [Half.getN, h.log_get code inst h1 h2, Half.getN]

theorem Half.log_fget (h : Half) (code inst : Nat) {q : Fld} {j : Nat} (h1 : q.reg.at j ≠ ERR_STAT.at 0) (h2 : q.reg.at j ≠ ERR_SUPPR.at 0) : (h.log code inst).fget q j = h.fget q j := by
  rw [Half.fget, h.log_getN code inst h1 h2, Half.fget]

theorem Half.raise_getN (h : Half) (n : Nat) {q : RegDef} {j : Nat} (hne : q.at j ≠ EVC_PENDING.at (n / 32)) : (h.raise n).getN q j = h.getN q j := by
  rw [Half.getN, h.raise_get n hne, Half.getN]

theorem Half.raise_fget (h : Half) (n : Nat) {q : Fld} {j : Nat} (hne : q.reg.at j ≠ EVC_PENDING.at (n / 32)) : (h.raise n).fget q j = h.fget q j := by
  rw [Half.fget, h.raise_getN n hne, Half.fget]

theorem Half.raiseOnce_getN (h : Half) (n : Nat) {q : RegDef} {j : Nat} (hne : q.at j ≠ EVC_PENDING.at (n / 32)) : (h.raiseOnce n).getN q j = h.getN q j := by
  rw [Half.getN, h.raiseOnce_get n hne, Half.getN]

theorem Half.raiseOnce_fget (h : Half) (n : Nat) {q : Fld} {j : Nat} (hne : q.reg.at j ≠ EVC_PENDING.at (n / 32)) : (h.raiseOnce n).fget q j = h.fget q j := by
  rw [Half.fget, h.raiseOnce_getN n hne, Half.fget]

/-! ### A change of one half -/

theorem State.settleHalf_of_none (s : State) (i : HalfId) (h : (s.half i).fatal = none) : s.settleHalf i = s := by
  unfold State.settleHalf
  rw [h]

/-- With no class H error standing, nothing is left to settle. -/
theorem State.settle_of_none (s : State) (hn : s.north.fatal = none) (hs : s.south.fatal = none) : s.settle = s := by
  unfold State.settle
  rw [State.settleHalf_of_none s .north hn, State.settleHalf_of_none s .south hs]

/-- A change that raises no class H error changes its half, with what ends a command, and nothing else of the machine. -/
theorem State.on_eq (s : State) (i : HalfId) (f : Half → Half) (hf : (f (s.half i)).fatal = none) (ho : (s.half i.other).fatal = none) :
    s.on i f = s.setHalf i (Half.finish (s.half i) (f (s.half i))) := by
  unfold State.on
  apply State.settle_of_none
  · cases i
    · simpa using hf
    · exact ho
  · cases i
    · exact ho
    · simpa using hf

theorem State.onMain_eq (s : State) (i : HalfId) (f : Half → Half) (hu : (s.half i).mainUp = true) (hf : (f (s.half i)).fatal = none)
    (ho : (s.half i.other).fatal = none) : s.onMain i f = s.setHalf i (Half.finish (s.half i) (f (s.half i))) := by
  unfold State.onMain
  rw [if_pos hu, s.on_eq i f hf ho]

theorem State.onMain_down (s : State) (i : HalfId) (f : Half → Half) (hu : (s.half i).mainUp = false) : s.onMain i f = s := by
  unfold State.onMain
  simp [hu]

theorem State.onIsland_eq (s : State) (i : HalfId) (f : Half → Half) (hp : (s.half i).isl.powered = true) (hf : (f (s.half i)).fatal = none)
    (ho : (s.half i.other).fatal = none) : s.onIsland i f = s.setHalf i (Half.finish (s.half i) (f (s.half i))) := by
  unfold State.onIsland
  rw [if_pos hp, s.on_eq i f hf ho]

/-! ### Completion -/

theorem State.Settled.half {s : State} (h : s.Settled) (i : HalfId) : (s.half i).fatal = none := by
  cases i
  · exact h.1
  · exact h.2

/-- A command that changes a half whose main domain works, without a class H error, completes with that change. -/
theorem Completes.onMain {c : Instr} {s : State} {i : HalfId} {f : Half → Half} {p : State → Prop} (he : exec c s = .next (s.onMain i f))
    (hw : s.Works i) (hf : (f (s.half i)).fatal = none) (hp : p (s.setHalf i (Half.finish (s.half i) (f (s.half i))))) : Completes c s p := by
  refine ⟨_, he, ?_⟩
  rw [s.onMain_eq i f hw.2 hf (hw.1.half _)]
  exact hp

/-- The same of a command that an island obeys while it has power. -/
theorem Completes.onIsland {c : Instr} {s : State} {i : HalfId} {f : Half → Half} {p : State → Prop} (he : exec c s = .next (s.onIsland i f))
    (hw : s.Powered i) (hf : (f (s.half i)).fatal = none) (hp : p (s.setHalf i (Half.finish (s.half i) (f (s.half i))))) : Completes c s p := by
  refine ⟨_, he, ?_⟩
  rw [s.onIsland_eq i f hw.2 hf (hw.1.half _)]
  exact hp

@[simp] theorem State.onlyHalf_setHalf (s : State) (i : HalfId) (h : Half) : s.OnlyHalf (s.setHalf i h) i := by
  unfold State.OnlyHalf
  rw [State.half_setHalf]

/-- The end of a command changes offers alone. -/
theorem Half.finish_regsOnly (old new : Half) : Half.RegsOnly new (Half.finish old new) := by
  unfold Half.RegsOnly
  apply Half.ext <;> simp

theorem Half.RegsOnly.trans {a b c : Half} (h1 : Half.RegsOnly a b) (h2 : Half.RegsOnly b c) : Half.RegsOnly a c := by
  unfold Half.RegsOnly at *
  rw [h2, h1]

theorem Half.RegsOnly.finish {a b : Half} (h : Half.RegsOnly a b) (old : Half) : Half.RegsOnly a (Half.finish old b) := h.trans (Half.finish_regsOnly old b)

theorem Half.RegsOnly.refl (h : Half) : Half.RegsOnly h h := rfl

theorem Half.RegsOnly.put {a b : Half} (h : Half.RegsOnly a b) {r : RegDef} {w : Word} {i : Nat} : Half.RegsOnly a (b.put r w i) := h.trans (by unfold Half.RegsOnly; apply Half.ext <;> simp)

theorem Half.RegsOnly.putN {a b : Half} (h : Half.RegsOnly a b) {r : RegDef} {n : Nat} {i : Nat} : Half.RegsOnly a (b.putN r n i) := h.trans (by unfold Half.RegsOnly; apply Half.ext <;> simp)

theorem Half.RegsOnly.fset {a b : Half} (h : Half.RegsOnly a b) {f : Fld} {v : Nat} {i : Nat} : Half.RegsOnly a (b.fset f v i) := h.trans (by unfold Half.RegsOnly; apply Half.ext <;> simp)

theorem Half.RegsOnly.bump {a b : Half} (h : Half.RegsOnly a b) {f : Fld} {n : Nat} {i : Nat} : Half.RegsOnly a (b.bump f n i) := h.trans (by unfold Half.RegsOnly; apply Half.ext <;> simp)

theorem Half.RegsOnly.bumpWord {a b : Half} (h : Half.RegsOnly a b) {r : RegDef} {n : Nat} {i : Nat} : Half.RegsOnly a (b.bumpWord r n i) := h.trans (by unfold Half.RegsOnly; apply Half.ext <;> simp)

theorem Half.RegsOnly.setSrcBit {a b : Half} (h : Half.RegsOnly a b) {r : RegDef} {n : Nat} {v : Bool} : Half.RegsOnly a (b.setSrcBit r n v) := h.trans (by unfold Half.RegsOnly; apply Half.ext <;> simp)

theorem Half.RegsOnly.setTgt {a b : Half} (h : Half.RegsOnly a b) {t : Nat} {f : Tgt → Tgt} : Half.RegsOnly a (b.setTgt t f) := h.trans (by unfold Half.RegsOnly; apply Half.ext <;> simp)

theorem Half.RegsOnly.emit {a b : Half} (h : Half.RegsOnly a b) {e : Emission} : Half.RegsOnly a (b.emit e) := h.trans (by unfold Half.RegsOnly; apply Half.ext <;> simp)

theorem Half.RegsOnly.emits {a b : Half} (h : Half.RegsOnly a b) {es : List Emission} : Half.RegsOnly a (b.emits es) := h.trans (by unfold Half.RegsOnly; apply Half.ext <;> simp)

theorem Half.RegsOnly.logErr {a b : Half} (h : Half.RegsOnly a b) {code inst info : Nat} : Half.RegsOnly a (b.logErr code inst info) := h.trans (by unfold Half.RegsOnly; apply Half.ext <;> simp)

theorem Half.RegsOnly.log {a b : Half} (h : Half.RegsOnly a b) {code inst : Nat} : Half.RegsOnly a (b.log code inst) := h.trans (by unfold Half.RegsOnly; apply Half.ext <;> simp)

theorem Half.RegsOnly.wake {a b : Half} (h : Half.RegsOnly a b) {n : Nat} : Half.RegsOnly a (b.wake n) := h.trans (by unfold Half.RegsOnly; apply Half.ext <;> simp)

theorem Half.RegsOnly.raise {a b : Half} (h : Half.RegsOnly a b) {n : Nat} : Half.RegsOnly a (b.raise n) := h.trans (by unfold Half.RegsOnly; apply Half.ext <;> simp)

theorem Half.RegsOnly.raiseOnce {a b : Half} (h : Half.RegsOnly a b) {n : Nat} : Half.RegsOnly a (b.raiseOnce n) := h.trans (by unfold Half.RegsOnly; apply Half.ext <;> simp)

theorem Half.RegsOnly.withdraw {a b : Half} (h : Half.RegsOnly a b) {t : Nat} : Half.RegsOnly a (b.withdraw t) := h.trans (by unfold Half.RegsOnly; apply Half.ext <;> simp)

theorem Half.RegsBut.refl (h : Half) (ws : List Nat) : Half.RegsBut h h ws := fun _ _ _ _ => rfl

theorem Half.RegsBut.trans {a b c : Half} {ws : List Nat} (h1 : Half.RegsBut a b ws) (h2 : Half.RegsBut b c ws) : Half.RegsBut a c ws :=
  fun r i hw hs => (h2 r i hw hs).trans (h1 r i hw hs)

theorem Half.RegsBut.of_eq {a b : Half} {ws : List Nat} (hid : b.id = a.id) (hr : b.regs = a.regs) : Half.RegsBut a b ws :=
  fun r i _ _ => Half.get_congr hid hr r i

theorem Half.RegsBut.finish {a b : Half} {ws : List Nat} (h : Half.RegsBut a b ws) (old : Half) : Half.RegsBut a (Half.finish old b) ws :=
  fun r i hw hs => (Half.finish_get old b hs).trans (h r i hw hs)

theorem Half.RegsBut.put {a b : Half} {ws : List Nat} (h : Half.RegsBut a b ws) {r : RegDef} {w : Word} {i : Nat} (hm : r.at i ∈ ws) : Half.RegsBut a (b.put r w i) ws :=
  fun q j hw hs => (Half.get_put_other b w (fun e : q.at j = r.at i => hw (e.symm ▸ hm))).trans (h q j hw hs)

theorem Half.RegsBut.putN {a b : Half} {ws : List Nat} (h : Half.RegsBut a b ws) {r : RegDef} {n : Nat} {i : Nat} (hm : r.at i ∈ ws) : Half.RegsBut a (b.putN r n i) ws := h.put hm

theorem Half.RegsBut.fset {a b : Half} {ws : List Nat} (h : Half.RegsBut a b ws) {f : Fld} {v : Nat} {i : Nat} (hm : f.reg.at i ∈ ws) : Half.RegsBut a (b.fset f v i) ws := h.put hm

theorem Half.RegsBut.bump {a b : Half} {ws : List Nat} (h : Half.RegsBut a b ws) {f : Fld} {n : Nat} {i : Nat} (hm : f.reg.at i ∈ ws) : Half.RegsBut a (b.bump f n i) ws := h.put hm

theorem Half.RegsBut.bumpWord {a b : Half} {ws : List Nat} (h : Half.RegsBut a b ws) {r : RegDef} {n : Nat} {i : Nat} (hm : r.at i ∈ ws) : Half.RegsBut a (b.bumpWord r n i) ws := h.put hm

theorem Half.RegsBut.logErr {a b : Half} {ws : List Nat} (h : Half.RegsBut a b ws) {code inst info : Nat} (h1 : ERR_STAT.at 0 ∈ ws) (h2 : ERR_SUPPR.at 0 ∈ ws) :
    Half.RegsBut a (b.logErr code inst info) ws :=
  fun _ _ hw hs => (b.logErr_get code inst info (fun e => hw (e.symm ▸ h1)) (fun e => hw (e.symm ▸ h2))).trans (h _ _ hw hs)

theorem Half.RegsBut.log {a b : Half} {ws : List Nat} (h : Half.RegsBut a b ws) {code inst : Nat} (h1 : ERR_STAT.at 0 ∈ ws) (h2 : ERR_SUPPR.at 0 ∈ ws) :
    Half.RegsBut a (b.log code inst) ws := h.logErr h1 h2

theorem Half.RegsBut.raise {a b : Half} {ws : List Nat} (h : Half.RegsBut a b ws) {n : Nat} (hm : pendAddr n ∈ ws) : Half.RegsBut a (b.raise n) ws :=
  fun _ _ hw hs => (b.raise_get n (fun e => hw (e.symm ▸ hm))).trans (h _ _ hw hs)

theorem Half.RegsBut.raiseOnce {a b : Half} {ws : List Nat} (h : Half.RegsBut a b ws) {n : Nat} (hm : pendAddr n ∈ ws) : Half.RegsBut a (b.raiseOnce n) ws :=
  fun _ _ hw hs => (b.raiseOnce_get n (fun e => hw (e.symm ▸ hm))).trans (h _ _ hw hs)

/-- A change that leaves the register table and the place alone. -/
theorem Half.RegsBut.other {a b c : Half} {ws : List Nat} (h : Half.RegsBut a b ws) (hid : c.id = b.id) (hr : c.regs = b.regs) : Half.RegsBut a c ws :=
  h.trans (.of_eq hid hr)

end Sys2Proof.Machine
end

