-- ==== Sys2Proof/Laws/Memory.lean ====
section
/-! SUPPORT. The canonical form of sparse memories: every memory operation keeps it, and a byte written is read back while
every other byte stays. -/

namespace Sys2Proof.Machine

/-! ### Canonical form -/

/-- Every key of a table lies above `k`. -/
def SMap.above {α : Type} (k : Nat) (m : SMap α) : Prop := ∀ e ∈ m, k < e.1

theorem SMap.sorted_cons {α : Type} (a : Nat × α) (m : SMap α) : SMap.sorted (a :: m) = true ↔ SMap.above a.1 m ∧ SMap.sorted m = true := by
  induction m generalizing a with
  | nil => simp [SMap.sorted, SMap.above]
  | cons b m ih =>
    simp only [SMap.sorted, Bool.and_eq_true, decide_eq_true_eq]
    constructor
    · rintro ⟨hab, hb⟩
      refine ⟨?_, hb⟩
      intro e he
      rcases List.mem_cons.mp he with rfl | he
      · exact hab
      · exact Nat.lt_trans hab (((ih b).mp hb).1 e he)
    · rintro ⟨ha, hb⟩
      exact ⟨ha b List.mem_cons_self, hb⟩

/-- A part of a table in canonical form is in canonical form. -/
theorem SMap.canon_sublist {α : Type} [DecidableEq α] {d : α} {m n : SMap α} (hs : n.Sublist m) (h : SMap.canon d m = true) : SMap.canon d n = true := by
  induction hs with
  | slnil => exact h
  | cons a _ ih =>
    apply ih
    simp only [SMap.canon, Bool.and_eq_true, SMap.sorted_cons, List.all_cons] at h ⊢
    exact ⟨h.1.2, h.2.2⟩
  | cons_cons a hs ih =>
    simp only [SMap.canon, Bool.and_eq_true, SMap.sorted_cons, List.all_cons] at h ih ⊢
    have := ih ⟨h.1.2, h.2.2⟩
    exact ⟨⟨fun e he => h.1.1 e (hs.subset he), this.1⟩, h.2.1, this.2⟩

theorem SMap.canon_filter {α : Type} [DecidableEq α] {d : α} {m : SMap α} (p : Nat × α → Bool) (h : SMap.canon d m = true) :
    SMap.canon d (m.filter p) = true := SMap.canon_sublist List.filter_sublist h

theorem SMap.canon_append {α : Type} [DecidableEq α] {d : α} {m n : SMap α} (hm : SMap.canon d m = true) (hn : SMap.canon d n = true)
    (hmn : ∀ a ∈ m, ∀ b ∈ n, a.1 < b.1) : SMap.canon d (m ++ n) = true := by
  induction m with
  | nil => exact hn
  | cons a m ih =>
    have ht := ih (SMap.canon_sublist (List.sublist_cons_self a m) hm) (fun x hx => hmn x (List.mem_cons_of_mem _ hx))
    simp only [SMap.canon, Bool.and_eq_true, SMap.sorted_cons, List.all_cons, List.cons_append] at hm ht ⊢
    refine ⟨⟨fun e he => ?_, ht.1⟩, hm.2.1, ht.2⟩
    rcases List.mem_append.mp he with he | he
    · exact hm.1.1 e he
    · exact hmn a List.mem_cons_self e he

theorem cellsFrom_keys {α : Type} [DecidableEq α] (d : α) (vs : List α) (k : Nat) : ∀ e ∈ cellsFrom d k vs, k ≤ e.1 ∧ e.1 < k + vs.length := by
  induction vs generalizing k with
  | nil => simp [cellsFrom]
  | cons v vs ih =>
    intro e he
    simp only [cellsFrom] at he
    split at he
    · have := ih (k + 1) e he
      simp only [List.length_cons]
      omega
    · rcases List.mem_cons.mp he with rfl | he
      · simp
      · have := ih (k + 1) e he
        simp only [List.length_cons]
        omega

theorem cellsFrom_canon {α : Type} [DecidableEq α] (d : α) (vs : List α) (k : Nat) : SMap.canon d (cellsFrom d k vs) = true := by
  induction vs generalizing k with
  | nil => rfl
  | cons v vs ih =>
    simp only [cellsFrom]
    split
    · exact ih (k + 1)
    · rename_i hv
      have := ih (k + 1)
      simp only [SMap.canon, Bool.and_eq_true, SMap.sorted_cons, List.all_cons] at this ⊢
      exact ⟨⟨fun e he => Nat.lt_of_succ_le (cellsFrom_keys d vs (k + 1) e he).1, this.1⟩, by simp [hv], this.2⟩

/-- A run of consecutive values written keeps the canonical form. -/
theorem SMap.canon_putRun {α : Type} [DecidableEq α] {d : α} {m : SMap α} (k : Nat) (vs : List α) (h : SMap.canon d m = true) :
    SMap.canon d (SMap.putRun d m k vs) = true := by
  unfold SMap.putRun
  apply SMap.canon_append
  · apply SMap.canon_append (SMap.canon_filter _ h) (cellsFrom_canon d vs k)
    intro a ha b hb
    have h1 : a.1 < k := by simpa using (List.mem_filter.mp ha).2
    exact Nat.lt_of_lt_of_le h1 (cellsFrom_keys d vs k b hb).1
  · exact SMap.canon_filter _ h
  · intro a ha b hb
    have h2 : k + vs.length ≤ b.1 := by simpa using (List.mem_filter.mp hb).2
    rcases List.mem_append.mp ha with ha | ha
    · have h1 : a.1 < k := by simpa using (List.mem_filter.mp ha).2
      omega
    · have := (cellsFrom_keys d vs k a ha).2
      omega

theorem SMap.insert_mem {α : Type} (m : SMap α) (k : Nat) (v : α) : ∀ e ∈ SMap.insert m k v, e = (k, v) ∨ e ∈ m := by
  induction m with
  | nil => simp [SMap.insert]
  | cons a m ih =>
    obtain ⟨j, w⟩ := a
    intro e he
    simp only [SMap.insert] at he
    split at he
    · exact List.mem_cons.mp he
    · split at he
      · rcases List.mem_cons.mp he with h | h
        · exact .inl h
        · exact .inr (List.mem_cons_of_mem _ h)
      · rcases List.mem_cons.mp he with h | h
        · exact .inr (h ▸ List.mem_cons_self)
        · exact (ih e h).imp (fun x => x) (List.mem_cons_of_mem _)

theorem SMap.canon_insert {α : Type} [DecidableEq α] {d : α} {m : SMap α} (k : Nat) {v : α} (hv : v ≠ d) (h : SMap.canon d m = true) :
    SMap.canon d (SMap.insert m k v) = true := by
  induction m with
  | nil => simp [SMap.insert, SMap.canon, SMap.sorted, hv]
  | cons a m ih =>
    obtain ⟨j, w⟩ := a
    have ht := ih (SMap.canon_sublist (List.sublist_cons_self _ m) h)
    simp only [SMap.canon, Bool.and_eq_true, SMap.sorted_cons, List.all_cons] at h ht
    simp only [SMap.insert]
    split
    · rename_i hk
      simp only [SMap.canon, Bool.and_eq_true, SMap.sorted_cons, List.all_cons]
      refine ⟨⟨fun e he => ?_, h.1⟩, by simp [hv], h.2⟩
      rcases List.mem_cons.mp he with rfl | he
      · exact hk
      · exact Nat.lt_trans hk (h.1.1 e he)
    · split
      · rename_i hk
        simp only [SMap.canon, Bool.and_eq_true, SMap.sorted_cons, List.all_cons]
        exact ⟨⟨fun e he => hk ▸ h.1.1 e he, h.1.2⟩, by simp [hv], h.2.2⟩
      · rename_i h1 h2
        simp only [SMap.canon, Bool.and_eq_true, SMap.sorted_cons, List.all_cons]
        refine ⟨⟨fun e he => ?_, ht.1⟩, h.2.1, ht.2⟩
        rcases SMap.insert_mem m k v e he with rfl | he
        · show j < k
          omega
        · exact h.1.1 e he

/-- A value written at one key keeps the canonical form. -/
theorem SMap.canon_put {α : Type} [DecidableEq α] {d : α} {m : SMap α} (k : Nat) (v : α) (h : SMap.canon d m = true) :
    SMap.canon d (SMap.put d m k v) = true := by
  unfold SMap.put
  split
  · exact SMap.canon_filter _ h
  · rename_i hv
    exact SMap.canon_insert k hv h

/-! ### What is read after a run is written -/

theorem SMap.find?_append {α : Type} (m n : SMap α) (j : Nat) :
    SMap.find? (m ++ n) j = (SMap.find? m j).or (SMap.find? n j) := by
  induction m with
  | nil => simp [SMap.find?]
  | cons a m ih =>
    obtain ⟨k, v⟩ := a
    simp only [List.cons_append, SMap.find?]
    split
    · rfl
    · exact ih

theorem SMap.find?_none {α : Type} {m : SMap α} {j : Nat} (h : ∀ e ∈ m, e.1 ≠ j) : SMap.find? m j = none := by
  induction m with
  | nil => rfl
  | cons a m ih =>
    obtain ⟨k, v⟩ := a
    have hk : ¬ j = k := fun hj => h (k, v) List.mem_cons_self hj.symm
    simp only [SMap.find?, hk, if_false]
    exact ih (fun e he => h e (List.mem_cons_of_mem _ he))

theorem SMap.find?_filter {α : Type} (m : SMap α) (p : Nat → Bool) (j : Nat) :
    SMap.find? (m.filter (fun e => p e.1)) j = if p j then SMap.find? m j else none := by
  induction m with
  | nil => simp [SMap.find?]
  | cons a m ih =>
    obtain ⟨k, v⟩ := a
    simp only [List.filter_cons]
    by_cases hj : j = k
    · subst hj
      cases hp : p j <;> simp [SMap.find?, hp, ih]
    · cases hp : p k <;> simp [SMap.find?, hj, ih]

theorem cellsFrom_getD {α : Type} [DecidableEq α] (d : α) (vs : List α) (k j : Nat) :
    SMap.getD (cellsFrom d k vs) j d = if k ≤ j ∧ j < k + vs.length then vs.getD (j - k) d else d := by
  induction vs generalizing k with
  | nil =>
    have hn : ¬ (k ≤ j ∧ j < k + 0) := by omega
    simp [cellsFrom, SMap.getD, SMap.find?]
  | cons v vs ih =>
    simp only [cellsFrom, List.length_cons]
    by_cases hj : j = k
    · subst hj
      have hnone : SMap.find? (cellsFrom d (j + 1) vs) j = none :=
        SMap.find?_none (fun e he heq => by have := (cellsFrom_keys d vs (j + 1) e he).1; omega)
      have hin : j ≤ j ∧ j < j + (vs.length + 1) := by omega
      split
      · rename_i hv
        simp [SMap.getD, hnone, hv]
      · simp [SMap.getD, SMap.find?]
    · have hrest : SMap.getD (cellsFrom d (k + 1) vs) j d = if k ≤ j ∧ j < k + (vs.length + 1) then (v :: vs).getD (j - k) d else d := by
        rw [ih (k + 1)]
        by_cases hr : k + 1 ≤ j ∧ j < k + 1 + vs.length
        · have e : j - k = (j - (k + 1)) + 1 := by omega
          rw [if_pos hr, if_pos (by omega), e, List.getD_cons_succ]
        · rw [if_neg hr, if_neg (by omega)]
      split
      · exact hrest
      · rw [← hrest]
        simp [SMap.getD, SMap.find?, hj]

/-- After a run is written, a key of the run reads its value and every other key reads as before. -/
theorem SMap.getD_putRun {α : Type} [DecidableEq α] (d : α) (m : SMap α) (k : Nat) (vs : List α) (j : Nat) :
    SMap.getD (SMap.putRun d m k vs) j d = if k ≤ j ∧ j < k + vs.length then vs.getD (j - k) d else SMap.getD m j d := by
  have h1 := SMap.find?_filter m (fun e => decide (e < k)) j
  have h2 := SMap.find?_filter m (fun e => decide (k + vs.length ≤ e)) j
  have h3 := cellsFrom_getD d vs k j
  simp only [SMap.putRun, SMap.getD, SMap.find?_append, h1, h2]
  by_cases hr : k ≤ j ∧ j < k + vs.length
  · rw [if_pos hr] at h3 ⊢
    rw [if_neg (by simpa using hr.1), if_neg (by simpa using hr.2), Option.none_or, Option.or_none]
    exact h3
  · have hn : SMap.find? (cellsFrom d k vs) j = none :=
      SMap.find?_none (fun e he heq => by have := cellsFrom_keys d vs k e he; omega)
    rw [if_neg hr, hn]
    by_cases hl : j < k
    · simp [hl, show ¬ k + vs.length ≤ j by omega]
    · simp [hl, show k + vs.length ≤ j by omega]

/-! ### The memory operations of a half -/

/-- A write inside one granule keeps memory in canonical form. -/
theorem Half.writePiece_wf (h : Half) (a : Nat) (bs : List Byte) (hm : Memory.wf h.hbm.mem = true) : Memory.wf (h.writePiece a bs).hbm.mem = true := by
  unfold Half.writePiece
  split
  · simpa [Half.noRegion] using hm
  · split
    · exact SMap.canon_putRun a bs hm
    · exact hm

/-- A write at an HBM address keeps memory in canonical form. -/
theorem Half.memWrite_wf (h : Half) (a : Nat) (bs : List Byte) (hm : Memory.wf h.hbm.mem = true) : Memory.wf (h.memWrite a bs).hbm.mem = true := by
  unfold Half.memWrite
  generalize granules a bs.length = ps
  induction ps generalizing h with
  | nil => exact hm
  | cons p ps ih => exact ih _ (h.writePiece_wf _ _ hm)

/-- A unit written by a controller keeps memory in canonical form. -/
theorem Half.unitWrite_wf (h : Half) (u c be : Nat) (data : List Byte) (hm : Memory.wf h.hbm.mem = true) :
    Memory.wf (h.unitWrite u c be data).hbm.mem = true := by
  show SMap.canon unwrittenByte _ = true
  exact SMap.canon_putRun _ _ hm

/-- A span that is lost keeps memory in canonical form. -/
theorem Half.eraseSpan_wf (h : Half) (lo hi : Nat) (hm : Memory.wf h.hbm.mem = true) : Memory.wf (h.eraseSpan lo hi).hbm.mem = true := by
  show SMap.canon unwrittenByte _ = true
  exact SMap.canon_filter _ hm

theorem Half.eraseRegion_wf (h : Half) (r : Nat) (hm : Memory.wf h.hbm.mem = true) : Memory.wf (h.eraseRegion r).hbm.mem = true :=
  h.eraseSpan_wf _ _ hm

/-- A fence changes registers, events, errors and the bookkeeping of fences, and no byte. -/
theorem Half.fenceOne_mem (h : Half) (p cause : Nat) (inWindow : Bool) : (h.fenceOne p cause inWindow).hbm.mem = h.hbm.mem := by
  unfold Half.fenceOne
  split
  · rfl
  · dsimp only
    split <;> simp [Half.modHbm]

theorem Half.fence_mem (h : Half) (p cause : Nat) (inWindow : Bool) : (h.fence p cause inWindow).hbm.mem = h.hbm.mem := by
  have hf (g : Half) (f : Nat → Nat) (xs : List Nat) : (g.fold xs (fun h c => h.fenceOne (f c) 6 inWindow)).hbm.mem = g.hbm.mem :=
    Half.fold_keeps (·.hbm.mem) _ (fun h c => h.fenceOne_mem _ _ _) xs g
  unfold Half.fence
  split
  · rfl
  · dsimp only
    split
    · exact h.fenceOne_mem _ _ _
    · split <;> simp only [Half.modHbm, Half.log_hbm, hf, h.fenceOne_mem]

theorem Half.autoFence_mem (h : Half) (p cause : Nat) (inWindow : Bool) : (h.autoFence p cause inWindow).hbm.mem = h.hbm.mem := by
  unfold Half.autoFence
  split
  · exact h.fence_mem _ _ _
  · rfl

/-- An uncorrectable read, with the fence it may cause, changes no byte. -/
theorem Half.uncRead_mem (h : Half) (p a now : Nat) (inWindow : Bool) : (h.uncRead p a now inWindow).hbm.mem = h.hbm.mem := by
  unfold Half.uncRead
  dsimp only
  split
  · rw [Half.autoFence_mem]
    simp [Half.modHbm]
  · simp [Half.modHbm]

theorem Half.mirrorFix_mem (h : Half) (p : Nat) : (h.mirrorFix p).hbm.mem = h.hbm.mem := by simp [Half.mirrorFix]

/-- A read of a unit changes no byte. -/
theorem Half.readUnit_mem (h : Half) (ps : List Nat) (a n : Nat) : (h.readUnit ps a n).2.hbm.mem = h.hbm.mem := by
  unfold Half.readUnit
  dsimp only
  split
  · rfl
  · repeat' split
    all_goals first | rfl | exact h.uncRead_mem _ _ _ _
  · split
    · rfl
    · split
      · split
        · exact h.uncRead_mem _ _ _ _
        · rfl
      · split
        · split <;> simp only [Half.uncRead_mem, Half.mirrorFix_mem]
        · split <;> simp only [Half.uncRead_mem, Half.mirrorFix_mem]

/-- A read inside one granule changes no byte. -/
theorem Half.readPiece_mem (h : Half) (a n : Nat) : (h.readPiece a n).2.hbm.mem = h.hbm.mem := by
  unfold Half.readPiece
  split
  · simp [Half.noRegion]
  · suffices H : ∀ (xs : List (Nat × Nat)) (acc : (List Byte × Bool) × Half), acc.2.hbm.mem = h.hbm.mem →
        (xs.foldl (fun acc x => let r := acc.2.readUnit (h.addrPcs a) x.1 x.2; ((acc.1.1 ++ r.1.1, acc.1.2 || r.1.2), r.2)) acc).2.hbm.mem = h.hbm.mem
      from H _ _ rfl
    intro xs
    induction xs with
    | nil => exact fun acc ha => ha
    | cons x xs ih =>
      intro acc ha
      apply ih
      show (acc.2.readUnit _ x.1 x.2).2.hbm.mem = _
      rw [Half.readUnit_mem, ha]

/-- A read of memory changes no byte. -/
theorem Half.memRead_mem (h : Half) (a n : Nat) : (h.memRead a n).2.hbm.mem = h.hbm.mem := by
  unfold Half.memRead
  suffices H : ∀ (ps : List (Nat × Nat)) (acc : (List Byte × Bool) × Half), acc.2.hbm.mem = h.hbm.mem →
      (ps.foldl (fun acc p => let r := acc.2.readPiece p.1 p.2; ((acc.1.1 ++ r.1.1, acc.1.2 || r.1.2), r.2)) acc).2.hbm.mem = h.hbm.mem from H _ _ rfl
  intro ps
  induction ps with
  | nil => exact fun acc ha => ha
  | cons p ps ih =>
    intro acc ha
    apply ih
    show (acc.2.readPiece p.1 p.2).2.hbm.mem = _
    rw [Half.readPiece_mem, ha]

/-! ### The Courtyard -/

theorem Half.cyPut_wf (h : Half) (a n : Nat) (hm : SMap.canon 0 h.arc.cy = true) : SMap.canon 0 (h.cyPut a n).arc.cy = true :=
  SMap.canon_put _ _ hm

end Sys2Proof.Machine
end

