-- ==== Sys2Proof/Laws/Addresses.lean ====
section
/-! SUPPORT. The window offset of each register word, and the places of fields, as numbers for `simp` and `omega`. -/

namespace Sys2Proof.Machine

theorem standingAddr_of_range {a : Nat} (h : a < 0x200400 ∨ 0x201800 < a) : standingAddr a = false := by
  simp only [standingAddr, Bool.or_eq_false_iff, beq_eq_false_iff_ne, List.any_eq_false, List.mem_range, beq_iff_eq, RegDef.at, MSIX_PBA, EVC_TGT_6]
  constructor
  · omega
  · intro t ht
    omega

@[simp] theorem at_DEV_FRM_CFG (i : Nat) : DEV_FRM_CFG.at i = 0x100 := Nat.add_zero _
@[simp] theorem at_DEV_SHDW_CTL (i : Nat) : DEV_SHDW_CTL.at i = 0x10C := Nat.add_zero _
@[simp] theorem at_DEV_FRM_IDX_LO (i : Nat) : DEV_FRM_IDX_LO.at i = 0x104 := Nat.add_zero _
@[simp] theorem at_DEV_FRM_IDX_HI (i : Nat) : DEV_FRM_IDX_HI.at i = 0x108 := Nat.add_zero _
@[simp] theorem at_DEV_OVR_STAT (i : Nat) : DEV_OVR_STAT.at i = 0x110 := Nat.add_zero _
@[simp] theorem at_DEV_LATE_CNT (i : Nat) : DEV_LATE_CNT.at i = 0x114 := Nat.add_zero _
@[simp] theorem at_DEV_SUBARR_ACT (i : Nat) : DEV_SUBARR_ACT.at i = 0x118 := Nat.add_zero _
@[simp] theorem at_DEV_QUOTA_USE_0 (i : Nat) : DEV_QUOTA_USE_0.at i = 0x200 + i * 16 := rfl
@[simp] theorem at_DEV_QUOTA_USE_1 (i : Nat) : DEV_QUOTA_USE_1.at i = 0x204 + i * 16 := rfl
@[simp] theorem at_DEV_QUOTA_USE_2 (i : Nat) : DEV_QUOTA_USE_2.at i = 0x208 + i * 16 := rfl
@[simp] theorem at_DEV_QUOTA_USE_3 (i : Nat) : DEV_QUOTA_USE_3.at i = 0x20C + i * 16 := rfl
@[simp] theorem at_ING_CTL (i : Nat) : ING_CTL.at i = 0x300000 := Nat.add_zero _
@[simp] theorem at_ING_MAC_LO (i : Nat) : ING_MAC_LO.at i = 0x300010 := Nat.add_zero _
@[simp] theorem at_ING_MAC_HI (i : Nat) : ING_MAC_HI.at i = 0x300014 := Nat.add_zero _
@[simp] theorem at_ING_ETH_CFG (i : Nat) : ING_ETH_CFG.at i = 0x300018 := Nat.add_zero _
@[simp] theorem at_ING_LOCK (i : Nat) : ING_LOCK.at i = 0x300020 := Nat.add_zero _
@[simp] theorem at_ING_LANE_CFG (i : Nat) : ING_LANE_CFG.at i = 0x300100 + i * 4 := rfl
@[simp] theorem at_ING_LANE_CNT_0 (i : Nat) : ING_LANE_CNT_0.at i = 0x300400 + i * 32 := rfl
@[simp] theorem at_ING_LANE_CNT_1 (i : Nat) : ING_LANE_CNT_1.at i = 0x300404 + i * 32 := rfl
@[simp] theorem at_ING_LANE_CNT_2 (i : Nat) : ING_LANE_CNT_2.at i = 0x300408 + i * 32 := rfl
@[simp] theorem at_ING_LANE_CNT_3 (i : Nat) : ING_LANE_CNT_3.at i = 0x30040C + i * 32 := rfl
@[simp] theorem at_ING_LANE_CNT_4 (i : Nat) : ING_LANE_CNT_4.at i = 0x300410 + i * 32 := rfl
@[simp] theorem at_ING_LANE_CNT_5 (i : Nat) : ING_LANE_CNT_5.at i = 0x300414 + i * 32 := rfl
@[simp] theorem at_ING_LANE_CNT_6 (i : Nat) : ING_LANE_CNT_6.at i = 0x300418 + i * 32 := rfl
@[simp] theorem at_ING_LANE_CNT_7 (i : Nat) : ING_LANE_CNT_7.at i = 0x30041C + i * 32 := rfl
@[simp] theorem at_ING_FDLY (i : Nat) : ING_FDLY.at i = 0x301000 + i * 4 := rfl
@[simp] theorem at_ING_SKEW (i : Nat) : ING_SKEW.at i = 0x301400 + i * 4 := rfl
@[simp] theorem at_ING_POS_SRC_0 (i : Nat) : ING_POS_SRC_0.at i = 0x301800 + i * 8 := rfl
@[simp] theorem at_ING_POS_SRC_1 (i : Nat) : ING_POS_SRC_1.at i = 0x301804 + i * 8 := rfl
@[simp] theorem at_CHN_CTL (i : Nat) : CHN_CTL.at i = 0x400000 := Nat.add_zero _
@[simp] theorem at_CHN_CFG (i : Nat) : CHN_CFG.at i = 0x400004 := Nat.add_zero _
@[simp] theorem at_CHN_SCALE (i : Nat) : CHN_SCALE.at i = 0x400008 := Nat.add_zero _
@[simp] theorem at_CHN_COEF_ADDR (i : Nat) : CHN_COEF_ADDR.at i = 0x400010 := Nat.add_zero _
@[simp] theorem at_CHN_COEF_DATA (i : Nat) : CHN_COEF_DATA.at i = 0x400014 := Nat.add_zero _
@[simp] theorem at_CHN_PWR_CFG (i : Nat) : CHN_PWR_CFG.at i = 0x400020 := Nat.add_zero _
@[simp] theorem at_CHN_PWR_BAND (i : Nat) : CHN_PWR_BAND.at i = 0x400024 := Nat.add_zero _
@[simp] theorem at_CHN_PWR_THR (i : Nat) : CHN_PWR_THR.at i = 0x400028 := Nat.add_zero _
@[simp] theorem at_CHN_SK_THR (i : Nat) : CHN_SK_THR.at i = 0x400030 := Nat.add_zero _
@[simp] theorem at_CHN_OVF_STAT (i : Nat) : CHN_OVF_STAT.at i = 0x400040 := Nat.add_zero _
@[simp] theorem at_CHN_MASK (i : Nat) : CHN_MASK.at i = 0x401000 + i * 4 := rfl
@[simp] theorem at_CHN_INPUT_CFG (i : Nat) : CHN_INPUT_CFG.at i = 0x402000 + i * 4 := rfl
@[simp] theorem at_CHN_STAT_0 (i : Nat) : CHN_STAT_0.at i = 0x403000 + i * 16 := rfl
@[simp] theorem at_CHN_STAT_1 (i : Nat) : CHN_STAT_1.at i = 0x403004 + i * 16 := rfl
@[simp] theorem at_CHN_STAT_2 (i : Nat) : CHN_STAT_2.at i = 0x403008 + i * 16 := rfl
@[simp] theorem at_CHN_STAT_3 (i : Nat) : CHN_STAT_3.at i = 0x40300C + i * 16 := rfl
@[simp] theorem at_CHN_PWR_MEAN (i : Nat) : CHN_PWR_MEAN.at i = 0x404000 + i * 4 := rfl
@[simp] theorem at_DLY_CTL (i : Nat) : DLY_CTL.at i = 0x500000 := Nat.add_zero _
@[simp] theorem at_DLY_RQ_CFG (i : Nat) : DLY_RQ_CFG.at i = 0x500004 := Nat.add_zero _
@[simp] theorem at_DLY_EARLY_CNT (i : Nat) : DLY_EARLY_CNT.at i = 0x500010 := Nat.add_zero _
@[simp] theorem at_DLY_RDPTR_LO (i : Nat) : DLY_RDPTR_LO.at i = 0x500018 := Nat.add_zero _
@[simp] theorem at_DLY_RDPTR_HI (i : Nat) : DLY_RDPTR_HI.at i = 0x50001C := Nat.add_zero _
@[simp] theorem at_DLY_GAIN_ADDR (i : Nat) : DLY_GAIN_ADDR.at i = 0x500020 := Nat.add_zero _
@[simp] theorem at_DLY_GAIN_DATA (i : Nat) : DLY_GAIN_DATA.at i = 0x500024 := Nat.add_zero _
@[simp] theorem at_DLY_MODEL_0 (i : Nat) : DLY_MODEL_0.at i = 0x501000 + i * 64 := rfl
@[simp] theorem at_DLY_MODEL_1 (i : Nat) : DLY_MODEL_1.at i = 0x501004 + i * 64 := rfl
@[simp] theorem at_DLY_MODEL_2 (i : Nat) : DLY_MODEL_2.at i = 0x501008 + i * 64 := rfl
@[simp] theorem at_DLY_MODEL_3 (i : Nat) : DLY_MODEL_3.at i = 0x50100C + i * 64 := rfl
@[simp] theorem at_DLY_MODEL_4 (i : Nat) : DLY_MODEL_4.at i = 0x501010 + i * 64 := rfl
@[simp] theorem at_DLY_MODEL_5 (i : Nat) : DLY_MODEL_5.at i = 0x501014 + i * 64 := rfl
@[simp] theorem at_DLY_MODEL_6 (i : Nat) : DLY_MODEL_6.at i = 0x501018 + i * 64 := rfl
@[simp] theorem at_DLY_MODEL_7 (i : Nat) : DLY_MODEL_7.at i = 0x50101C + i * 64 := rfl
@[simp] theorem at_DLY_MODEL_8 (i : Nat) : DLY_MODEL_8.at i = 0x501020 + i * 64 := rfl
@[simp] theorem at_DLY_MODEL_9 (i : Nat) : DLY_MODEL_9.at i = 0x501024 + i * 64 := rfl
@[simp] theorem at_DLY_MODEL_10 (i : Nat) : DLY_MODEL_10.at i = 0x501028 + i * 64 := rfl
@[simp] theorem at_DLY_MODEL_11 (i : Nat) : DLY_MODEL_11.at i = 0x50102C + i * 64 := rfl
@[simp] theorem at_DLY_MODEL_12 (i : Nat) : DLY_MODEL_12.at i = 0x501030 + i * 64 := rfl
@[simp] theorem at_DLY_INPUT_CFG (i : Nat) : DLY_INPUT_CFG.at i = 0x505000 + i * 4 := rfl
@[simp] theorem at_DLY_STATE_0 (i : Nat) : DLY_STATE_0.at i = 0x506000 + i * 16 := rfl
@[simp] theorem at_DLY_STATE_1 (i : Nat) : DLY_STATE_1.at i = 0x506004 + i * 16 := rfl
@[simp] theorem at_DLY_STATE_2 (i : Nat) : DLY_STATE_2.at i = 0x506008 + i * 16 := rfl
@[simp] theorem at_DLY_STATE_3 (i : Nat) : DLY_STATE_3.at i = 0x50600C + i * 16 := rfl
@[simp] theorem at_DLY_RQ_STAT_0 (i : Nat) : DLY_RQ_STAT_0.at i = 0x508000 + i * 16 := rfl
@[simp] theorem at_DLY_RQ_STAT_1 (i : Nat) : DLY_RQ_STAT_1.at i = 0x508004 + i * 16 := rfl
@[simp] theorem at_DLY_RQ_STAT_2 (i : Nat) : DLY_RQ_STAT_2.at i = 0x508008 + i * 16 := rfl
@[simp] theorem at_DLY_RQ_STAT_3 (i : Nat) : DLY_RQ_STAT_3.at i = 0x50800C + i * 16 := rfl
@[simp] theorem at_XCH_CTL (i : Nat) : XCH_CTL.at i = 0x600000 := Nat.add_zero _
@[simp] theorem at_XCH_CFG (i : Nat) : XCH_CFG.at i = 0x600004 := Nat.add_zero _
@[simp] theorem at_XCH_PLAZA_ID (i : Nat) : XCH_PLAZA_ID.at i = 0x600008 := Nat.add_zero _
@[simp] theorem at_XCH_WIN (i : Nat) : XCH_WIN.at i = 0x60000C := Nat.add_zero _
@[simp] theorem at_XCH_CT_MISS (i : Nat) : XCH_CT_MISS.at i = 0x600010 := Nat.add_zero _
@[simp] theorem at_XCH_LANE_CFG (i : Nat) : XCH_LANE_CFG.at i = 0x600100 + i * 4 := rfl
@[simp] theorem at_XCH_LINK_STAT_0 (i : Nat) : XCH_LINK_STAT_0.at i = 0x600400 + i * 32 := rfl
@[simp] theorem at_XCH_LINK_STAT_1 (i : Nat) : XCH_LINK_STAT_1.at i = 0x600404 + i * 32 := rfl
@[simp] theorem at_XCH_LINK_STAT_2 (i : Nat) : XCH_LINK_STAT_2.at i = 0x600408 + i * 32 := rfl
@[simp] theorem at_XCH_LINK_STAT_3 (i : Nat) : XCH_LINK_STAT_3.at i = 0x60040C + i * 32 := rfl
@[simp] theorem at_XCH_LINK_STAT_4 (i : Nat) : XCH_LINK_STAT_4.at i = 0x600410 + i * 32 := rfl
@[simp] theorem at_XCH_LINK_STAT_5 (i : Nat) : XCH_LINK_STAT_5.at i = 0x600414 + i * 32 := rfl
@[simp] theorem at_XCH_LINK_STAT_6 (i : Nat) : XCH_LINK_STAT_6.at i = 0x600418 + i * 32 := rfl
@[simp] theorem at_XCH_LINK_STAT_7 (i : Nat) : XCH_LINK_STAT_7.at i = 0x60041C + i * 32 := rfl
@[simp] theorem at_ARC_CTL (i : Nat) : ARC_CTL.at i = 0x700000 := Nat.add_zero _
@[simp] theorem at_ARC_STAT (i : Nat) : ARC_STAT.at i = 0x700004 := Nat.add_zero _
@[simp] theorem at_ARC_STALL (i : Nat) : ARC_STALL.at i = 0x700008 := Nat.add_zero _
@[simp] theorem at_ARC_USE (i : Nat) : ARC_USE.at i = 0x70000C := Nat.add_zero _
@[simp] theorem at_ARC_BADOP (i : Nat) : ARC_BADOP.at i = 0x700010 := Nat.add_zero _
@[simp] theorem at_ARC_DBG (i : Nat) : ARC_DBG.at i = 0x700014 := Nat.add_zero _
@[simp] theorem at_ARC_PROG_ADDR (i : Nat) : ARC_PROG_ADDR.at i = 0x700020 := Nat.add_zero _
@[simp] theorem at_ARC_PROG_DATA (i : Nat) : ARC_PROG_DATA.at i = 0x700024 := Nat.add_zero _
@[simp] theorem at_ARC_SUB_PROG (i : Nat) : ARC_SUB_PROG.at i = 0x700100 + i * 4 := rfl
@[simp] theorem at_ARC_SUB_BANK (i : Nat) : ARC_SUB_BANK.at i = 0x700140 + i * 4 := rfl
@[simp] theorem at_ARC_BAY_STAT (i : Nat) : ARC_BAY_STAT.at i = 0x700200 + i * 4 := rfl
@[simp] theorem at_CY_STAGE (i : Nat) : CY_STAGE.at i = 0x800000 := Nat.add_zero _
@[simp] theorem at_CY_BHAND (i : Nat) : CY_BHAND.at i = 0x800004 := Nat.add_zero _
@[simp] theorem at_CY_TABLE (i : Nat) : CY_TABLE.at i = 0x800008 := Nat.add_zero _
@[simp] theorem at_CY_ECC (i : Nat) : CY_ECC.at i = 0x800010 := Nat.add_zero _
@[simp] theorem at_CY_INFO_ADDR (i : Nat) : CY_INFO_ADDR.at i = 0x800018 := Nat.add_zero _
@[simp] theorem at_CY_INFO_DATA (i : Nat) : CY_INFO_DATA.at i = 0x80001C := Nat.add_zero _
@[simp] theorem at_CY_WIN_SLOT (i : Nat) : CY_WIN_SLOT.at i = 0x800020 := Nat.add_zero _
@[simp] theorem at_CY_SUSPECT (i : Nat) : CY_SUSPECT.at i = 0x800100 + i * 4 := rfl
@[simp] theorem at_CY_WIN (i : Nat) : CY_WIN.at i = 0x808000 + i * 4 := rfl
@[simp] theorem at_TAL_CTL (i : Nat) : TAL_CTL.at i = 0x900000 := Nat.add_zero _
@[simp] theorem at_TAL_SPILL_BASE (i : Nat) : TAL_SPILL_BASE.at i = 0x900004 := Nat.add_zero _
@[simp] theorem at_TAL_SPILL_CFG (i : Nat) : TAL_SPILL_CFG.at i = 0x900008 := Nat.add_zero _
@[simp] theorem at_TAL_MIN (i : Nat) : TAL_MIN.at i = 0x900010 := Nat.add_zero _
@[simp] theorem at_TAL_MIN_LOC (i : Nat) : TAL_MIN_LOC.at i = 0x900014 := Nat.add_zero _
@[simp] theorem at_TAL_ZERO (i : Nat) : TAL_ZERO.at i = 0x900018 := Nat.add_zero _
@[simp] theorem at_TAL_STAT (i : Nat) : TAL_STAT.at i = 0x90001C := Nat.add_zero _
@[simp] theorem at_LTA_CTL (i : Nat) : LTA_CTL.at i = 0x980000 := Nat.add_zero _
@[simp] theorem at_LTA_OUT_BASE (i : Nat) : LTA_OUT_BASE.at i = 0x980004 := Nat.add_zero _
@[simp] theorem at_LTA_OUT_SIZE (i : Nat) : LTA_OUT_SIZE.at i = 0x980008 := Nat.add_zero _
@[simp] theorem at_LTA_STAT (i : Nat) : LTA_STAT.at i = 0x980010 := Nat.add_zero _
@[simp] theorem at_LTA_FOLDED (i : Nat) : LTA_FOLDED.at i = 0x980014 := Nat.add_zero _
@[simp] theorem at_LTA_OUT_USE (i : Nat) : LTA_OUT_USE.at i = 0x980018 := Nat.add_zero _
@[simp] theorem at_LTA_VIS_0 (i : Nat) : LTA_VIS_0.at i = 0x980100 + i * 32 := rfl
@[simp] theorem at_LTA_VIS_1 (i : Nat) : LTA_VIS_1.at i = 0x980104 + i * 32 := rfl
@[simp] theorem at_LTA_VIS_2 (i : Nat) : LTA_VIS_2.at i = 0x980108 + i * 32 := rfl
@[simp] theorem at_LTA_VIS_3 (i : Nat) : LTA_VIS_3.at i = 0x98010C + i * 32 := rfl
@[simp] theorem at_LTA_VIS_4 (i : Nat) : LTA_VIS_4.at i = 0x980110 + i * 32 := rfl
@[simp] theorem at_LTA_VIS_5 (i : Nat) : LTA_VIS_5.at i = 0x980114 + i * 32 := rfl
@[simp] theorem at_LTA_VIS_6 (i : Nat) : LTA_VIS_6.at i = 0x980118 + i * 32 := rfl
@[simp] theorem at_LTA_VIS_7 (i : Nat) : LTA_VIS_7.at i = 0x98011C + i * 32 := rfl
@[simp] theorem at_BMF_CTL (i : Nat) : BMF_CTL.at i = 0xA00000 := Nat.add_zero _
@[simp] theorem at_BMF_TADDR (i : Nat) : BMF_TADDR.at i = 0xA00010 := Nat.add_zero _
@[simp] theorem at_BMF_TDATA (i : Nat) : BMF_TDATA.at i = 0xA00014 := Nat.add_zero _
@[simp] theorem at_BMF_TAB_0 (i : Nat) : BMF_TAB_0.at i = 0xA00100 + i * 16 := rfl
@[simp] theorem at_BMF_TAB_1 (i : Nat) : BMF_TAB_1.at i = 0xA00104 + i * 16 := rfl
@[simp] theorem at_BMF_TAB_2 (i : Nat) : BMF_TAB_2.at i = 0xA00108 + i * 16 := rfl
@[simp] theorem at_BMF_TAB_3 (i : Nat) : BMF_TAB_3.at i = 0xA0010C + i * 16 := rfl
@[simp] theorem at_BMF_SADDR (i : Nat) : BMF_SADDR.at i = 0xA00020 := Nat.add_zero _
@[simp] theorem at_BMF_SDATA (i : Nat) : BMF_SDATA.at i = 0xA00024 := Nat.add_zero _
@[simp] theorem at_BMF_CNT_0 (i : Nat) : BMF_CNT_0.at i = 0xA00030 := Nat.add_zero _
@[simp] theorem at_BMF_CNT_1 (i : Nat) : BMF_CNT_1.at i = 0xA00034 := Nat.add_zero _
@[simp] theorem at_BMF_CNT_2 (i : Nat) : BMF_CNT_2.at i = 0xA00038 := Nat.add_zero _
@[simp] theorem at_BMF_CNT_3 (i : Nat) : BMF_CNT_3.at i = 0xA0003C := Nat.add_zero _
@[simp] theorem at_BMF_DSTATE (i : Nat) : BMF_DSTATE.at i = 0xA00040 := Nat.add_zero _
@[simp] theorem at_BMF_PROD_0 (i : Nat) : BMF_PROD_0.at i = 0xA00200 + i * 32 := rfl
@[simp] theorem at_BMF_PROD_1 (i : Nat) : BMF_PROD_1.at i = 0xA00204 + i * 32 := rfl
@[simp] theorem at_BMF_PROD_2 (i : Nat) : BMF_PROD_2.at i = 0xA00208 + i * 32 := rfl
@[simp] theorem at_BMF_PROD_3 (i : Nat) : BMF_PROD_3.at i = 0xA0020C + i * 32 := rfl
@[simp] theorem at_BMF_PROD_4 (i : Nat) : BMF_PROD_4.at i = 0xA00210 + i * 32 := rfl
@[simp] theorem at_BMF_PROD_5 (i : Nat) : BMF_PROD_5.at i = 0xA00214 + i * 32 := rfl
@[simp] theorem at_BMF_PROD_6 (i : Nat) : BMF_PROD_6.at i = 0xA00218 + i * 32 := rfl
@[simp] theorem at_CAP_CTL (i : Nat) : CAP_CTL.at i = 0xB00000 := Nat.add_zero _
@[simp] theorem at_CAP_FEED_0 (i : Nat) : CAP_FEED_0.at i = 0xB00100 + i * 64 := rfl
@[simp] theorem at_CAP_FEED_1 (i : Nat) : CAP_FEED_1.at i = 0xB00104 + i * 64 := rfl
@[simp] theorem at_CAP_FEED_2 (i : Nat) : CAP_FEED_2.at i = 0xB00108 + i * 64 := rfl
@[simp] theorem at_CAP_FEED_3 (i : Nat) : CAP_FEED_3.at i = 0xB0010C + i * 64 := rfl
@[simp] theorem at_CAP_FEED_4 (i : Nat) : CAP_FEED_4.at i = 0xB00110 + i * 64 := rfl
@[simp] theorem at_CAP_FEED_5 (i : Nat) : CAP_FEED_5.at i = 0xB00114 + i * 64 := rfl
@[simp] theorem at_CAP_FEED_6 (i : Nat) : CAP_FEED_6.at i = 0xB00118 + i * 64 := rfl
@[simp] theorem at_CAP_FEED_7 (i : Nat) : CAP_FEED_7.at i = 0xB0011C + i * 64 := rfl
@[simp] theorem at_CAP_FEED_8 (i : Nat) : CAP_FEED_8.at i = 0xB00120 + i * 64 := rfl
@[simp] theorem at_CAP_FEED_9 (i : Nat) : CAP_FEED_9.at i = 0xB00124 + i * 64 := rfl
@[simp] theorem at_CAP_FEED_10 (i : Nat) : CAP_FEED_10.at i = 0xB00128 + i * 64 := rfl
@[simp] theorem at_CAP_CMD (i : Nat) : CAP_CMD.at i = 0xB00800 + i * 4 := rfl
@[simp] theorem at_CAP_FSTAT_0 (i : Nat) : CAP_FSTAT_0.at i = 0xB00C00 + i * 32 := rfl
@[simp] theorem at_CAP_FSTAT_1 (i : Nat) : CAP_FSTAT_1.at i = 0xB00C04 + i * 32 := rfl
@[simp] theorem at_CAP_FSTAT_2 (i : Nat) : CAP_FSTAT_2.at i = 0xB00C08 + i * 32 := rfl
@[simp] theorem at_CAP_FSTAT_3 (i : Nat) : CAP_FSTAT_3.at i = 0xB00C0C + i * 32 := rfl
@[simp] theorem at_CAP_FSTAT_4 (i : Nat) : CAP_FSTAT_4.at i = 0xB00C10 + i * 32 := rfl
@[simp] theorem at_CAP_FSTAT_5 (i : Nat) : CAP_FSTAT_5.at i = 0xB00C14 + i * 32 := rfl
@[simp] theorem at_CAP_FSTAT_6 (i : Nat) : CAP_FSTAT_6.at i = 0xB00C18 + i * 32 := rfl
@[simp] theorem at_CAP_FSTAT_7 (i : Nat) : CAP_FSTAT_7.at i = 0xB00C1C + i * 32 := rfl
@[simp] theorem at_TRW_CTL (i : Nat) : TRW_CTL.at i = 0xC00000 := Nat.add_zero _
@[simp] theorem at_TRW_CTX_BASE (i : Nat) : TRW_CTX_BASE.at i = 0xC00004 := Nat.add_zero _
@[simp] theorem at_TRW_DOORBELL (i : Nat) : TRW_DOORBELL.at i = 0xC00010 := Nat.add_zero _
@[simp] theorem at_TRW_RING_CMD (i : Nat) : TRW_RING_CMD.at i = 0xC00014 := Nat.add_zero _
@[simp] theorem at_TRW_CTX_SEL (i : Nat) : TRW_CTX_SEL.at i = 0xC00020 := Nat.add_zero _
@[simp] theorem at_TRW_CTX_DATA (i : Nat) : TRW_CTX_DATA.at i = 0xC00100 + i * 4 := rfl
@[simp] theorem at_TRW_STAT_0 (i : Nat) : TRW_STAT_0.at i = 0xC00030 := Nat.add_zero _
@[simp] theorem at_TRW_STAT_1 (i : Nat) : TRW_STAT_1.at i = 0xC00034 := Nat.add_zero _
@[simp] theorem at_TRW_STAT_2 (i : Nat) : TRW_STAT_2.at i = 0xC00038 := Nat.add_zero _
@[simp] theorem at_TRW_STAT_3 (i : Nat) : TRW_STAT_3.at i = 0xC0003C := Nat.add_zero _
@[simp] theorem at_OUT_CTL (i : Nat) : OUT_CTL.at i = 0xD00000 := Nat.add_zero _
@[simp] theorem at_OUT_MAP (i : Nat) : OUT_MAP.at i = 0xD00004 := Nat.add_zero _
@[simp] theorem at_OUT_PORT_0 (i : Nat) : OUT_PORT_0.at i = 0xD00100 + i * 32 := rfl
@[simp] theorem at_OUT_PORT_1 (i : Nat) : OUT_PORT_1.at i = 0xD00104 + i * 32 := rfl
@[simp] theorem at_OUT_PORT_2 (i : Nat) : OUT_PORT_2.at i = 0xD00108 + i * 32 := rfl
@[simp] theorem at_OUT_PORT_3 (i : Nat) : OUT_PORT_3.at i = 0xD0010C + i * 32 := rfl
@[simp] theorem at_OUT_PORT_4 (i : Nat) : OUT_PORT_4.at i = 0xD00110 + i * 32 := rfl
@[simp] theorem at_OUT_PORT_5 (i : Nat) : OUT_PORT_5.at i = 0xD00114 + i * 32 := rfl
@[simp] theorem at_OUT_PORT_6 (i : Nat) : OUT_PORT_6.at i = 0xD00118 + i * 32 := rfl
@[simp] theorem at_OUT_LANE_STAT_0 (i : Nat) : OUT_LANE_STAT_0.at i = 0xD00200 + i * 16 := rfl
@[simp] theorem at_OUT_LANE_STAT_1 (i : Nat) : OUT_LANE_STAT_1.at i = 0xD00204 + i * 16 := rfl
@[simp] theorem at_OUT_LANE_STAT_2 (i : Nat) : OUT_LANE_STAT_2.at i = 0xD00208 + i * 16 := rfl
@[simp] theorem at_OUT_LANE_STAT_3 (i : Nat) : OUT_LANE_STAT_3.at i = 0xD0020C + i * 16 := rfl
@[simp] theorem at_LAN_UP (i : Nat) : LAN_UP.at i = 0xE00000 := Nat.add_zero _
@[simp] theorem at_LAN_UP_HI (i : Nat) : LAN_UP_HI.at i = 0xE00004 := Nat.add_zero _
@[simp] theorem at_LAN_CFG (i : Nat) : LAN_CFG.at i = 0xE01000 + i * 64 := rfl
@[simp] theorem at_LAN_TIME (i : Nat) : LAN_TIME.at i = 0xE01004 + i * 64 := rfl
@[simp] theorem at_LAN_DEG (i : Nat) : LAN_DEG.at i = 0xE01008 + i * 64 := rfl
@[simp] theorem at_LAN_UNC (i : Nat) : LAN_UNC.at i = 0xE0100C + i * 64 := rfl
@[simp] theorem at_LAN_TEST (i : Nat) : LAN_TEST.at i = 0xE01010 + i * 64 := rfl
@[simp] theorem at_LAN_INJ (i : Nat) : LAN_INJ.at i = 0xE01014 + i * 64 := rfl
@[simp] theorem at_LAN_STAT (i : Nat) : LAN_STAT.at i = 0xE01018 + i * 64 := rfl
@[simp] theorem at_LAN_COEF (i : Nat) : LAN_COEF.at i = 0xE0101C + i * 64 := rfl
@[simp] theorem at_LAN_CNT_8 (i : Nat) : LAN_CNT_8.at i = 0xE01020 + i * 64 := rfl
@[simp] theorem at_LAN_CNT_9 (i : Nat) : LAN_CNT_9.at i = 0xE01024 + i * 64 := rfl
@[simp] theorem at_LAN_CNT_10 (i : Nat) : LAN_CNT_10.at i = 0xE01028 + i * 64 := rfl
@[simp] theorem at_LAN_CNT_11 (i : Nat) : LAN_CNT_11.at i = 0xE0102C + i * 64 := rfl
@[simp] theorem at_LAN_CNT_12 (i : Nat) : LAN_CNT_12.at i = 0xE01030 + i * 64 := rfl
@[simp] theorem at_LAN_CNT_13 (i : Nat) : LAN_CNT_13.at i = 0xE01034 + i * 64 := rfl
@[simp] theorem at_LAN_CNT_14 (i : Nat) : LAN_CNT_14.at i = 0xE01038 + i * 64 := rfl
@[simp] theorem at_LAN_CNT_15 (i : Nat) : LAN_CNT_15.at i = 0xE0103C + i * 64 := rfl
@[simp] theorem at_HBM_CTL (i : Nat) : HBM_CTL.at i = 0x1000000 := Nat.add_zero _
@[simp] theorem at_HBM_RH_CFG (i : Nat) : HBM_RH_CFG.at i = 0x1000004 := Nat.add_zero _
@[simp] theorem at_HBM_ECC_CFG (i : Nat) : HBM_ECC_CFG.at i = 0x1000008 := Nat.add_zero _
@[simp] theorem at_HBM_THERM (i : Nat) : HBM_THERM.at i = 0x100000C := Nat.add_zero _
@[simp] theorem at_HBM_ERR_ADDR_LO (i : Nat) : HBM_ERR_ADDR_LO.at i = 0x1000010 := Nat.add_zero _
@[simp] theorem at_HBM_ERR_ADDR_HI (i : Nat) : HBM_ERR_ADDR_HI.at i = 0x1000014 := Nat.add_zero _
@[simp] theorem at_HBM_FENCED (i : Nat) : HBM_FENCED.at i = 0x1000020 + i * 4 := rfl
@[simp] theorem at_HBM_TEMP (i : Nat) : HBM_TEMP.at i = 0x1000030 + i * 4 := rfl
@[simp] theorem at_HBM_REGION_0 (i : Nat) : HBM_REGION_0.at i = 0x1000100 + i * 32 := rfl
@[simp] theorem at_HBM_REGION_1 (i : Nat) : HBM_REGION_1.at i = 0x1000104 + i * 32 := rfl
@[simp] theorem at_HBM_REGION_2 (i : Nat) : HBM_REGION_2.at i = 0x1000108 + i * 32 := rfl
@[simp] theorem at_HBM_REGION_3 (i : Nat) : HBM_REGION_3.at i = 0x100010C + i * 32 := rfl
@[simp] theorem at_HBM_REGION_4 (i : Nat) : HBM_REGION_4.at i = 0x1000110 + i * 32 := rfl
@[simp] theorem at_HBM_REGION_5 (i : Nat) : HBM_REGION_5.at i = 0x1000114 + i * 32 := rfl
@[simp] theorem at_HBM_PC_0 (i : Nat) : HBM_PC_0.at i = 0x1001000 + i * 32 := rfl
@[simp] theorem at_HBM_PC_1 (i : Nat) : HBM_PC_1.at i = 0x1001004 + i * 32 := rfl
@[simp] theorem at_HBM_PC_2 (i : Nat) : HBM_PC_2.at i = 0x1001008 + i * 32 := rfl
@[simp] theorem at_HBM_PC_3 (i : Nat) : HBM_PC_3.at i = 0x100100C + i * 32 := rfl
@[simp] theorem at_HBM_PC_4 (i : Nat) : HBM_PC_4.at i = 0x1001010 + i * 32 := rfl
@[simp] theorem at_HBM_PC_5 (i : Nat) : HBM_PC_5.at i = 0x1001014 + i * 32 := rfl
@[simp] theorem at_HBM_PC_6 (i : Nat) : HBM_PC_6.at i = 0x1001018 + i * 32 := rfl
@[simp] theorem at_HBM_PC_7 (i : Nat) : HBM_PC_7.at i = 0x100101C + i * 32 := rfl
@[simp] theorem at_RDB_QOS (i : Nat) : RDB_QOS.at i = 0x1400000 + i * 4 := rfl
@[simp] theorem at_RDB_PARK (i : Nat) : RDB_PARK.at i = 0x1400100 + i * 4 := rfl
@[simp] theorem at_RDB_CFG (i : Nat) : RDB_CFG.at i = 0x1400400 := Nat.add_zero _
@[simp] theorem at_RDB_STAT (i : Nat) : RDB_STAT.at i = 0x1400404 := Nat.add_zero _
@[simp] theorem at_RDB_BRIDGE_CNT (i : Nat) : RDB_BRIDGE_CNT.at i = 0x1400408 := Nat.add_zero _
@[simp] theorem at_RDB_TMO_ADDR_LO (i : Nat) : RDB_TMO_ADDR_LO.at i = 0x1400410 := Nat.add_zero _
@[simp] theorem at_RDB_TMO_ADDR_HI (i : Nat) : RDB_TMO_ADDR_HI.at i = 0x1400414 := Nat.add_zero _
@[simp] theorem at_RDB_INFLIGHT (i : Nat) : RDB_INFLIGHT.at i = 0x1400500 + i * 4 := rfl
@[simp] theorem at_TMG_CTL (i : Nat) : TMG_CTL.at i = 0x180000 := Nat.add_zero _
@[simp] theorem at_TMG_STAT (i : Nat) : TMG_STAT.at i = 0x180004 := Nat.add_zero _
@[simp] theorem at_TMG_FS (i : Nat) : TMG_FS.at i = 0x180008 := Nat.add_zero _
@[simp] theorem at_TMG_EPOCH_LO (i : Nat) : TMG_EPOCH_LO.at i = 0x18000C := Nat.add_zero _
@[simp] theorem at_TMG_EPOCH_HI (i : Nat) : TMG_EPOCH_HI.at i = 0x180010 := Nat.add_zero _
@[simp] theorem at_TMG_SLEW (i : Nat) : TMG_SLEW.at i = 0x180014 := Nat.add_zero _
@[simp] theorem at_TMG_QUAL (i : Nat) : TMG_QUAL.at i = 0x180018 := Nat.add_zero _
@[simp] theorem at_TMG_LOCK (i : Nat) : TMG_LOCK.at i = 0x18001C := Nat.add_zero _
@[simp] theorem at_TMG_DIS_THR (i : Nat) : TMG_DIS_THR.at i = 0x180020 := Nat.add_zero _
@[simp] theorem at_HO_THR (i : Nat) : HO_THR.at i = 0x180024 := Nat.add_zero _
@[simp] theorem at_HO_Y (i : Nat) : HO_Y.at i = 0x180028 := Nat.add_zero _
@[simp] theorem at_HO_Q (i : Nat) : HO_Q.at i = 0x18002C := Nat.add_zero _
@[simp] theorem at_HO_TE (i : Nat) : HO_TE.at i = 0x180030 := Nat.add_zero _
@[simp] theorem at_TMG_DAC_CFG (i : Nat) : TMG_DAC_CFG.at i = 0x180040 := Nat.add_zero _
@[simp] theorem at_TMG_DAC_GAIN (i : Nat) : TMG_DAC_GAIN.at i = 0x180044 := Nat.add_zero _
@[simp] theorem at_TMG_DAC_INIT (i : Nat) : TMG_DAC_INIT.at i = 0x180048 := Nat.add_zero _
@[simp] theorem at_TMG_DAC_CODE (i : Nat) : TMG_DAC_CODE.at i = 0x18004C := Nat.add_zero _
@[simp] theorem at_TMG_TIME_LO (i : Nat) : TMG_TIME_LO.at i = 0x180050 := Nat.add_zero _
@[simp] theorem at_TMG_TIME_HI (i : Nat) : TMG_TIME_HI.at i = 0x180054 := Nat.add_zero _
@[simp] theorem at_TMG_TIME_FR (i : Nat) : TMG_TIME_FR.at i = 0x180058 := Nat.add_zero _
@[simp] theorem at_TMG_TSET_0 (i : Nat) : TMG_TSET_0.at i = 0x180060 := Nat.add_zero _
@[simp] theorem at_TMG_TSET_1 (i : Nat) : TMG_TSET_1.at i = 0x180064 := Nat.add_zero _
@[simp] theorem at_TMG_OUT (i : Nat) : TMG_OUT.at i = 0x180070 := Nat.add_zero _
@[simp] theorem at_TMG_PTP_CFG (i : Nat) : TMG_PTP_CFG.at i = 0x180074 := Nat.add_zero _
@[simp] theorem at_TMG_SKEW_LO (i : Nat) : TMG_SKEW_LO.at i = 0x180080 := Nat.add_zero _
@[simp] theorem at_TMG_SKEW_HI (i : Nat) : TMG_SKEW_HI.at i = 0x180084 := Nat.add_zero _
@[simp] theorem at_TMG_CHK (i : Nat) : TMG_CHK.at i = 0x180088 := Nat.add_zero _
@[simp] theorem at_TMG_CHK_STAT (i : Nat) : TMG_CHK_STAT.at i = 0x18008C := Nat.add_zero _
@[simp] theorem at_TMG_CHK_MASK (i : Nat) : TMG_CHK_MASK.at i = 0x180090 + i * 4 := rfl
@[simp] theorem at_TMG_REF_PH (i : Nat) : TMG_REF_PH.at i = 0x1800C0 + i * 4 := rfl
@[simp] theorem at_TMG_REF_0 (i : Nat) : TMG_REF_0.at i = 0x180100 + i * 32 := rfl
@[simp] theorem at_TMG_REF_1 (i : Nat) : TMG_REF_1.at i = 0x180104 + i * 32 := rfl
@[simp] theorem at_TMG_REF_2 (i : Nat) : TMG_REF_2.at i = 0x180108 + i * 32 := rfl
@[simp] theorem at_TMG_REF_3 (i : Nat) : TMG_REF_3.at i = 0x18010C + i * 32 := rfl
@[simp] theorem at_TMG_REF_4 (i : Nat) : TMG_REF_4.at i = 0x180110 + i * 32 := rfl
@[simp] theorem at_TMG_REF_5 (i : Nat) : TMG_REF_5.at i = 0x180114 + i * 32 := rfl
@[simp] theorem at_TMG_REF_6 (i : Nat) : TMG_REF_6.at i = 0x180118 + i * 32 := rfl
@[simp] theorem at_TMG_REF_7 (i : Nat) : TMG_REF_7.at i = 0x18011C + i * 32 := rfl
@[simp] theorem at_LSE_CTL (i : Nat) : LSE_CTL.at i = 0x1500000 := Nat.add_zero _
@[simp] theorem at_LSE_WD (i : Nat) : LSE_WD.at i = 0x1500004 := Nat.add_zero _
@[simp] theorem at_LSE_STAT (i : Nat) : LSE_STAT.at i = 0x1500008 := Nat.add_zero _
@[simp] theorem at_LSE_EPOCH (i : Nat) : LSE_EPOCH.at i = 0x150000C := Nat.add_zero _
@[simp] theorem at_LSE_FENCE (i : Nat) : LSE_FENCE.at i = 0x1500010 := Nat.add_zero _
@[simp] theorem at_LSE_PEER (i : Nat) : LSE_PEER.at i = 0x1500014 := Nat.add_zero _
@[simp] theorem at_LSE_HB_CNT (i : Nat) : LSE_HB_CNT.at i = 0x1500018 := Nat.add_zero _
@[simp] theorem at_LSE_SW_CNT (i : Nat) : LSE_SW_CNT.at i = 0x150001C := Nat.add_zero _
@[simp] theorem at_LSE_DREC (i : Nat) : LSE_DREC.at i = 0x1500100 + i * 4 := rfl
@[simp] theorem at_EVC_CTL (i : Nat) : EVC_CTL.at i = 0x200000 := Nat.add_zero _
@[simp] theorem at_EVC_STAT (i : Nat) : EVC_STAT.at i = 0x200004 := Nat.add_zero _
@[simp] theorem at_EVC_SWSET (i : Nat) : EVC_SWSET.at i = 0x200008 := Nat.add_zero _
@[simp] theorem at_EVC_ENABLE (i : Nat) : EVC_ENABLE.at i = 0x200100 + i * 4 := rfl
@[simp] theorem at_EVC_PENDING (i : Nat) : EVC_PENDING.at i = 0x200180 + i * 4 := rfl
@[simp] theorem at_EVC_KIND (i : Nat) : EVC_KIND.at i = 0x200200 + i * 4 := rfl
@[simp] theorem at_EVC_HOLD (i : Nat) : EVC_HOLD.at i = 0x200300 + i * 4 := rfl
@[simp] theorem at_EVC_TGT_0 (i : Nat) : EVC_TGT_0.at i = 0x200400 + i * 32 := rfl
@[simp] theorem at_EVC_TGT_1 (i : Nat) : EVC_TGT_1.at i = 0x200404 + i * 32 := rfl
@[simp] theorem at_EVC_TGT_2 (i : Nat) : EVC_TGT_2.at i = 0x200408 + i * 32 := rfl
@[simp] theorem at_EVC_TGT_3 (i : Nat) : EVC_TGT_3.at i = 0x20040C + i * 32 := rfl
@[simp] theorem at_EVC_TGT_4 (i : Nat) : EVC_TGT_4.at i = 0x200410 + i * 32 := rfl
@[simp] theorem at_EVC_TGT_5 (i : Nat) : EVC_TGT_5.at i = 0x200414 + i * 32 := rfl
@[simp] theorem at_EVC_TGT_6 (i : Nat) : EVC_TGT_6.at i = 0x200418 + i * 32 := rfl
@[simp] theorem at_EVC_TGT_7 (i : Nat) : EVC_TGT_7.at i = 0x20041C + i * 32 := rfl
@[simp] theorem at_EVC_HV (i : Nat) : EVC_HV.at i = 0x200600 + i * 4 := rfl
@[simp] theorem at_MSIX_0 (i : Nat) : MSIX_0.at i = 0x201000 + i * 16 := rfl
@[simp] theorem at_MSIX_1 (i : Nat) : MSIX_1.at i = 0x201004 + i * 16 := rfl
@[simp] theorem at_MSIX_2 (i : Nat) : MSIX_2.at i = 0x201008 + i * 16 := rfl
@[simp] theorem at_MSIX_3 (i : Nat) : MSIX_3.at i = 0x20100C + i * 16 := rfl
@[simp] theorem at_MSIX_PBA (i : Nat) : MSIX_PBA.at i = 0x201800 := Nat.add_zero _
@[simp] theorem at_SUP_CTL (i : Nat) : SUP_CTL.at i = 0x100000 := Nat.add_zero _
@[simp] theorem at_SUP_STAT (i : Nat) : SUP_STAT.at i = 0x100004 := Nat.add_zero _
@[simp] theorem at_SUP_FEED (i : Nat) : SUP_FEED.at i = 0x100008 := Nat.add_zero _
@[simp] theorem at_SUP_BO (i : Nat) : SUP_BO.at i = 0x10000C := Nat.add_zero _
@[simp] theorem at_SUP_AVS (i : Nat) : SUP_AVS.at i = 0x100010 := Nat.add_zero _
@[simp] theorem at_SUP_THERM (i : Nat) : SUP_THERM.at i = 0x100014 := Nat.add_zero _
@[simp] theorem at_SUP_RAIL_0 (i : Nat) : SUP_RAIL_0.at i = 0x100100 + i * 16 := rfl
@[simp] theorem at_SUP_RAIL_1 (i : Nat) : SUP_RAIL_1.at i = 0x100104 + i * 16 := rfl
@[simp] theorem at_SUP_RAIL_2 (i : Nat) : SUP_RAIL_2.at i = 0x100108 + i * 16 := rfl
@[simp] theorem at_SUP_RAIL_3 (i : Nat) : SUP_RAIL_3.at i = 0x10010C + i * 16 := rfl
@[simp] theorem at_HKA_CTL (i : Nat) : HKA_CTL.at i = 0x140000 := Nat.add_zero _
@[simp] theorem at_HKA_STAT (i : Nat) : HKA_STAT.at i = 0x140004 := Nat.add_zero _
@[simp] theorem at_HKA_CAL (i : Nat) : HKA_CAL.at i = 0x140010 + i * 4 := rfl
@[simp] theorem at_HKA_SEQ (i : Nat) : HKA_SEQ.at i = 0x140100 + i * 4 := rfl
@[simp] theorem at_HKA_RES (i : Nat) : HKA_RES.at i = 0x140200 + i * 4 := rfl
@[simp] theorem at_HKA_URG (i : Nat) : HKA_URG.at i = 0x140300 + i * 4 := rfl
@[simp] theorem at_NVM_XSPI (i : Nat) : NVM_XSPI.at i = 0x280000 := Nat.add_zero _
@[simp] theorem at_NVM_SWITCH (i : Nat) : NVM_SWITCH.at i = 0x280004 := Nat.add_zero _
@[simp] theorem at_NVM_STAT (i : Nat) : NVM_STAT.at i = 0x280008 := Nat.add_zero _
@[simp] theorem at_NVM_BOOT (i : Nat) : NVM_BOOT.at i = 0x28000C := Nat.add_zero _
@[simp] theorem at_NVM_SEQ (i : Nat) : NVM_SEQ.at i = 0x280010 := Nat.add_zero _
@[simp] theorem at_NVM_REPLAY (i : Nat) : NVM_REPLAY.at i = 0x280014 := Nat.add_zero _
@[simp] theorem at_DEV_MBX_CTL (i : Nat) : DEV_MBX_CTL.at i = 0x18000 := Nat.add_zero _
@[simp] theorem at_DEV_MBX_REQ (i : Nat) : DEV_MBX_REQ.at i = 0x10000 + i * 4 := rfl
@[simp] theorem at_DEV_MBX_RSP (i : Nat) : DEV_MBX_RSP.at i = 0x14000 + i * 4 := rfl
@[simp] theorem at_DEV_MBX_EVT (i : Nat) : DEV_MBX_EVT.at i = 0x1C000 + i * 4 := rfl
@[simp] theorem at_DEV_ID (i : Nat) : DEV_ID.at i = 0x0 := Nat.add_zero _
@[simp] theorem at_DEV_REV (i : Nat) : DEV_REV.at i = 0x4 := Nat.add_zero _
@[simp] theorem at_DEV_FWVER (i : Nat) : DEV_FWVER.at i = 0x8 := Nat.add_zero _
@[simp] theorem at_DEV_HALF (i : Nat) : DEV_HALF.at i = 0xC := Nat.add_zero _
@[simp] theorem at_DEV_SERIAL_LO (i : Nat) : DEV_SERIAL_LO.at i = 0x10 := Nat.add_zero _
@[simp] theorem at_DEV_SERIAL_HI (i : Nat) : DEV_SERIAL_HI.at i = 0x14 := Nat.add_zero _
@[simp] theorem at_DEV_MAC_LO (i : Nat) : DEV_MAC_LO.at i = 0x18 := Nat.add_zero _
@[simp] theorem at_DEV_MAC_HI (i : Nat) : DEV_MAC_HI.at i = 0x1C := Nat.add_zero _
@[simp] theorem at_DEV_STATE (i : Nat) : DEV_STATE.at i = 0x20 := Nat.add_zero _
@[simp] theorem at_DEV_SCRATCH (i : Nat) : DEV_SCRATCH.at i = 0x24 := Nat.add_zero _
@[simp] theorem at_ERR_HEAD_0 (i : Nat) : ERR_HEAD_0.at i = 0x240000 := Nat.add_zero _
@[simp] theorem at_ERR_HEAD_1 (i : Nat) : ERR_HEAD_1.at i = 0x240004 := Nat.add_zero _
@[simp] theorem at_ERR_HEAD_2 (i : Nat) : ERR_HEAD_2.at i = 0x240008 := Nat.add_zero _
@[simp] theorem at_ERR_HEAD_3 (i : Nat) : ERR_HEAD_3.at i = 0x24000C := Nat.add_zero _
@[simp] theorem at_ERR_CTL (i : Nat) : ERR_CTL.at i = 0x240010 := Nat.add_zero _
@[simp] theorem at_ERR_STAT (i : Nat) : ERR_STAT.at i = 0x240014 := Nat.add_zero _
@[simp] theorem at_ERR_SUPPR (i : Nat) : ERR_SUPPR.at i = 0x240018 := Nat.add_zero _
@[simp] theorem reg_DEV_FRM_CFG_FMT8 : DEV_FRM_CFG_FMT8.reg = DEV_FRM_CFG := rfl
@[simp] theorem reg_DEV_FRM_CFG_DEPTH : DEV_FRM_CFG_DEPTH.reg = DEV_FRM_CFG := rfl
@[simp] theorem reg_DEV_FRM_CFG_FCODE : DEV_FRM_CFG_FCODE.reg = DEV_FRM_CFG := rfl
@[simp] theorem reg_DEV_SHDW_CTL_SHADOW_HELD : DEV_SHDW_CTL_SHADOW_HELD.reg = DEV_SHDW_CTL := rfl
@[simp] theorem reg_DEV_SHDW_CTL_SHADOW_LATE : DEV_SHDW_CTL_SHADOW_LATE.reg = DEV_SHDW_CTL := rfl
@[simp] theorem reg_DEV_SHDW_CTL_HOLD : DEV_SHDW_CTL_HOLD.reg = DEV_SHDW_CTL := rfl
@[simp] theorem reg_DEV_FRM_IDX_HI_IDX_HI : DEV_FRM_IDX_HI_IDX_HI.reg = DEV_FRM_IDX_HI := rfl
@[simp] theorem reg_DEV_OVR_STAT_STAGE : DEV_OVR_STAT_STAGE.reg = DEV_OVR_STAT := rfl
@[simp] theorem reg_DEV_OVR_STAT_FRAME : DEV_OVR_STAT_FRAME.reg = DEV_OVR_STAT := rfl
@[simp] theorem reg_DEV_OVR_STAT_DROPPED : DEV_OVR_STAT_DROPPED.reg = DEV_OVR_STAT := rfl
@[simp] theorem reg_DEV_SUBARR_ACT_SHED : DEV_SUBARR_ACT_SHED.reg = DEV_SUBARR_ACT := rfl
@[simp] theorem reg_DEV_SUBARR_ACT_ACTIVE : DEV_SUBARR_ACT_ACTIVE.reg = DEV_SUBARR_ACT := rfl
@[simp] theorem reg_ING_CTL_PMODE : ING_CTL_PMODE.reg = ING_CTL := rfl
@[simp] theorem reg_ING_CTL_RUN : ING_CTL_RUN.reg = ING_CTL := rfl
@[simp] theorem reg_ING_MAC_HI_MAC_HI : ING_MAC_HI_MAC_HI.reg = ING_MAC_HI := rfl
@[simp] theorem reg_ING_ETH_CFG_UDP_PORT : ING_ETH_CFG_UDP_PORT.reg = ING_ETH_CFG := rfl
@[simp] theorem reg_ING_ETH_CFG_VLAN_EN : ING_ETH_CFG_VLAN_EN.reg = ING_ETH_CFG := rfl
@[simp] theorem reg_ING_ETH_CFG_MCAST_EN : ING_ETH_CFG_MCAST_EN.reg = ING_ETH_CFG := rfl
@[simp] theorem reg_ING_ETH_CFG_VLAN_ID : ING_ETH_CFG_VLAN_ID.reg = ING_ETH_CFG := rfl
@[simp] theorem reg_ING_LANE_CFG_SRC : ING_LANE_CFG_SRC.reg = ING_LANE_CFG := rfl
@[simp] theorem reg_ING_LANE_CFG_SFCODE : ING_LANE_CFG_SFCODE.reg = ING_LANE_CFG := rfl
@[simp] theorem reg_ING_LANE_CFG_FRAMING : ING_LANE_CFG_FRAMING.reg = ING_LANE_CFG := rfl
@[simp] theorem reg_ING_LANE_CFG_EN : ING_LANE_CFG_EN.reg = ING_LANE_CFG := rfl
@[simp] theorem reg_ING_FDLY_DELAY : ING_FDLY_DELAY.reg = ING_FDLY := rfl
@[simp] theorem reg_CHN_CTL_RUN : CHN_CTL_RUN.reg = CHN_CTL := rfl
@[simp] theorem reg_CHN_CFG_PROTO : CHN_CFG_PROTO.reg = CHN_CFG := rfl
@[simp] theorem reg_CHN_CFG_OVF_FLAG : CHN_CFG_OVF_FLAG.reg = CHN_CFG := rfl
@[simp] theorem reg_CHN_CFG_PWR_EN : CHN_CFG_PWR_EN.reg = CHN_CFG := rfl
@[simp] theorem reg_CHN_CFG_SK_EN : CHN_CFG_SK_EN.reg = CHN_CFG := rfl
@[simp] theorem reg_CHN_CFG_SKM : CHN_CFG_SKM.reg = CHN_CFG := rfl
@[simp] theorem reg_CHN_CFG_TAPS : CHN_CFG_TAPS.reg = CHN_CFG := rfl
@[simp] theorem reg_CHN_CFG_LCODE : CHN_CFG_LCODE.reg = CHN_CFG := rfl
@[simp] theorem reg_CHN_SCALE_SCALE : CHN_SCALE_SCALE.reg = CHN_SCALE := rfl
@[simp] theorem reg_CHN_COEF_ADDR_ADDR : CHN_COEF_ADDR_ADDR.reg = CHN_COEF_ADDR := rfl
@[simp] theorem reg_CHN_COEF_DATA_COEF : CHN_COEF_DATA_COEF.reg = CHN_COEF_DATA := rfl
@[simp] theorem reg_CHN_PWR_CFG_TAU : CHN_PWR_CFG_TAU.reg = CHN_PWR_CFG := rfl
@[simp] theorem reg_CHN_PWR_CFG_GUARD : CHN_PWR_CFG_GUARD.reg = CHN_PWR_CFG := rfl
@[simp] theorem reg_CHN_PWR_BAND_HI : CHN_PWR_BAND_HI.reg = CHN_PWR_BAND := rfl
@[simp] theorem reg_CHN_PWR_BAND_LO : CHN_PWR_BAND_LO.reg = CHN_PWR_BAND := rfl
@[simp] theorem reg_CHN_PWR_THR_THR_HI : CHN_PWR_THR_THR_HI.reg = CHN_PWR_THR := rfl
@[simp] theorem reg_CHN_PWR_THR_THR_LO : CHN_PWR_THR_THR_LO.reg = CHN_PWR_THR := rfl
@[simp] theorem reg_CHN_SK_THR_UPPER : CHN_SK_THR_UPPER.reg = CHN_SK_THR := rfl
@[simp] theorem reg_CHN_SK_THR_LOWER : CHN_SK_THR_LOWER.reg = CHN_SK_THR := rfl
@[simp] theorem reg_CHN_OVF_STAT_STEP : CHN_OVF_STAT_STEP.reg = CHN_OVF_STAT := rfl
@[simp] theorem reg_CHN_OVF_STAT_INPUT : CHN_OVF_STAT_INPUT.reg = CHN_OVF_STAT := rfl
@[simp] theorem reg_CHN_INPUT_CFG_PWR_OFF : CHN_INPUT_CFG_PWR_OFF.reg = CHN_INPUT_CFG := rfl
@[simp] theorem reg_CHN_INPUT_CFG_SK_OFF : CHN_INPUT_CFG_SK_OFF.reg = CHN_INPUT_CFG := rfl
@[simp] theorem reg_DLY_CTL_FD_EN : DLY_CTL_FD_EN.reg = DLY_CTL := rfl
@[simp] theorem reg_DLY_CTL_FR_EN : DLY_CTL_FR_EN.reg = DLY_CTL := rfl
@[simp] theorem reg_DLY_CTL_RUN : DLY_CTL_RUN.reg = DLY_CTL := rfl
@[simp] theorem reg_DLY_RQ_CFG_SHIFT : DLY_RQ_CFG_SHIFT.reg = DLY_RQ_CFG := rfl
@[simp] theorem reg_DLY_RDPTR_HI_RP_HI : DLY_RDPTR_HI_RP_HI.reg = DLY_RDPTR_HI := rfl
@[simp] theorem reg_DLY_GAIN_ADDR_INPUT : DLY_GAIN_ADDR_INPUT.reg = DLY_GAIN_ADDR := rfl
@[simp] theorem reg_DLY_GAIN_ADDR_ENTRY : DLY_GAIN_ADDR_ENTRY.reg = DLY_GAIN_ADDR := rfl
@[simp] theorem reg_DLY_GAIN_DATA_GIM : DLY_GAIN_DATA_GIM.reg = DLY_GAIN_DATA := rfl
@[simp] theorem reg_DLY_GAIN_DATA_GRE : DLY_GAIN_DATA_GRE.reg = DLY_GAIN_DATA := rfl
@[simp] theorem reg_DLY_MODEL_11_REF_HI : DLY_MODEL_11_REF_HI.reg = DLY_MODEL_11 := rfl
@[simp] theorem reg_DLY_MODEL_12_VALID : DLY_MODEL_12_VALID.reg = DLY_MODEL_12 := rfl
@[simp] theorem reg_DLY_MODEL_12_SPAN : DLY_MODEL_12_SPAN.reg = DLY_MODEL_12 := rfl
@[simp] theorem reg_DLY_INPUT_CFG_FLAG_ALL : DLY_INPUT_CFG_FLAG_ALL.reg = DLY_INPUT_CFG := rfl
@[simp] theorem reg_DLY_INPUT_CFG_FD_OFF : DLY_INPUT_CFG_FD_OFF.reg = DLY_INPUT_CFG := rfl
@[simp] theorem reg_DLY_INPUT_CFG_FR_OFF : DLY_INPUT_CFG_FR_OFF.reg = DLY_INPUT_CFG := rfl
@[simp] theorem reg_DLY_STATE_0_NS : DLY_STATE_0_NS.reg = DLY_STATE_0 := rfl
@[simp] theorem reg_DLY_STATE_0_FDLY : DLY_STATE_0_FDLY.reg = DLY_STATE_0 := rfl
@[simp] theorem reg_DLY_STATE_2_JOIN : DLY_STATE_2_JOIN.reg = DLY_STATE_2 := rfl
@[simp] theorem reg_DLY_STATE_2_FDLY_DIFF : DLY_STATE_2_FDLY_DIFF.reg = DLY_STATE_2 := rfl
@[simp] theorem reg_DLY_RQ_STAT_2_PWR_HI : DLY_RQ_STAT_2_PWR_HI.reg = DLY_RQ_STAT_2 := rfl
@[simp] theorem reg_XCH_CTL_DETOUR_EN : XCH_CTL_DETOUR_EN.reg = XCH_CTL := rfl
@[simp] theorem reg_XCH_CTL_RUN : XCH_CTL_RUN.reg = XCH_CTL := rfl
@[simp] theorem reg_XCH_CFG_OFS_THR : XCH_CFG_OFS_THR.reg = XCH_CFG := rfl
@[simp] theorem reg_XCH_CFG_ORD : XCH_CFG_ORD.reg = XCH_CFG := rfl
@[simp] theorem reg_XCH_CFG_MCODE : XCH_CFG_MCODE.reg = XCH_CFG := rfl
@[simp] theorem reg_XCH_LANE_CFG_AUTO : XCH_LANE_CFG_AUTO.reg = XCH_LANE_CFG := rfl
@[simp] theorem reg_XCH_LANE_CFG_PEER : XCH_LANE_CFG_PEER.reg = XCH_LANE_CFG := rfl
@[simp] theorem reg_XCH_LANE_CFG_EN : XCH_LANE_CFG_EN.reg = XCH_LANE_CFG := rfl
@[simp] theorem reg_XCH_LINK_STAT_0_LANES : XCH_LINK_STAT_0_LANES.reg = XCH_LINK_STAT_0 := rfl
@[simp] theorem reg_XCH_LINK_STAT_0_REASON : XCH_LINK_STAT_0_REASON.reg = XCH_LINK_STAT_0 := rfl
@[simp] theorem reg_XCH_LINK_STAT_0_DETOUR : XCH_LINK_STAT_0_DETOUR.reg = XCH_LINK_STAT_0 := rfl
@[simp] theorem reg_XCH_LINK_STAT_0_STATE : XCH_LINK_STAT_0_STATE.reg = XCH_LINK_STAT_0 := rfl
@[simp] theorem reg_ARC_CTL_AUTO_REPAIR : ARC_CTL_AUTO_REPAIR.reg = ARC_CTL := rfl
@[simp] theorem reg_ARC_CTL_SUSPEND : ARC_CTL_SUSPEND.reg = ARC_CTL := rfl
@[simp] theorem reg_ARC_CTL_RUN : ARC_CTL_RUN.reg = ARC_CTL := rfl
@[simp] theorem reg_ARC_STAT_STATE : ARC_STAT_STATE.reg = ARC_STAT := rfl
@[simp] theorem reg_ARC_STAT_SUB : ARC_STAT_SUB.reg = ARC_STAT := rfl
@[simp] theorem reg_ARC_STAT_ACTIVE : ARC_STAT_ACTIVE.reg = ARC_STAT := rfl
@[simp] theorem reg_ARC_STAT_SPARES : ARC_STAT_SPARES.reg = ARC_STAT := rfl
@[simp] theorem reg_ARC_BADOP_OPC : ARC_BADOP_OPC.reg = ARC_BADOP := rfl
@[simp] theorem reg_ARC_BADOP_INDEX : ARC_BADOP_INDEX.reg = ARC_BADOP := rfl
@[simp] theorem reg_ARC_DBG_HALT : ARC_DBG_HALT.reg = ARC_DBG := rfl
@[simp] theorem reg_ARC_DBG_BAY : ARC_DBG_BAY.reg = ARC_DBG := rfl
@[simp] theorem reg_ARC_DBG_AT : ARC_DBG_AT.reg = ARC_DBG := rfl
@[simp] theorem reg_ARC_PROG_ADDR_ADDR : ARC_PROG_ADDR_ADDR.reg = ARC_PROG_ADDR := rfl
@[simp] theorem reg_ARC_SUB_PROG_LEN : ARC_SUB_PROG_LEN.reg = ARC_SUB_PROG := rfl
@[simp] theorem reg_ARC_SUB_PROG_BASE : ARC_SUB_PROG_BASE.reg = ARC_SUB_PROG := rfl
@[simp] theorem reg_ARC_SUB_BANK_BANKSZ : ARC_SUB_BANK_BANKSZ.reg = ARC_SUB_BANK := rfl
@[simp] theorem reg_ARC_BAY_STAT_STATE : ARC_BAY_STAT_STATE.reg = ARC_BAY_STAT := rfl
@[simp] theorem reg_ARC_BAY_STAT_LOGICAL : ARC_BAY_STAT_LOGICAL.reg = ARC_BAY_STAT := rfl
@[simp] theorem reg_ARC_BAY_STAT_CAUSE : ARC_BAY_STAT_CAUSE.reg = ARC_BAY_STAT := rfl
@[simp] theorem reg_ARC_BAY_STAT_FAULTS : ARC_BAY_STAT_FAULTS.reg = ARC_BAY_STAT := rfl
@[simp] theorem reg_CY_STAGE_BASE : CY_STAGE_BASE.reg = CY_STAGE := rfl
@[simp] theorem reg_CY_BHAND_BASE : CY_BHAND_BASE.reg = CY_BHAND := rfl
@[simp] theorem reg_CY_TABLE_SIZE : CY_TABLE_SIZE.reg = CY_TABLE := rfl
@[simp] theorem reg_CY_TABLE_BASE : CY_TABLE_BASE.reg = CY_TABLE := rfl
@[simp] theorem reg_CY_ECC_UNCORR : CY_ECC_UNCORR.reg = CY_ECC := rfl
@[simp] theorem reg_CY_ECC_CORR : CY_ECC_CORR.reg = CY_ECC := rfl
@[simp] theorem reg_CY_INFO_ADDR_SLOT : CY_INFO_ADDR_SLOT.reg = CY_INFO_ADDR := rfl
@[simp] theorem reg_CY_INFO_DATA_SUSPECT : CY_INFO_DATA_SUSPECT.reg = CY_INFO_DATA := rfl
@[simp] theorem reg_CY_INFO_DATA_HELD : CY_INFO_DATA_HELD.reg = CY_INFO_DATA := rfl
@[simp] theorem reg_CY_INFO_DATA_TAG : CY_INFO_DATA_TAG.reg = CY_INFO_DATA := rfl
@[simp] theorem reg_CY_INFO_DATA_PENDING : CY_INFO_DATA_PENDING.reg = CY_INFO_DATA := rfl
@[simp] theorem reg_CY_WIN_SLOT_SLOT : CY_WIN_SLOT_SLOT.reg = CY_WIN_SLOT := rfl
@[simp] theorem reg_TAL_CTL_CHECK_EN : TAL_CTL_CHECK_EN.reg = TAL_CTL := rfl
@[simp] theorem reg_TAL_SPILL_CFG_NREC : TAL_SPILL_CFG_NREC.reg = TAL_SPILL_CFG := rfl
@[simp] theorem reg_TAL_SPILL_CFG_REC0 : TAL_SPILL_CFG_REC0.reg = TAL_SPILL_CFG := rfl
@[simp] theorem reg_TAL_MIN_LOC_RECORD : TAL_MIN_LOC_RECORD.reg = TAL_MIN_LOC := rfl
@[simp] theorem reg_TAL_MIN_LOC_CELL : TAL_MIN_LOC_CELL.reg = TAL_MIN_LOC := rfl
@[simp] theorem reg_TAL_STAT_SPILL_ECC : TAL_STAT_SPILL_ECC.reg = TAL_STAT := rfl
@[simp] theorem reg_TAL_STAT_INVARIANT : TAL_STAT_INVARIANT.reg = TAL_STAT := rfl
@[simp] theorem reg_LTA_CTL_RUN : LTA_CTL_RUN.reg = LTA_CTL := rfl
@[simp] theorem reg_LTA_OUT_SIZE_SIZE : LTA_OUT_SIZE_SIZE.reg = LTA_OUT_SIZE := rfl
@[simp] theorem reg_LTA_FOLDED_ROLLBACK : LTA_FOLDED_ROLLBACK.reg = LTA_FOLDED := rfl
@[simp] theorem reg_LTA_FOLDED_FOLDED : LTA_FOLDED_FOLDED.reg = LTA_FOLDED := rfl
@[simp] theorem reg_LTA_OUT_USE_USE : LTA_OUT_USE_USE.reg = LTA_OUT_USE := rfl
@[simp] theorem reg_LTA_VIS_0_EN : LTA_VIS_0_EN.reg = LTA_VIS_0 := rfl
@[simp] theorem reg_LTA_VIS_0_SUB : LTA_VIS_0_SUB.reg = LTA_VIS_0 := rfl
@[simp] theorem reg_LTA_VIS_0_PROD : LTA_VIS_0_PROD.reg = LTA_VIS_0 := rfl
@[simp] theorem reg_LTA_VIS_0_GCODE : LTA_VIS_0_GCODE.reg = LTA_VIS_0 := rfl
@[simp] theorem reg_LTA_VIS_0_ALIGN : LTA_VIS_0_ALIGN.reg = LTA_VIS_0 := rfl
@[simp] theorem reg_LTA_VIS_0_ROWSTAT : LTA_VIS_0_ROWSTAT.reg = LTA_VIS_0 := rfl
@[simp] theorem reg_LTA_VIS_0_NORM : LTA_VIS_0_NORM.reg = LTA_VIS_0 := rfl
@[simp] theorem reg_LTA_VIS_0_OFMT : LTA_VIS_0_OFMT.reg = LTA_VIS_0 := rfl
@[simp] theorem reg_LTA_VIS_0_X32 : LTA_VIS_0_X32.reg = LTA_VIS_0 := rfl
@[simp] theorem reg_LTA_VIS_1_T_INT : LTA_VIS_1_T_INT.reg = LTA_VIS_1 := rfl
@[simp] theorem reg_LTA_VIS_3_FLOW_VIS : LTA_VIS_3_FLOW_VIS.reg = LTA_VIS_3 := rfl
@[simp] theorem reg_LTA_VIS_4_FLOW_CNT : LTA_VIS_4_FLOW_CNT.reg = LTA_VIS_4 := rfl
@[simp] theorem reg_LTA_VIS_5_FLOW_ROW : LTA_VIS_5_FLOW_ROW.reg = LTA_VIS_5 := rfl
@[simp] theorem reg_LTA_VIS_6_DONE : LTA_VIS_6_DONE.reg = LTA_VIS_6 := rfl
@[simp] theorem reg_BMF_CTL_RUN : BMF_CTL_RUN.reg = BMF_CTL := rfl
@[simp] theorem reg_BMF_TADDR_SUB : BMF_TADDR_SUB.reg = BMF_TADDR := rfl
@[simp] theorem reg_BMF_TADDR_BEAM : BMF_TADDR_BEAM.reg = BMF_TADDR := rfl
@[simp] theorem reg_BMF_TADDR_POS : BMF_TADDR_POS.reg = BMF_TADDR := rfl
@[simp] theorem reg_BMF_TADDR_WORD : BMF_TADDR_WORD.reg = BMF_TADDR := rfl
@[simp] theorem reg_BMF_TAB_2_CUR : BMF_TAB_2_CUR.reg = BMF_TAB_2 := rfl
@[simp] theorem reg_BMF_TAB_2_COPY : BMF_TAB_2_COPY.reg = BMF_TAB_2 := rfl
@[simp] theorem reg_BMF_TAB_2_DIRTY : BMF_TAB_2_DIRTY.reg = BMF_TAB_2 := rfl
@[simp] theorem reg_BMF_TAB_2_BEAMS : BMF_TAB_2_BEAMS.reg = BMF_TAB_2 := rfl
@[simp] theorem reg_BMF_TAB_3_KS : BMF_TAB_3_KS.reg = BMF_TAB_3 := rfl
@[simp] theorem reg_BMF_SADDR_SLOT : BMF_SADDR_SLOT.reg = BMF_SADDR := rfl
@[simp] theorem reg_BMF_SADDR_ENTRY : BMF_SADDR_ENTRY.reg = BMF_SADDR := rfl
@[simp] theorem reg_BMF_SDATA_SCL : BMF_SDATA_SCL.reg = BMF_SDATA := rfl
@[simp] theorem reg_BMF_DSTATE_USE : BMF_DSTATE_USE.reg = BMF_DSTATE := rfl
@[simp] theorem reg_BMF_PROD_0_EN : BMF_PROD_0_EN.reg = BMF_PROD_0 := rfl
@[simp] theorem reg_BMF_PROD_0_SUB : BMF_PROD_0_SUB.reg = BMF_PROD_0 := rfl
@[simp] theorem reg_BMF_PROD_0_PROD : BMF_PROD_0_PROD.reg = BMF_PROD_0 := rfl
@[simp] theorem reg_BMF_PROD_0_TYPE : BMF_PROD_0_TYPE.reg = BMF_PROD_0 := rfl
@[simp] theorem reg_BMF_PROD_0_STOKES : BMF_PROD_0_STOKES.reg = BMF_PROD_0 := rfl
@[simp] theorem reg_BMF_PROD_0_VFMT : BMF_PROD_0_VFMT.reg = BMF_PROD_0 := rfl
@[simp] theorem reg_BMF_PROD_0_SHIFT : BMF_PROD_0_SHIFT.reg = BMF_PROD_0 := rfl
@[simp] theorem reg_BMF_PROD_1_NB : BMF_PROD_1_NB.reg = BMF_PROD_1 := rfl
@[simp] theorem reg_BMF_PROD_1_FIRST : BMF_PROD_1_FIRST.reg = BMF_PROD_1 := rfl
@[simp] theorem reg_BMF_PROD_2_MINVALID : BMF_PROD_2_MINVALID.reg = BMF_PROD_2 := rfl
@[simp] theorem reg_BMF_PROD_2_NSCODE : BMF_PROD_2_NSCODE.reg = BMF_PROD_2 := rfl
@[simp] theorem reg_BMF_PROD_2_NCCODE : BMF_PROD_2_NCCODE.reg = BMF_PROD_2 := rfl
@[simp] theorem reg_BMF_PROD_3_SBASE : BMF_PROD_3_SBASE.reg = BMF_PROD_3 := rfl
@[simp] theorem reg_BMF_PROD_4_FLOW : BMF_PROD_4_FLOW.reg = BMF_PROD_4 := rfl
@[simp] theorem reg_CAP_CTL_RUN : CAP_CTL_RUN.reg = CAP_CTL := rfl
@[simp] theorem reg_CAP_FEED_0_MODE : CAP_FEED_0_MODE.reg = CAP_FEED_0 := rfl
@[simp] theorem reg_CAP_FEED_0_SUB : CAP_FEED_0_SUB.reg = CAP_FEED_0 := rfl
@[simp] theorem reg_CAP_FEED_0_PROD : CAP_FEED_0_PROD.reg = CAP_FEED_0 := rfl
@[simp] theorem reg_CAP_FEED_0_SZCODE : CAP_FEED_0_SZCODE.reg = CAP_FEED_0 := rfl
@[simp] theorem reg_CAP_FEED_1_NQ : CAP_FEED_1_NQ.reg = CAP_FEED_1 := rfl
@[simp] theorem reg_CAP_FEED_1_Q0 : CAP_FEED_1_Q0.reg = CAP_FEED_1 := rfl
@[simp] theorem reg_CAP_FEED_2_NCH : CAP_FEED_2_NCH.reg = CAP_FEED_2 := rfl
@[simp] theorem reg_CAP_FEED_2_C0 : CAP_FEED_2_C0.reg = CAP_FEED_2 := rfl
@[simp] theorem reg_CAP_FEED_4_POSTS : CAP_FEED_4_POSTS.reg = CAP_FEED_4 := rfl
@[simp] theorem reg_CAP_FEED_5_TSPEC_EN : CAP_FEED_5_TSPEC_EN.reg = CAP_FEED_5 := rfl
@[simp] theorem reg_CAP_FEED_5_TRIGSRC : CAP_FEED_5_TRIGSRC.reg = CAP_FEED_5 := rfl
@[simp] theorem reg_CAP_FEED_7_TSPEC_HI : CAP_FEED_7_TSPEC_HI.reg = CAP_FEED_7 := rfl
@[simp] theorem reg_CAP_FEED_8_FLOW : CAP_FEED_8_FLOW.reg = CAP_FEED_8 := rfl
@[simp] theorem reg_CAP_CMD_RELEASE : CAP_CMD_RELEASE.reg = CAP_CMD := rfl
@[simp] theorem reg_CAP_CMD_READ : CAP_CMD_READ.reg = CAP_CMD := rfl
@[simp] theorem reg_CAP_CMD_FREEZE : CAP_CMD_FREEZE.reg = CAP_CMD := rfl
@[simp] theorem reg_CAP_CMD_TRIG : CAP_CMD_TRIG.reg = CAP_CMD := rfl
@[simp] theorem reg_CAP_CMD_ARM : CAP_CMD_ARM.reg = CAP_CMD := rfl
@[simp] theorem reg_CAP_FSTAT_0_STATE : CAP_FSTAT_0_STATE.reg = CAP_FSTAT_0 := rfl
@[simp] theorem reg_CAP_FSTAT_0_TLATE : CAP_FSTAT_0_TLATE.reg = CAP_FSTAT_0 := rfl
@[simp] theorem reg_CAP_FSTAT_0_SHORT : CAP_FSTAT_0_SHORT.reg = CAP_FSTAT_0 := rfl
@[simp] theorem reg_CAP_FSTAT_0_TRIGD : CAP_FSTAT_0_TRIGD.reg = CAP_FSTAT_0 := rfl
@[simp] theorem reg_CAP_FSTAT_4_TRIG_HI : CAP_FSTAT_4_TRIG_HI.reg = CAP_FSTAT_4 := rfl
@[simp] theorem reg_TRW_CTL_RUN : TRW_CTL_RUN.reg = TRW_CTL := rfl
@[simp] theorem reg_TRW_DOORBELL_RING : TRW_DOORBELL_RING.reg = TRW_DOORBELL := rfl
@[simp] theorem reg_TRW_RING_CMD_OP : TRW_RING_CMD_OP.reg = TRW_RING_CMD := rfl
@[simp] theorem reg_TRW_RING_CMD_RING : TRW_RING_CMD_RING.reg = TRW_RING_CMD := rfl
@[simp] theorem reg_TRW_CTX_SEL_RING : TRW_CTX_SEL_RING.reg = TRW_CTX_SEL := rfl
@[simp] theorem reg_TRW_STAT_0_BUSY : TRW_STAT_0_BUSY.reg = TRW_STAT_0 := rfl
@[simp] theorem reg_OUT_CTL_SPARE_EN : OUT_CTL_SPARE_EN.reg = OUT_CTL := rfl
@[simp] theorem reg_OUT_CTL_PMODE : OUT_CTL_PMODE.reg = OUT_CTL := rfl
@[simp] theorem reg_OUT_CTL_RUN : OUT_CTL_RUN.reg = OUT_CTL := rfl
@[simp] theorem reg_OUT_MAP_SPARE : OUT_MAP_SPARE.reg = OUT_MAP := rfl
@[simp] theorem reg_OUT_MAP_MAP : OUT_MAP_MAP.reg = OUT_MAP := rfl
@[simp] theorem reg_OUT_PORT_1_SMAC_HI : OUT_PORT_1_SMAC_HI.reg = OUT_PORT_1 := rfl
@[simp] theorem reg_OUT_LANE_STAT_0_UP : OUT_LANE_STAT_0_UP.reg = OUT_LANE_STAT_0 := rfl
@[simp] theorem reg_OUT_LANE_STAT_0_ROLE : OUT_LANE_STAT_0_ROLE.reg = OUT_LANE_STAT_0 := rfl
@[simp] theorem reg_OUT_LANE_STAT_0_LOGICAL : OUT_LANE_STAT_0_LOGICAL.reg = OUT_LANE_STAT_0 := rfl
@[simp] theorem reg_LAN_UP_HI_UP_HI : LAN_UP_HI_UP_HI.reg = LAN_UP_HI := rfl
@[simp] theorem reg_LAN_CFG_AUTO_RETRAIN : LAN_CFG_AUTO_RETRAIN.reg = LAN_CFG := rfl
@[simp] theorem reg_LAN_CFG_DEG_FAULT : LAN_CFG_DEG_FAULT.reg = LAN_CFG := rfl
@[simp] theorem reg_LAN_CFG_RX_INV : LAN_CFG_RX_INV.reg = LAN_CFG := rfl
@[simp] theorem reg_LAN_CFG_TX_INV : LAN_CFG_TX_INV.reg = LAN_CFG := rfl
@[simp] theorem reg_LAN_CFG_PRECODE : LAN_CFG_PRECODE.reg = LAN_CFG := rfl
@[simp] theorem reg_LAN_CFG_AN_EN : LAN_CFG_AN_EN.reg = LAN_CFG := rfl
@[simp] theorem reg_LAN_CFG_TRAIN_EN : LAN_CFG_TRAIN_EN.reg = LAN_CFG := rfl
@[simp] theorem reg_LAN_CFG_PMD : LAN_CFG_PMD.reg = LAN_CFG := rfl
@[simp] theorem reg_LAN_CFG_MODE : LAN_CFG_MODE.reg = LAN_CFG := rfl
@[simp] theorem reg_LAN_CFG_EN : LAN_CFG_EN.reg = LAN_CFG := rfl
@[simp] theorem reg_LAN_TIME_RETRY : LAN_TIME_RETRY.reg = LAN_TIME := rfl
@[simp] theorem reg_LAN_TIME_TRAIN_TMO : LAN_TIME_TRAIN_TMO.reg = LAN_TIME := rfl
@[simp] theorem reg_LAN_DEG_DEG_CLR : LAN_DEG_DEG_CLR.reg = LAN_DEG := rfl
@[simp] theorem reg_LAN_DEG_DEG_SET : LAN_DEG_DEG_SET.reg = LAN_DEG := rfl
@[simp] theorem reg_LAN_UNC_UNC_THR : LAN_UNC_UNC_THR.reg = LAN_UNC := rfl
@[simp] theorem reg_LAN_TEST_LOOP : LAN_TEST_LOOP.reg = LAN_TEST := rfl
@[simp] theorem reg_LAN_TEST_CHK : LAN_TEST_CHK.reg = LAN_TEST := rfl
@[simp] theorem reg_LAN_TEST_GEN : LAN_TEST_GEN.reg = LAN_TEST := rfl
@[simp] theorem reg_LAN_INJ_GO : LAN_INJ_GO.reg = LAN_INJ := rfl
@[simp] theorem reg_LAN_INJ_TYPE : LAN_INJ_TYPE.reg = LAN_INJ := rfl
@[simp] theorem reg_LAN_INJ_COUNT : LAN_INJ_COUNT.reg = LAN_INJ := rfl
@[simp] theorem reg_LAN_INJ_LEN : LAN_INJ_LEN.reg = LAN_INJ := rfl
@[simp] theorem reg_LAN_INJ_PERIOD : LAN_INJ_PERIOD.reg = LAN_INJ := rfl
@[simp] theorem reg_LAN_STAT_STATE : LAN_STAT_STATE.reg = LAN_STAT := rfl
@[simp] theorem reg_LAN_STAT_CAUSE : LAN_STAT_CAUSE.reg = LAN_STAT := rfl
@[simp] theorem reg_LAN_STAT_LOS : LAN_STAT_LOS.reg = LAN_STAT := rfl
@[simp] theorem reg_LAN_STAT_FEC_ALIGN : LAN_STAT_FEC_ALIGN.reg = LAN_STAT := rfl
@[simp] theorem reg_LAN_STAT_BLOCK_LOCK : LAN_STAT_BLOCK_LOCK.reg = LAN_STAT := rfl
@[simp] theorem reg_LAN_STAT_RF : LAN_STAT_RF.reg = LAN_STAT := rfl
@[simp] theorem reg_LAN_STAT_PRE_ACT : LAN_STAT_PRE_ACT.reg = LAN_STAT := rfl
@[simp] theorem reg_LAN_STAT_CHK_LOCK : LAN_STAT_CHK_LOCK.reg = LAN_STAT := rfl
@[simp] theorem reg_LAN_STAT_INJ_ACT : LAN_STAT_INJ_ACT.reg = LAN_STAT := rfl
@[simp] theorem reg_LAN_STAT_FAR_LANE : LAN_STAT_FAR_LANE.reg = LAN_STAT := rfl
@[simp] theorem reg_LAN_STAT_TRAINS : LAN_STAT_TRAINS.reg = LAN_STAT := rfl
@[simp] theorem reg_LAN_COEF_C1 : LAN_COEF_C1.reg = LAN_COEF := rfl
@[simp] theorem reg_LAN_COEF_C0 : LAN_COEF_C0.reg = LAN_COEF := rfl
@[simp] theorem reg_LAN_COEF_CM1 : LAN_COEF_CM1.reg = LAN_COEF := rfl
@[simp] theorem reg_LAN_COEF_CM2 : LAN_COEF_CM2.reg = LAN_COEF := rfl
@[simp] theorem reg_LAN_COEF_CM3 : LAN_COEF_CM3.reg = LAN_COEF := rfl
@[simp] theorem reg_HBM_CTL_SCRUB_EN : HBM_CTL_SCRUB_EN.reg = HBM_CTL := rfl
@[simp] theorem reg_HBM_CTL_AUTO_FENCE : HBM_CTL_AUTO_FENCE.reg = HBM_CTL := rfl
@[simp] theorem reg_HBM_CTL_READY : HBM_CTL_READY.reg = HBM_CTL := rfl
@[simp] theorem reg_HBM_RH_CFG_RFM_MAX : HBM_RH_CFG_RFM_MAX.reg = HBM_RH_CFG := rfl
@[simp] theorem reg_HBM_RH_CFG_THRESH : HBM_RH_CFG_THRESH.reg = HBM_RH_CFG := rfl
@[simp] theorem reg_HBM_ECC_CFG_SCRUB_S : HBM_ECC_CFG_SCRUB_S.reg = HBM_ECC_CFG := rfl
@[simp] theorem reg_HBM_ECC_CFG_FENCE_UNC : HBM_ECC_CFG_FENCE_UNC.reg = HBM_ECC_CFG := rfl
@[simp] theorem reg_HBM_THERM_HOT : HBM_THERM_HOT.reg = HBM_THERM := rfl
@[simp] theorem reg_HBM_ERR_ADDR_HI_PC : HBM_ERR_ADDR_HI_PC.reg = HBM_ERR_ADDR_HI := rfl
@[simp] theorem reg_HBM_ERR_ADDR_HI_ADDR_HI : HBM_ERR_ADDR_HI_ADDR_HI.reg = HBM_ERR_ADDR_HI := rfl
@[simp] theorem reg_HBM_TEMP_REFMUL : HBM_TEMP_REFMUL.reg = HBM_TEMP := rfl
@[simp] theorem reg_HBM_TEMP_HOT : HBM_TEMP_HOT.reg = HBM_TEMP := rfl
@[simp] theorem reg_HBM_TEMP_TEMP : HBM_TEMP_TEMP.reg = HBM_TEMP := rfl
@[simp] theorem reg_HBM_REGION_0_EN : HBM_REGION_0_EN.reg = HBM_REGION_0 := rfl
@[simp] theorem reg_HBM_REGION_0_MIRROR : HBM_REGION_0_MIRROR.reg = HBM_REGION_0 := rfl
@[simp] theorem reg_HBM_REGION_0_SET : HBM_REGION_0_SET.reg = HBM_REGION_0 := rfl
@[simp] theorem reg_HBM_REGION_3_PCBASE : HBM_REGION_3_PCBASE.reg = HBM_REGION_3 := rfl
@[simp] theorem reg_HBM_REGION_4_EXT : HBM_REGION_4_EXT.reg = HBM_REGION_4 := rfl
@[simp] theorem reg_HBM_REGION_5_LIVE : HBM_REGION_5_LIVE.reg = HBM_REGION_5 := rfl
@[simp] theorem reg_HBM_PC_0_FENCE : HBM_PC_0_FENCE.reg = HBM_PC_0 := rfl
@[simp] theorem reg_HBM_PC_0_POLICY : HBM_PC_0_POLICY.reg = HBM_PC_0 := rfl
@[simp] theorem reg_HBM_PC_0_AGE : HBM_PC_0_AGE.reg = HBM_PC_0 := rfl
@[simp] theorem reg_HBM_PC_1_STATE : HBM_PC_1_STATE.reg = HBM_PC_1 := rfl
@[simp] theorem reg_HBM_PC_1_CAUSE : HBM_PC_1_CAUSE.reg = HBM_PC_1 := rfl
@[simp] theorem reg_HBM_PC_1_INFLIGHT : HBM_PC_1_INFLIGHT.reg = HBM_PC_1 := rfl
@[simp] theorem reg_HBM_PC_4_PARITY : HBM_PC_4_PARITY.reg = HBM_PC_4 := rfl
@[simp] theorem reg_HBM_PC_4_ODE : HBM_PC_4_ODE.reg = HBM_PC_4 := rfl
@[simp] theorem reg_RDB_QOS_QOS : RDB_QOS_QOS.reg = RDB_QOS := rfl
@[simp] theorem reg_RDB_PARK_PARK : RDB_PARK_PARK.reg = RDB_PARK := rfl
@[simp] theorem reg_RDB_CFG_TMO : RDB_CFG_TMO.reg = RDB_CFG := rfl
@[simp] theorem reg_RDB_STAT_BRIDGE_UP : RDB_STAT_BRIDGE_UP.reg = RDB_STAT := rfl
@[simp] theorem reg_RDB_STAT_DOWNS : RDB_STAT_DOWNS.reg = RDB_STAT := rfl
@[simp] theorem reg_RDB_TMO_ADDR_HI_MASTER : RDB_TMO_ADDR_HI_MASTER.reg = RDB_TMO_ADDR_HI := rfl
@[simp] theorem reg_RDB_TMO_ADDR_HI_ADDR_HI : RDB_TMO_ADDR_HI_ADDR_HI.reg = RDB_TMO_ADDR_HI := rfl
@[simp] theorem reg_RDB_INFLIGHT_COUNT : RDB_INFLIGHT_COUNT.reg = RDB_INFLIGHT := rfl
@[simp] theorem reg_TMG_CTL_STEP_EN : TMG_CTL_STEP_EN.reg = TMG_CTL := rfl
@[simp] theorem reg_TMG_CTL_HOLD : TMG_CTL_HOLD.reg = TMG_CTL := rfl
@[simp] theorem reg_TMG_CTL_FORCE : TMG_CTL_FORCE.reg = TMG_CTL := rfl
@[simp] theorem reg_TMG_STAT_STATE : TMG_STAT_STATE.reg = TMG_STAT := rfl
@[simp] theorem reg_TMG_STAT_SEL : TMG_STAT_SEL.reg = TMG_STAT := rfl
@[simp] theorem reg_TMG_STAT_TIME_VALID : TMG_STAT_TIME_VALID.reg = TMG_STAT := rfl
@[simp] theorem reg_TMG_STAT_TRACE : TMG_STAT_TRACE.reg = TMG_STAT := rfl
@[simp] theorem reg_TMG_STAT_MODEL_VALID : TMG_STAT_MODEL_VALID.reg = TMG_STAT := rfl
@[simp] theorem reg_TMG_STAT_DAC_LIMIT : TMG_STAT_DAC_LIMIT.reg = TMG_STAT := rfl
@[simp] theorem reg_TMG_STAT_DISAGREE : TMG_STAT_DISAGREE.reg = TMG_STAT := rfl
@[simp] theorem reg_TMG_STAT_PRIMARY : TMG_STAT_PRIMARY.reg = TMG_STAT := rfl
@[simp] theorem reg_TMG_FS_FS : TMG_FS_FS.reg = TMG_FS := rfl
@[simp] theorem reg_TMG_EPOCH_HI_EPOCH_HI : TMG_EPOCH_HI_EPOCH_HI.reg = TMG_EPOCH_HI := rfl
@[simp] theorem reg_TMG_SLEW_SLEW : TMG_SLEW_SLEW.reg = TMG_SLEW := rfl
@[simp] theorem reg_TMG_QUAL_WTR_S : TMG_QUAL_WTR_S.reg = TMG_QUAL := rfl
@[simp] theorem reg_TMG_QUAL_QUAL_S : TMG_QUAL_QUAL_S.reg = TMG_QUAL := rfl
@[simp] theorem reg_TMG_LOCK_LOCK_S : TMG_LOCK_LOCK_S.reg = TMG_LOCK := rfl
@[simp] theorem reg_TMG_LOCK_LOCK_THR : TMG_LOCK_LOCK_THR.reg = TMG_LOCK := rfl
@[simp] theorem reg_TMG_DAC_CFG_INVERT : TMG_DAC_CFG_INVERT.reg = TMG_DAC_CFG := rfl
@[simp] theorem reg_TMG_DAC_CFG_PREFIX : TMG_DAC_CFG_PREFIX.reg = TMG_DAC_CFG := rfl
@[simp] theorem reg_TMG_DAC_CFG_PLEN : TMG_DAC_CFG_PLEN.reg = TMG_DAC_CFG := rfl
@[simp] theorem reg_TMG_DAC_CFG_WIDTH : TMG_DAC_CFG_WIDTH.reg = TMG_DAC_CFG := rfl
@[simp] theorem reg_TMG_DAC_INIT_DAC_INIT : TMG_DAC_INIT_DAC_INIT.reg = TMG_DAC_INIT := rfl
@[simp] theorem reg_TMG_DAC_CODE_CODE : TMG_DAC_CODE_CODE.reg = TMG_DAC_CODE := rfl
@[simp] theorem reg_TMG_TSET_1_GO : TMG_TSET_1_GO.reg = TMG_TSET_1 := rfl
@[simp] theorem reg_TMG_TSET_1_SEC_HI : TMG_TSET_1_SEC_HI.reg = TMG_TSET_1 := rfl
@[simp] theorem reg_TMG_OUT_TICK_EN : TMG_OUT_TICK_EN.reg = TMG_OUT := rfl
@[simp] theorem reg_TMG_OUT_PPS_EN : TMG_OUT_PPS_EN.reg = TMG_OUT := rfl
@[simp] theorem reg_TMG_OUT_TICK_W : TMG_OUT_TICK_W.reg = TMG_OUT := rfl
@[simp] theorem reg_TMG_OUT_PPS_W : TMG_OUT_PPS_W.reg = TMG_OUT := rfl
@[simp] theorem reg_TMG_PTP_CFG_TRANSPORT : TMG_PTP_CFG_TRANSPORT.reg = TMG_PTP_CFG := rfl
@[simp] theorem reg_TMG_PTP_CFG_DOMAIN : TMG_PTP_CFG_DOMAIN.reg = TMG_PTP_CFG := rfl
@[simp] theorem reg_TMG_CHK_MIS_CNT : TMG_CHK_MIS_CNT.reg = TMG_CHK := rfl
@[simp] theorem reg_TMG_CHK_STAT_COUNT : TMG_CHK_STAT_COUNT.reg = TMG_CHK_STAT := rfl
@[simp] theorem reg_TMG_CHK_STAT_FIRST : TMG_CHK_STAT_FIRST.reg = TMG_CHK_STAT := rfl
@[simp] theorem reg_TMG_REF_0_EN : TMG_REF_0_EN.reg = TMG_REF_0 := rfl
@[simp] theorem reg_TMG_REF_0_F100 : TMG_REF_0_F100.reg = TMG_REF_0 := rfl
@[simp] theorem reg_TMG_REF_0_RANK : TMG_REF_0_RANK.reg = TMG_REF_0 := rfl
@[simp] theorem reg_TMG_REF_0_SRC : TMG_REF_0_SRC.reg = TMG_REF_0 := rfl
@[simp] theorem reg_TMG_REF_1_BW : TMG_REF_1_BW.reg = TMG_REF_1 := rfl
@[simp] theorem reg_TMG_REF_3_PJ_THR : TMG_REF_3_PJ_THR.reg = TMG_REF_3 := rfl
@[simp] theorem reg_TMG_REF_5_QUAL : TMG_REF_5_QUAL.reg = TMG_REF_5 := rfl
@[simp] theorem reg_TMG_REF_5_SELECTED : TMG_REF_5_SELECTED.reg = TMG_REF_5 := rfl
@[simp] theorem reg_TMG_REF_5_TIMER : TMG_REF_5_TIMER.reg = TMG_REF_5 := rfl
@[simp] theorem reg_TMG_REF_6_DISQUALIFIED : TMG_REF_6_DISQUALIFIED.reg = TMG_REF_6 := rfl
@[simp] theorem reg_TMG_REF_6_PHASE_JUMP : TMG_REF_6_PHASE_JUMP.reg = TMG_REF_6 := rfl
@[simp] theorem reg_TMG_REF_6_FREQ_RANGE : TMG_REF_6_FREQ_RANGE.reg = TMG_REF_6 := rfl
@[simp] theorem reg_TMG_REF_6_LOS : TMG_REF_6_LOS.reg = TMG_REF_6 := rfl
@[simp] theorem reg_LSE_CTL_WD_EN : LSE_CTL_WD_EN.reg = LSE_CTL := rfl
@[simp] theorem reg_LSE_CTL_HANDOVER : LSE_CTL_HANDOVER.reg = LSE_CTL := rfl
@[simp] theorem reg_LSE_WD_KICK : LSE_WD_KICK.reg = LSE_WD := rfl
@[simp] theorem reg_LSE_STAT_ROLE : LSE_STAT_ROLE.reg = LSE_STAT := rfl
@[simp] theorem reg_LSE_STAT_LEASE : LSE_STAT_LEASE.reg = LSE_STAT := rfl
@[simp] theorem reg_LSE_STAT_OWN : LSE_STAT_OWN.reg = LSE_STAT := rfl
@[simp] theorem reg_LSE_STAT_OTHER : LSE_STAT_OTHER.reg = LSE_STAT := rfl
@[simp] theorem reg_LSE_STAT_HOT : LSE_STAT_HOT.reg = LSE_STAT := rfl
@[simp] theorem reg_LSE_STAT_OTHER_HOT : LSE_STAT_OTHER_HOT.reg = LSE_STAT := rfl
@[simp] theorem reg_LSE_STAT_BRIDGE_HB : LSE_STAT_BRIDGE_HB.reg = LSE_STAT := rfl
@[simp] theorem reg_LSE_STAT_SIDE_HB : LSE_STAT_SIDE_HB.reg = LSE_STAT := rfl
@[simp] theorem reg_LSE_STAT_WIT_OTHER : LSE_STAT_WIT_OTHER.reg = LSE_STAT := rfl
@[simp] theorem reg_LSE_STAT_WIT_OWN : LSE_STAT_WIT_OWN.reg = LSE_STAT := rfl
@[simp] theorem reg_LSE_STAT_WIT_FAULT : LSE_STAT_WIT_FAULT.reg = LSE_STAT := rfl
@[simp] theorem reg_LSE_STAT_DRIVE : LSE_STAT_DRIVE.reg = LSE_STAT := rfl
@[simp] theorem reg_LSE_HB_CNT_BRIDGE_MISS : LSE_HB_CNT_BRIDGE_MISS.reg = LSE_HB_CNT := rfl
@[simp] theorem reg_LSE_HB_CNT_SIDE_MISS : LSE_HB_CNT_SIDE_MISS.reg = LSE_HB_CNT := rfl
@[simp] theorem reg_LSE_SW_CNT_TAKEOVERS : LSE_SW_CNT_TAKEOVERS.reg = LSE_SW_CNT := rfl
@[simp] theorem reg_LSE_SW_CNT_SWITCHOVERS : LSE_SW_CNT_SWITCHOVERS.reg = LSE_SW_CNT := rfl
@[simp] theorem reg_EVC_CTL_EN : EVC_CTL_EN.reg = EVC_CTL := rfl
@[simp] theorem reg_EVC_STAT_LAST : EVC_STAT_LAST.reg = EVC_STAT := rfl
@[simp] theorem reg_EVC_STAT_FAULTS : EVC_STAT_FAULTS.reg = EVC_STAT := rfl
@[simp] theorem reg_EVC_SWSET_SOURCE : EVC_SWSET_SOURCE.reg = EVC_SWSET := rfl
@[simp] theorem reg_EVC_HOLD_HOLD : EVC_HOLD_HOLD.reg = EVC_HOLD := rfl
@[simp] theorem reg_EVC_TGT_1_MASK : EVC_TGT_1_MASK.reg = EVC_TGT_1 := rfl
@[simp] theorem reg_EVC_TGT_1_SLEEP : EVC_TGT_1_SLEEP.reg = EVC_TGT_1 := rfl
@[simp] theorem reg_EVC_TGT_1_OFFER : EVC_TGT_1_OFFER.reg = EVC_TGT_1 := rfl
@[simp] theorem reg_EVC_TGT_1_OSRC : EVC_TGT_1_OSRC.reg = EVC_TGT_1 := rfl
@[simp] theorem reg_EVC_TGT_2_VALID : EVC_TGT_2_VALID.reg = EVC_TGT_2 := rfl
@[simp] theorem reg_EVC_TGT_2_ACTIVE : EVC_TGT_2_ACTIVE.reg = EVC_TGT_2 := rfl
@[simp] theorem reg_EVC_TGT_2_SOURCE : EVC_TGT_2_SOURCE.reg = EVC_TGT_2 := rfl
@[simp] theorem reg_EVC_TGT_3_SOURCE : EVC_TGT_3_SOURCE.reg = EVC_TGT_3 := rfl
@[simp] theorem reg_EVC_TGT_4_VALID : EVC_TGT_4_VALID.reg = EVC_TGT_4 := rfl
@[simp] theorem reg_EVC_TGT_4_ACTIVE : EVC_TGT_4_ACTIVE.reg = EVC_TGT_4 := rfl
@[simp] theorem reg_EVC_TGT_4_KIND : EVC_TGT_4_KIND.reg = EVC_TGT_4 := rfl
@[simp] theorem reg_EVC_TGT_4_SOURCE : EVC_TGT_4_SOURCE.reg = EVC_TGT_4 := rfl
@[simp] theorem reg_EVC_HV_MSIX_EN : EVC_HV_MSIX_EN.reg = EVC_HV := rfl
@[simp] theorem reg_EVC_HV_PIN : EVC_HV_PIN.reg = EVC_HV := rfl
@[simp] theorem reg_MSIX_3_VMASK : MSIX_3_VMASK.reg = MSIX_3 := rfl
@[simp] theorem reg_MSIX_PBA_PEND : MSIX_PBA_PEND.reg = MSIX_PBA := rfl
@[simp] theorem reg_SUP_CTL_RESTART : SUP_CTL_RESTART.reg = SUP_CTL := rfl
@[simp] theorem reg_SUP_CTL_PMB_FAST : SUP_CTL_PMB_FAST.reg = SUP_CTL := rfl
@[simp] theorem reg_SUP_CTL_AVS_EN : SUP_CTL_AVS_EN.reg = SUP_CTL := rfl
@[simp] theorem reg_SUP_STAT_MAIN : SUP_STAT_MAIN.reg = SUP_STAT := rfl
@[simp] theorem reg_SUP_STAT_CAUSE : SUP_STAT_CAUSE.reg = SUP_STAT := rfl
@[simp] theorem reg_SUP_STAT_FEED_A : SUP_STAT_FEED_A.reg = SUP_STAT := rfl
@[simp] theorem reg_SUP_STAT_FEED_B : SUP_STAT_FEED_B.reg = SUP_STAT := rfl
@[simp] theorem reg_SUP_STAT_PFW : SUP_STAT_PFW.reg = SUP_STAT := rfl
@[simp] theorem reg_SUP_STAT_THERM : SUP_STAT_THERM.reg = SUP_STAT := rfl
@[simp] theorem reg_SUP_FEED_MODE : SUP_FEED_MODE.reg = SUP_FEED := rfl
@[simp] theorem reg_SUP_FEED_IOC : SUP_FEED_IOC.reg = SUP_FEED := rfl
@[simp] theorem reg_SUP_FEED_RET_V : SUP_FEED_RET_V.reg = SUP_FEED := rfl
@[simp] theorem reg_SUP_FEED_RET_MS : SUP_FEED_RET_MS.reg = SUP_FEED := rfl
@[simp] theorem reg_SUP_BO_BO_HOLD : SUP_BO_BO_HOLD.reg = SUP_BO := rfl
@[simp] theorem reg_SUP_BO_PFW_CLR : SUP_BO_PFW_CLR.reg = SUP_BO := rfl
@[simp] theorem reg_SUP_BO_SEQ_RETRY : SUP_BO_SEQ_RETRY.reg = SUP_BO := rfl
@[simp] theorem reg_SUP_AVS_LIMIT : SUP_AVS_LIMIT.reg = SUP_AVS := rfl
@[simp] theorem reg_SUP_AVS_AVS_HI : SUP_AVS_AVS_HI.reg = SUP_AVS := rfl
@[simp] theorem reg_SUP_AVS_AVS_LO : SUP_AVS_AVS_LO.reg = SUP_AVS := rfl
@[simp] theorem reg_SUP_AVS_AVS_MIN : SUP_AVS_AVS_MIN.reg = SUP_AVS := rfl
@[simp] theorem reg_SUP_THERM_T_TRIP : SUP_THERM_T_TRIP.reg = SUP_THERM := rfl
@[simp] theorem reg_SUP_THERM_T_ALERT : SUP_THERM_T_ALERT.reg = SUP_THERM := rfl
@[simp] theorem reg_SUP_RAIL_0_EN : SUP_RAIL_0_EN.reg = SUP_RAIL_0 := rfl
@[simp] theorem reg_SUP_RAIL_0_ADDR : SUP_RAIL_0_ADDR.reg = SUP_RAIL_0 := rfl
@[simp] theorem reg_SUP_RAIL_0_PAGE : SUP_RAIL_0_PAGE.reg = SUP_RAIL_0 := rfl
@[simp] theorem reg_SUP_RAIL_0_VNOM : SUP_RAIL_0_VNOM.reg = SUP_RAIL_0 := rfl
@[simp] theorem reg_SUP_RAIL_1_WHI : SUP_RAIL_1_WHI.reg = SUP_RAIL_1 := rfl
@[simp] theorem reg_SUP_RAIL_1_WLO : SUP_RAIL_1_WLO.reg = SUP_RAIL_1 := rfl
@[simp] theorem reg_SUP_RAIL_2_VOUT : SUP_RAIL_2_VOUT.reg = SUP_RAIL_2 := rfl
@[simp] theorem reg_SUP_RAIL_2_IOUT : SUP_RAIL_2_IOUT.reg = SUP_RAIL_2 := rfl
@[simp] theorem reg_SUP_RAIL_3_STATUS : SUP_RAIL_3_STATUS.reg = SUP_RAIL_3 := rfl
@[simp] theorem reg_HKA_CTL_GO : HKA_CTL_GO.reg = HKA_CTL := rfl
@[simp] theorem reg_HKA_CTL_CAL : HKA_CTL_CAL.reg = HKA_CTL := rfl
@[simp] theorem reg_HKA_CTL_REPEAT : HKA_CTL_REPEAT.reg = HKA_CTL := rfl
@[simp] theorem reg_HKA_CTL_LEN : HKA_CTL_LEN.reg = HKA_CTL := rfl
@[simp] theorem reg_HKA_STAT_STATE : HKA_STAT_STATE.reg = HKA_STAT := rfl
@[simp] theorem reg_HKA_STAT_CALDONE : HKA_STAT_CALDONE.reg = HKA_STAT := rfl
@[simp] theorem reg_HKA_STAT_ENTRY : HKA_STAT_ENTRY.reg = HKA_STAT := rfl
@[simp] theorem reg_HKA_STAT_MERGED : HKA_STAT_MERGED.reg = HKA_STAT := rfl
@[simp] theorem reg_HKA_STAT_GLITCH : HKA_STAT_GLITCH.reg = HKA_STAT := rfl
@[simp] theorem reg_HKA_CAL_GAIN : HKA_CAL_GAIN.reg = HKA_CAL := rfl
@[simp] theorem reg_HKA_CAL_OFFSET : HKA_CAL_OFFSET.reg = HKA_CAL := rfl
@[simp] theorem reg_HKA_SEQ_AVG : HKA_SEQ_AVG.reg = HKA_SEQ := rfl
@[simp] theorem reg_HKA_SEQ_IN : HKA_SEQ_IN.reg = HKA_SEQ := rfl
@[simp] theorem reg_HKA_RES_FRESH : HKA_RES_FRESH.reg = HKA_RES := rfl
@[simp] theorem reg_HKA_RES_CODE : HKA_RES_CODE.reg = HKA_RES := rfl
@[simp] theorem reg_HKA_URG_S3 : HKA_URG_S3.reg = HKA_URG := rfl
@[simp] theorem reg_HKA_URG_S2 : HKA_URG_S2.reg = HKA_URG := rfl
@[simp] theorem reg_NVM_XSPI_FMAX : NVM_XSPI_FMAX.reg = NVM_XSPI := rfl
@[simp] theorem reg_NVM_SWITCH_DRAIN_MAX : NVM_SWITCH_DRAIN_MAX.reg = NVM_SWITCH := rfl
@[simp] theorem reg_NVM_STAT_PORTA : NVM_STAT_PORTA.reg = NVM_STAT := rfl
@[simp] theorem reg_NVM_STAT_PORTB : NVM_STAT_PORTB.reg = NVM_STAT := rfl
@[simp] theorem reg_NVM_STAT_BOOTPORT : NVM_STAT_BOOTPORT.reg = NVM_STAT := rfl
@[simp] theorem reg_NVM_STAT_BOOTSLOT : NVM_STAT_BOOTSLOT.reg = NVM_STAT := rfl
@[simp] theorem reg_NVM_STAT_FUSED : NVM_STAT_FUSED.reg = NVM_STAT := rfl
@[simp] theorem reg_NVM_STAT_SPLIT : NVM_STAT_SPLIT.reg = NVM_STAT := rfl
@[simp] theorem reg_NVM_STAT_BARE : NVM_STAT_BARE.reg = NVM_STAT := rfl
@[simp] theorem reg_NVM_STAT_REPLAY : NVM_STAT_REPLAY.reg = NVM_STAT := rfl
@[simp] theorem reg_NVM_STAT_PROF : NVM_STAT_PROF.reg = NVM_STAT := rfl
@[simp] theorem reg_NVM_STAT_PSEL : NVM_STAT_PSEL.reg = NVM_STAT := rfl
@[simp] theorem reg_NVM_BOOT_STAGE : NVM_BOOT_STAGE.reg = NVM_BOOT := rfl
@[simp] theorem reg_NVM_BOOT_MS : NVM_BOOT_MS.reg = NVM_BOOT := rfl
@[simp] theorem reg_NVM_REPLAY_STATUS : NVM_REPLAY_STATUS.reg = NVM_REPLAY := rfl
@[simp] theorem reg_NVM_REPLAY_FRAME : NVM_REPLAY_FRAME.reg = NVM_REPLAY := rfl
@[simp] theorem reg_DEV_MBX_CTL_REQ_GO : DEV_MBX_CTL_REQ_GO.reg = DEV_MBX_CTL := rfl
@[simp] theorem reg_DEV_MBX_CTL_BUSY : DEV_MBX_CTL_BUSY.reg = DEV_MBX_CTL := rfl
@[simp] theorem reg_DEV_MBX_CTL_RSP_VALID : DEV_MBX_CTL_RSP_VALID.reg = DEV_MBX_CTL := rfl
@[simp] theorem reg_DEV_MBX_CTL_EVT_VALID : DEV_MBX_CTL_EVT_VALID.reg = DEV_MBX_CTL := rfl
@[simp] theorem reg_DEV_MBX_CTL_OVR : DEV_MBX_CTL_OVR.reg = DEV_MBX_CTL := rfl
@[simp] theorem reg_DEV_ID_PART : DEV_ID_PART.reg = DEV_ID := rfl
@[simp] theorem reg_DEV_ID_FAMILY : DEV_ID_FAMILY.reg = DEV_ID := rfl
@[simp] theorem reg_DEV_REV_STEPPING : DEV_REV_STEPPING.reg = DEV_REV := rfl
@[simp] theorem reg_DEV_REV_PKG : DEV_REV_PKG.reg = DEV_REV := rfl
@[simp] theorem reg_DEV_REV_LID : DEV_REV_LID.reg = DEV_REV := rfl
@[simp] theorem reg_DEV_FWVER_MAJOR : DEV_FWVER_MAJOR.reg = DEV_FWVER := rfl
@[simp] theorem reg_DEV_FWVER_MINOR : DEV_FWVER_MINOR.reg = DEV_FWVER := rfl
@[simp] theorem reg_DEV_FWVER_BUILD : DEV_FWVER_BUILD.reg = DEV_FWVER := rfl
@[simp] theorem reg_DEV_HALF_ORD : DEV_HALF_ORD.reg = DEV_HALF := rfl
@[simp] theorem reg_DEV_HALF_ROLE : DEV_HALF_ROLE.reg = DEV_HALF := rfl
@[simp] theorem reg_DEV_HALF_HALF : DEV_HALF_HALF.reg = DEV_HALF := rfl
@[simp] theorem reg_DEV_MAC_HI_MAC_HI : DEV_MAC_HI_MAC_HI.reg = DEV_MAC_HI := rfl
@[simp] theorem reg_DEV_STATE_PRIMARY : DEV_STATE_PRIMARY.reg = DEV_STATE := rfl
@[simp] theorem reg_DEV_STATE_VALID : DEV_STATE_VALID.reg = DEV_STATE := rfl
@[simp] theorem reg_DEV_STATE_NORTH : DEV_STATE_NORTH.reg = DEV_STATE := rfl
@[simp] theorem reg_DEV_STATE_SOUTH : DEV_STATE_SOUTH.reg = DEV_STATE := rfl
@[simp] theorem reg_DEV_STATE_GEN : DEV_STATE_GEN.reg = DEV_STATE := rfl
@[simp] theorem reg_ERR_HEAD_0_CODE : ERR_HEAD_0_CODE.reg = ERR_HEAD_0 := rfl
@[simp] theorem reg_ERR_HEAD_0_INST : ERR_HEAD_0_INST.reg = ERR_HEAD_0 := rfl
@[simp] theorem reg_ERR_HEAD_2_HANDLED : ERR_HEAD_2_HANDLED.reg = ERR_HEAD_2 := rfl
@[simp] theorem reg_ERR_HEAD_2_COUNT : ERR_HEAD_2_COUNT.reg = ERR_HEAD_2 := rfl
@[simp] theorem reg_ERR_HEAD_2_FRAME_HI : ERR_HEAD_2_FRAME_HI.reg = ERR_HEAD_2 := rfl
@[simp] theorem reg_ERR_CTL_CLEAR : ERR_CTL_CLEAR.reg = ERR_CTL := rfl
@[simp] theorem reg_ERR_CTL_POP : ERR_CTL_POP.reg = ERR_CTL := rfl
@[simp] theorem reg_ERR_STAT_OVERFLOW : ERR_STAT_OVERFLOW.reg = ERR_STAT := rfl
@[simp] theorem reg_ERR_STAT_PRESENT : ERR_STAT_PRESENT.reg = ERR_STAT := rfl
@[simp] theorem reg_ERR_STAT_COUNT : ERR_STAT_COUNT.reg = ERR_STAT := rfl

end Sys2Proof.Machine
end

