-- ==== Sys2Proof/WellFormed.lean ====
section
/-! DEFINITION. Well-formed commands: indexes inside the ranges that the spec gives, frames and transactions of a possible shape. -/

namespace Sys2Proof

/-- A waiting frame: a datagram's addresses and port have their widths. -/
def Rx.wf : Rx → Bool
  | .udp mac ip port _ => mac.length == 6 && ip.length == 4 && port < 65536
  | .mailbox => true
  | .smbus => true

/-- A transaction: one of the seven masters of Table RDB-1; 1 to 16 beats of 64 bytes in HBM and the Courtyard, one word of the register space; a write brings its bytes (R295). -/
def Txn.wf (x : Txn) : Bool :=
  x.master < 7 && 1 ≤ x.beats && x.beats ≤ 16 && (!x.write || x.data.length == (if x.space == .registers then 4 else 64 * x.beats))

/-- A heartbeat: its codes, and a whole device record or none (R328). -/
def Heartbeat.wf (x : Heartbeat) : Bool := x.epoch < 2 ^ 32 && x.role < 4 && x.hstate < 4 && (x.drec.length == 0 || x.drec.length == 64)

/-- The command is well formed. -/
def Instr.wf : Instr → Bool
  | .tick failN failS _ => failN.all (· < 66) && failS.all (· < 66)
  | .arcadeOverrun _ => true
  | .folderOverrun _ => true
  | .outputLate _ => true
  | .landingInstant _ => true
  | .beamLate _ => true
  | .capFreezeBound _ v => v < 16
  | .ppsEdge _ => true
  | .ssfReceived _ lane _ _ => lane < 32
  | .ethFrameReceived _ lane _ _ => lane < 32
  | .ethGapTimeout _ q => q < 256
  | .ingRunClear _ lane => lane.all (· < 32)
  | .spectrumFormed _ q _ badCoef => q < 256 && badCoef.all (· < 65536)
  | .pwrWarmupEnd _ q => q < 256
  | .pwrReseed _ q => q < 256
  | .coefReloadDone _ _ _ _ => true
  | .skDecision _ q _ => q < 256
  | .delayStoreWrite _ q _ => q < 256
  | .delayStoreRead _ => true
  | .dataBlockReceived _ n _ _ => n < 16
  | .helloReceived _ n _ => n < 16
  | .helloSend _ n => n < 16
  | .tickBlockReceived _ n _ _ => n < 16
  | .probeSend _ n _ => n < 16
  | .probeReceived _ n _ _ _ => n < 16
  | .echoReceived _ n _ _ => n < 16
  | .creditReceived _ n _ => n < 16
  | .creditSend _ n => n < 16
  | .xchRunClear _ => true
  | .arcOpOpen _ => true
  | .arcOpStage _ => true
  | .arcOpXt _ => true
  | .arcOpBt _ => true
  | .arcOpClose _ => true
  | .arcOpSave _ => true
  | .arcOpRestore _ => true
  | .arcOpSync _ => true
  | .arcOpLoop _ => true
  | .arcOpNop _ => true
  | .arcOpReserved _ => true
  | .passEnd _ bay _ _ => bay < 64
  | .lastDrainSpill _ _ => true
  | .bayFault _ p cause _ => p < 66 && 1 ≤ cause && cause ≤ 3
  | .arcRunClear _ => true
  | .arcSuspend _ _ => true
  | .arcHalt _ _ => true
  | .bayHaltReached _ => true
  | .arcProgDataWrite _ _ => true
  | .foldBlock _ _ => true
  | .ltaRunClear _ => true
  | .beamTableCopyEnd _ sub => sub < 16
  | .beamTableLoad _ sub => sub < 16
  | .bmfTdataWrite _ _ _ => true
  | .bmfSdataWrite _ _ _ => true
  | .beamSampleProcess _ _ => true
  | .bmfRunClear _ => true
  | .capArm _ v => v < 16
  | .capTrig _ v => v < 16
  | .capFreeze _ v => v < 16
  | .capRead _ v => v < 16
  | .capRelease _ v => v < 16
  | .capEventTrigger _ v => v < 16
  | .capReadDone _ v => v < 16
  | .capRunClear _ => true
  | .trwDoorbell _ ring => ring < 2 ^ 20
  | .trwStop _ ring => ring < 2 ^ 20
  | .trwStart _ ring => ring < 2 ^ 20
  | .trwCtxDataWrite _ w _ => w < 32
  | .trwRunClear _ => true
  | .laneGrant _ l _ => l < 4
  | .datagramDone _ ring => ring < 2 ^ 20
  | .outFrameReceived _ p => p < 5
  | .outRunClear _ => true
  | .laneEnable _ lam => lam < 54
  | .laneDisable _ lam => lam < 54
  | .losDetect _ lam => lam < 54
  | .signalPresent _ lam => lam < 54
  | .fecAlignLoss _ lam => lam < 54
  | .blockLockLoss _ lam => lam < 54
  | .laneAligned _ lam => lam < 54
  | .lmBlockReceived _ lam _ => lam < 54
  | .fecWindowEnd _ lam _ _ _ => lam < 54
  | .trainingReady _ lam _ _ => lam < 54
  | .trainTimeout _ lam => lam < 54
  | .relockWindowEnd _ lam => lam < 54
  | .retryTimeout _ lam => lam < 54
  | .laneTestWrite _ lam _ => lam < 54
  | .checkerLock _ lam _ _ _ => lam < 54
  | .injStart _ lam _ => lam < 54
  | .injStop _ lam => lam < 54
  | .injection _ lam => lam < 54
  | .hbmTransaction _ _ a => a.txn.wf
  | .hbmReadResult _ p _ _ _ => p < 128
  | .refreshDue _ p _ => p < 128
  | .refreshWindowEnd _ stack => stack < 4
  | .scrubRead _ p _ _ _ => p < 128
  | .hbmRetrain _ p _ _ => p < 128
  | .hbmTempRead _ stack _ => stack < 4
  | .hbmTrainingDone _ failed => failed.all (· < 128)
  | .hbmPcFence _ p _ => p < 128
  | .rdbRequest _ _ x => x.wf
  | .bridgeCrcFail _ => true
  | .bridgeDown => true
  | .bridgeRetrained => true
  | .rdbTimeout _ m id => m < 16 && id < 256
  | .referenceEvent _ r _ _ _ => r < 7
  | .selectionCycle _ los => los < 128
  | .secondUpdate _ fofs => fofs.length == 7
  | .holdoverMeanStore _ => true
  | .hoTeUpdate _ => true
  | .timeCopy _ => true
  | .ptpTimestamp _ => true
  | .tsetGo _ => true
  | .islandPowerUp _ => true
  | .islandReady _ => true
  | .islandPowerLost _ => true
  | .leaseListenEnd _ => true
  | .heartbeatSend _ => true
  | .heartbeatReceived _ _ hb => hb.wf
  | .pathSilent _ _ => true
  | .primaryLeaseLapse _ => true
  | .secondaryLeaseLapse _ => true
  | .guardExpiry _ => true
  | .witnessFall _ => true
  | .witnessLoopFault _ => true
  | .relinquishReceived _ _ => true
  | .unsureEntry _ => true
  | .leaseQueryReceived _ _ => true
  | .leaseQueryAnswer _ epoch role => epoch < 2 ^ 32 && role < 4
  | .unsureTimeout _ => true
  | .watchdogExpiry _ => true
  | .lseWdKick _ => true
  | .lseHandover _ => true
  | .evcSelect _ => true
  | .evcClaim _ c => c.target < 12
  | .evcComplete _ t n => t < 12 && n < 1024
  | .evcSwset _ n => n < 1024
  | .evcPendingClear _ w _ => w < 30
  | .holdOffExpiry _ g => g < 30
  | .coreWfi _ core => core < 4
  | .msixMaskClear _ entry => entry.all (· < 1024)
  | .feedComparator _ => true
  | .feedSample _ va ia vb ib => va < 4096 && ia < 4096 && vb < 4096 && ib < 4096
  | .railPowerGood _ r => r.rail < 9 && r.vout < 65536 && r.iout < 65536
  | .railStepTimeout _ r => r.rail < 9
  | .seqRetryTimer _ => true
  | .railDownStepDone _ r => r < 9
  | .pmbAlert _ words => words.length == 9
  | .avsMonitor _ _ _ => true
  | .avsViolation _ _ => true
  | .pfwWarning => true
  | .urgentRequest _ r => r < 9
  | .urgentBurstEnd _ samples => samples.length == 4 && samples.all (fun x => x.length == 4)
  | .boHoldExpiry _ _ => true
  | .thermalTrip _ sensor => sensor < 16
  | .hkaEntryEnd _ sums => sums.length == 4
  | .hkaGo _ => true
  | .hkaCal _ => true
  | .hkaCalEnd _ ground reference => ground.length == 4 && reference.length == 4
  | .supRestart _ => true
  | .throttleStart => true
  | .throttleEnd => true
  | .smbusRegWrite _ bytes _ _ => bytes.length ≤ 255
  | .smbusSetAddress _ bytes _ => bytes.length ≤ 255
  | .smbusRegRead _ => true
  | .smbusFrameFragment _ bytes _ => 1 ≤ bytes.length && bytes.length ≤ 255
  | .smbusReplyRead _ => true
  | .smbusFragmentTimeout _ => true
  | .resetNRise sel => sel < 8
  | .resetNLow => true
  | .pllLock _ => true
  | .pllLockTimeout _ => true
  | .selfTestDone _ _ failed => failed.all (· < 66)
  | .flashImageReadDone _ _ room a b => a.length ≤ room && b.length ≤ room
  | .imageChoice _ => true
  | .heldFrameResume _ => true
  | .drainDone _ _ => true
  | .flashOpDone _ _ _ => true
  | .flashOpTimeout _ => true
  | .mbxReqGo _ => true
  | .mbxRspValidClear _ => true
  | .mgmtPortFrame _ _ => true
  | .functionLevelReset _ => true
  | .tclkLost => true
  | .errorHandle _ => true
  | .errHeadRead _ => true
  | .errPop _ => true
  | .errClear _ => true
  | .subarrayStopped _ sub => sub < 16
  | .chnRunSet _ => true
  | .chnRunClear _ _ => true
  | .chnCoefDataWrite _ _ => true
  | .dlyRunClear _ => true
  | .dlyGainDataWrite _ _ _ => true
  | .dlyModelArm _ q _ _ => q < 256
  | .registerWrite _ addr _ _ => addr < 2 ^ 27
  | .rcRead _ r => r.addr < 2 ^ 27
  | .latchingRead _ r => r.addr < 2 ^ 27
  | .ping _ rx => rx.wf
  | .regRead _ rx => rx.wf
  | .regWrite _ rx => rx.rx.wf
  | .mgmtCfg _ rx => rx.wf
  | .authKey _ rx => rx.wf
  | .snapshot _ rx => rx.wf
  | .profileSwitch _ rx => rx.wf
  | .flashInfo _ rx => rx.wf
  | .flashBegin _ rx => rx.wf
  | .flashData _ rx => rx.wf
  | .flashCommit _ rx => rx.wf
  | .flashAbort _ rx => rx.wf
  | .schedBegin _ rx => rx.wf
  | .schedInputs _ rx => rx.wf
  | .schedVis _ rx => rx.wf
  | .schedBeam _ rx => rx.wf
  | .schedCapture _ rx => rx.wf
  | .schedDrop _ rx => rx.wf
  | .schedCommit _ rx => rx.wf
  | .subTeardown _ rx => rx.wf
  | .quotaSet _ rx => rx.wf
  | .readmit _ rx => rx.wf
  | .frameCfg _ rx => rx.wf
  | .schedQuery _ rx => rx.wf
  | .modelSet _ rx => rx.wf
  | .gainSet _ rx => rx.wf
  | .inputFlags _ rx => rx.wf
  | .maskSet _ rx => rx.wf
  | .skySet _ rx => rx.wf
  | .beamDelays _ rx => rx.wf
  | .beamRaw _ rx => rx.wf
  | .beamScale _ rx => rx.wf
  | .ringCreate _ rx => rx.wf
  | .ringSet _ rx => rx.wf
  | .ringCmdStop _ rx => rx.wf
  | .ringCmdStart _ rx => rx.wf
  | .ringCmdDestroy _ rx => rx.wf
  | .ringQuery _ rx => rx.wf
  | .portCfg _ rx => rx.wf
  | .capCmd _ rx => rx.wf
  | .capTrigcfg _ rx => rx.wf
  | .capQuery _ rx => rx.wf
  | .timeQuery _ rx => rx.wf
  | .refCfg _ rx => rx.wf
  | .timeCtl _ rx => rx.wf
  | .timeSet _ rx => rx.wf
  | .ptpCfg _ rx => rx.wf
  | .laneCfg _ rx => rx.wf
  | .laneTest _ rx => rx.wf
  | .laneQuery _ rx => rx.wf
  | .evtSubscribe _ rx => rx.wf
  | .evtCancel _ rx => rx.wf
  | .errRead _ rx => rx.wf
  | .eventMsg _ slot => slot < 8
  | .handover _ rx => rx.wf
  | .halfReset _ rx => rx.wf
  | .bayRepair _ rx => rx.wf
  | .pcFence _ rx => rx.wf
  | .halfQuery _ rx => rx.wf
  | .hkRead _ rx => rx.wf
  | .hkSeq _ rx => rx.wf
  | .supCfg _ rx => rx.wf
  | .halfRestart _ rx => rx.wf
  | .autoNegotiationDone _ lam _ => lam < 54
  | .remoteFaultSequence _ lam => lam < 54
  | .pfwNRise => true
  | .witnessLoopFaultClear _ => true
  | .deviceRecordTakenUp _ => true
  | .mbxEvtValidClear _ => true
  | .unknownOpcode _ rx => rx.wf

end Sys2Proof
end

