-- ==== Sys2Proof/Laws/PerInstr.lean ====
section
/-! SUPPORT. Statements made for each command as syntax: no check of `Instr.wf` shuts out a whole row of the command table, and no word spells a command. -/

namespace Sys2Proof.Laws.Formable

/-- Some command of the same row is well formed, and no word of any width spells this one. -/
def Statement (i : Instr) : Prop := (∃ j : Instr, j.ctorIdx = i.ctorIdx ∧ j.wf = true) ∧ ∀ nbits w, decodeTableWord nbits w ≠ some i

theorem tick (failN : List Nat) (failS : List Nat) (clear : List HalfId) : Statement (.tick failN failS clear) := ⟨⟨.tick [] [] [], rfl, rfl⟩, nofun⟩
theorem arcadeOverrun (h : HalfId) : Statement (.arcadeOverrun h) := ⟨⟨.arcadeOverrun .north, rfl, rfl⟩, nofun⟩
theorem folderOverrun (h : HalfId) : Statement (.folderOverrun h) := ⟨⟨.folderOverrun .north, rfl, rfl⟩, nofun⟩
theorem outputLate (h : HalfId) : Statement (.outputLate h) := ⟨⟨.outputLate .north, rfl, rfl⟩, nofun⟩
theorem landingInstant (h : HalfId) : Statement (.landingInstant h) := ⟨⟨.landingInstant .north, rfl, rfl⟩, nofun⟩
theorem beamLate (h : HalfId) : Statement (.beamLate h) := ⟨⟨.beamLate .north, rfl, rfl⟩, nofun⟩
theorem capFreezeBound (h : HalfId) (v : Nat) : Statement (.capFreezeBound h v) := ⟨⟨.capFreezeBound .north 0, rfl, rfl⟩, nofun⟩
theorem ppsEdge (sec : Nat) : Statement (.ppsEdge sec) := ⟨⟨.ppsEdge 0, rfl, rfl⟩, nofun⟩
theorem ssfReceived (h : HalfId) (lane : Nat) (integrity : Integrity) (bytes : List Byte) : Statement (.ssfReceived h lane integrity bytes) := ⟨⟨.ssfReceived .north 0 .good [], rfl, rfl⟩, nofun⟩
theorem ethFrameReceived (h : HalfId) (lane : Nat) (marks : FrameMarks) (bytes : List Byte) : Statement (.ethFrameReceived h lane marks bytes) := ⟨⟨.ethFrameReceived .north 0 ⟨.good, true⟩ [], rfl, rfl⟩, nofun⟩
theorem ethGapTimeout (h : HalfId) (q : Nat) : Statement (.ethGapTimeout h q) := ⟨⟨.ethGapTimeout .north 0, rfl, rfl⟩, nofun⟩
theorem ingRunClear (h : HalfId) (lane : Option Nat) : Statement (.ingRunClear h lane) := ⟨⟨.ingRunClear .north none, rfl, rfl⟩, nofun⟩
theorem spectrumFormed (h : HalfId) (q : Nat) (n : Nat) (badCoef : Option Nat) : Statement (.spectrumFormed h q n badCoef) := ⟨⟨.spectrumFormed .north 0 0 none, rfl, rfl⟩, nofun⟩
theorem pwrWarmupEnd (h : HalfId) (q : Nat) : Statement (.pwrWarmupEnd h q) := ⟨⟨.pwrWarmupEnd .north 0, rfl, rfl⟩, nofun⟩
theorem pwrReseed (h : HalfId) (q : Nat) : Statement (.pwrReseed h q) := ⟨⟨.pwrReseed .north 0, rfl, rfl⟩, nofun⟩
theorem coefReloadDone (h : HalfId) (pipe : Nat) (entry : Nat) (masterOk : Bool) : Statement (.coefReloadDone h pipe entry masterOk) := ⟨⟨.coefReloadDone .north 0 0 true, rfl, rfl⟩, nofun⟩
theorem skDecision (h : HalfId) (q : Nat) (b : Nat) : Statement (.skDecision h q b) := ⟨⟨.skDecision .north 0 0, rfl, rfl⟩, nofun⟩
theorem delayStoreWrite (h : HalfId) (q : Nat) (n : Nat) : Statement (.delayStoreWrite h q n) := ⟨⟨.delayStoreWrite .north 0 0, rfl, rfl⟩, nofun⟩
theorem delayStoreRead (h : HalfId) : Statement (.delayStoreRead h) := ⟨⟨.delayStoreRead .north, rfl, rfl⟩, nofun⟩
theorem dataBlockReceived (h : HalfId) (n : Nat) (integrity : Integrity) (bytes : List Byte) : Statement (.dataBlockReceived h n integrity bytes) := ⟨⟨.dataBlockReceived .north 0 .good [], rfl, rfl⟩, nofun⟩
theorem helloReceived (h : HalfId) (n : Nat) (bytes : List Byte) : Statement (.helloReceived h n bytes) := ⟨⟨.helloReceived .north 0 [], rfl, rfl⟩, nofun⟩
theorem helloSend (h : HalfId) (n : Nat) : Statement (.helloSend h n) := ⟨⟨.helloSend .north 0, rfl, rfl⟩, nofun⟩
theorem tickBlockReceived (h : HalfId) (n : Nat) (bytes : List Byte) (ofs : Int) : Statement (.tickBlockReceived h n bytes ofs) := ⟨⟨.tickBlockReceived .north 0 [] 0, rfl, rfl⟩, nofun⟩
theorem probeSend (h : HalfId) (n : Nat) (t1 : Nat) : Statement (.probeSend h n t1) := ⟨⟨.probeSend .north 0 0, rfl, rfl⟩, nofun⟩
theorem probeReceived (h : HalfId) (n : Nat) (bytes : List Byte) (t2 : Nat) (t3 : Nat) : Statement (.probeReceived h n bytes t2 t3) := ⟨⟨.probeReceived .north 0 [] 0 0, rfl, rfl⟩, nofun⟩
theorem echoReceived (h : HalfId) (n : Nat) (bytes : List Byte) (t4 : Nat) : Statement (.echoReceived h n bytes t4) := ⟨⟨.echoReceived .north 0 [] 0, rfl, rfl⟩, nofun⟩
theorem creditReceived (h : HalfId) (n : Nat) (bytes : List Byte) : Statement (.creditReceived h n bytes) := ⟨⟨.creditReceived .north 0 [], rfl, rfl⟩, nofun⟩
theorem creditSend (h : HalfId) (n : Nat) : Statement (.creditSend h n) := ⟨⟨.creditSend .north 0, rfl, rfl⟩, nofun⟩
theorem xchRunClear (h : HalfId) : Statement (.xchRunClear h) := ⟨⟨.xchRunClear .north, rfl, rfl⟩, nofun⟩
theorem arcOpOpen (h : HalfId) : Statement (.arcOpOpen h) := ⟨⟨.arcOpOpen .north, rfl, rfl⟩, nofun⟩
theorem arcOpStage (h : HalfId) : Statement (.arcOpStage h) := ⟨⟨.arcOpStage .north, rfl, rfl⟩, nofun⟩
theorem arcOpXt (h : HalfId) : Statement (.arcOpXt h) := ⟨⟨.arcOpXt .north, rfl, rfl⟩, nofun⟩
theorem arcOpBt (h : HalfId) : Statement (.arcOpBt h) := ⟨⟨.arcOpBt .north, rfl, rfl⟩, nofun⟩
theorem arcOpClose (h : HalfId) : Statement (.arcOpClose h) := ⟨⟨.arcOpClose .north, rfl, rfl⟩, nofun⟩
theorem arcOpSave (h : HalfId) : Statement (.arcOpSave h) := ⟨⟨.arcOpSave .north, rfl, rfl⟩, nofun⟩
theorem arcOpRestore (h : HalfId) : Statement (.arcOpRestore h) := ⟨⟨.arcOpRestore .north, rfl, rfl⟩, nofun⟩
theorem arcOpSync (h : HalfId) : Statement (.arcOpSync h) := ⟨⟨.arcOpSync .north, rfl, rfl⟩, nofun⟩
theorem arcOpLoop (h : HalfId) : Statement (.arcOpLoop h) := ⟨⟨.arcOpLoop .north, rfl, rfl⟩, nofun⟩
theorem arcOpNop (h : HalfId) : Statement (.arcOpNop h) := ⟨⟨.arcOpNop .north, rfl, rfl⟩, nofun⟩
theorem arcOpReserved (h : HalfId) : Statement (.arcOpReserved h) := ⟨⟨.arcOpReserved .north, rfl, rfl⟩, nofun⟩
theorem passEnd (h : HalfId) (bay : Nat) (stall : Nat) (ecc : List (Nat × Bool)) : Statement (.passEnd h bay stall ecc) := ⟨⟨.passEnd .north 0 0 [], rfl, rfl⟩, nofun⟩
theorem lastDrainSpill (h : HalfId) (r : Nat) : Statement (.lastDrainSpill h r) := ⟨⟨.lastDrainSpill .north 0, rfl, rfl⟩, nofun⟩
theorem bayFault (h : HalfId) (p : Nat) (cause : Nat) (draining : Bool) : Statement (.bayFault h p cause draining) := ⟨⟨.bayFault .north 0 1 true, rfl, rfl⟩, nofun⟩
theorem arcRunClear (h : HalfId) : Statement (.arcRunClear h) := ⟨⟨.arcRunClear .north, rfl, rfl⟩, nofun⟩
theorem arcSuspend (h : HalfId) (v : Bool) : Statement (.arcSuspend h v) := ⟨⟨.arcSuspend .north true, rfl, rfl⟩, nofun⟩
theorem arcHalt (h : HalfId) (w : Word) : Statement (.arcHalt h w) := ⟨⟨.arcHalt .north 0, rfl, rfl⟩, nofun⟩
theorem bayHaltReached (h : HalfId) : Statement (.bayHaltReached h) := ⟨⟨.bayHaltReached .north, rfl, rfl⟩, nofun⟩
theorem arcProgDataWrite (h : HalfId) (d : Word) : Statement (.arcProgDataWrite h d) := ⟨⟨.arcProgDataWrite .north 0, rfl, rfl⟩, nofun⟩
theorem foldBlock (h : HalfId) (ecc : List (Nat × Bool)) : Statement (.foldBlock h ecc) := ⟨⟨.foldBlock .north [], rfl, rfl⟩, nofun⟩
theorem ltaRunClear (h : HalfId) : Statement (.ltaRunClear h) := ⟨⟨.ltaRunClear .north, rfl, rfl⟩, nofun⟩
theorem beamTableCopyEnd (h : HalfId) (sub : Nat) : Statement (.beamTableCopyEnd h sub) := ⟨⟨.beamTableCopyEnd .north 0, rfl, rfl⟩, nofun⟩
theorem beamTableLoad (h : HalfId) (sub : Nat) : Statement (.beamTableLoad h sub) := ⟨⟨.beamTableLoad .north 0, rfl, rfl⟩, nofun⟩
theorem bmfTdataWrite (h : HalfId) (d : Word) (inWindow : Bool) : Statement (.bmfTdataWrite h d inWindow) := ⟨⟨.bmfTdataWrite .north 0 true, rfl, rfl⟩, nofun⟩
theorem bmfSdataWrite (h : HalfId) (d : Word) (inWindow : Bool) : Statement (.bmfSdataWrite h d inWindow) := ⟨⟨.bmfSdataWrite .north 0 true, rfl, rfl⟩, nofun⟩
theorem beamSampleProcess (h : HalfId) (ecc : List (Nat × Bool)) : Statement (.beamSampleProcess h ecc) := ⟨⟨.beamSampleProcess .north [], rfl, rfl⟩, nofun⟩
theorem bmfRunClear (h : HalfId) : Statement (.bmfRunClear h) := ⟨⟨.bmfRunClear .north, rfl, rfl⟩, nofun⟩
theorem capArm (h : HalfId) (v : Nat) : Statement (.capArm h v) := ⟨⟨.capArm .north 0, rfl, rfl⟩, nofun⟩
theorem capTrig (h : HalfId) (v : Nat) : Statement (.capTrig h v) := ⟨⟨.capTrig .north 0, rfl, rfl⟩, nofun⟩
theorem capFreeze (h : HalfId) (v : Nat) : Statement (.capFreeze h v) := ⟨⟨.capFreeze .north 0, rfl, rfl⟩, nofun⟩
theorem capRead (h : HalfId) (v : Nat) : Statement (.capRead h v) := ⟨⟨.capRead .north 0, rfl, rfl⟩, nofun⟩
theorem capRelease (h : HalfId) (v : Nat) : Statement (.capRelease h v) := ⟨⟨.capRelease .north 0, rfl, rfl⟩, nofun⟩
theorem capEventTrigger (h : HalfId) (v : Nat) : Statement (.capEventTrigger h v) := ⟨⟨.capEventTrigger .north 0, rfl, rfl⟩, nofun⟩
theorem capReadDone (h : HalfId) (v : Nat) : Statement (.capReadDone h v) := ⟨⟨.capReadDone .north 0, rfl, rfl⟩, nofun⟩
theorem capRunClear (h : HalfId) : Statement (.capRunClear h) := ⟨⟨.capRunClear .north, rfl, rfl⟩, nofun⟩
theorem trwDoorbell (h : HalfId) (ring : Nat) : Statement (.trwDoorbell h ring) := ⟨⟨.trwDoorbell .north 0, rfl, rfl⟩, nofun⟩
theorem trwStop (h : HalfId) (ring : Nat) : Statement (.trwStop h ring) := ⟨⟨.trwStop .north 0, rfl, rfl⟩, nofun⟩
theorem trwStart (h : HalfId) (ring : Nat) : Statement (.trwStart h ring) := ⟨⟨.trwStart .north 0, rfl, rfl⟩, nofun⟩
theorem trwCtxDataWrite (h : HalfId) (w : Nat) (d : Word) : Statement (.trwCtxDataWrite h w d) := ⟨⟨.trwCtxDataWrite .north 0 0, rfl, rfl⟩, nofun⟩
theorem trwRunClear (h : HalfId) : Statement (.trwRunClear h) := ⟨⟨.trwRunClear .north, rfl, rfl⟩, nofun⟩
theorem laneGrant (h : HalfId) (l : Nat) (t : Nat) : Statement (.laneGrant h l t) := ⟨⟨.laneGrant .north 0 0, rfl, rfl⟩, nofun⟩
theorem datagramDone (h : HalfId) (ring : Nat) : Statement (.datagramDone h ring) := ⟨⟨.datagramDone .north 0, rfl, rfl⟩, nofun⟩
theorem outFrameReceived (h : HalfId) (p : Nat) : Statement (.outFrameReceived h p) := ⟨⟨.outFrameReceived .north 0, rfl, rfl⟩, nofun⟩
theorem outRunClear (h : HalfId) : Statement (.outRunClear h) := ⟨⟨.outRunClear .north, rfl, rfl⟩, nofun⟩
theorem laneEnable (h : HalfId) (lam : Nat) : Statement (.laneEnable h lam) := ⟨⟨.laneEnable .north 0, rfl, rfl⟩, nofun⟩
theorem laneDisable (h : HalfId) (lam : Nat) : Statement (.laneDisable h lam) := ⟨⟨.laneDisable .north 0, rfl, rfl⟩, nofun⟩
theorem losDetect (h : HalfId) (lam : Nat) : Statement (.losDetect h lam) := ⟨⟨.losDetect .north 0, rfl, rfl⟩, nofun⟩
theorem signalPresent (h : HalfId) (lam : Nat) : Statement (.signalPresent h lam) := ⟨⟨.signalPresent .north 0, rfl, rfl⟩, nofun⟩
theorem fecAlignLoss (h : HalfId) (lam : Nat) : Statement (.fecAlignLoss h lam) := ⟨⟨.fecAlignLoss .north 0, rfl, rfl⟩, nofun⟩
theorem blockLockLoss (h : HalfId) (lam : Nat) : Statement (.blockLockLoss h lam) := ⟨⟨.blockLockLoss .north 0, rfl, rfl⟩, nofun⟩
theorem laneAligned (h : HalfId) (lam : Nat) : Statement (.laneAligned h lam) := ⟨⟨.laneAligned .north 0, rfl, rfl⟩, nofun⟩
theorem lmBlockReceived (h : HalfId) (lam : Nat) (bytes : List Byte) : Statement (.lmBlockReceived h lam bytes) := ⟨⟨.lmBlockReceived .north 0 [], rfl, rfl⟩, nofun⟩
theorem fecWindowEnd (h : HalfId) (lam : Nat) (corrSym : Nat) (corrCw : Nat) (faults : WindowFaults) : Statement (.fecWindowEnd h lam corrSym corrCw faults) := ⟨⟨.fecWindowEnd .north 0 0 0 ⟨0, 0⟩, rfl, rfl⟩, nofun⟩
theorem trainingReady (h : HalfId) (lam : Nat) (asks : List TapAsk) (pre : Precoding) : Statement (.trainingReady h lam asks pre) := ⟨⟨.trainingReady .north 0 [] ⟨true, true⟩, rfl, rfl⟩, nofun⟩
theorem trainTimeout (h : HalfId) (lam : Nat) : Statement (.trainTimeout h lam) := ⟨⟨.trainTimeout .north 0, rfl, rfl⟩, nofun⟩
theorem relockWindowEnd (h : HalfId) (lam : Nat) : Statement (.relockWindowEnd h lam) := ⟨⟨.relockWindowEnd .north 0, rfl, rfl⟩, nofun⟩
theorem retryTimeout (h : HalfId) (lam : Nat) : Statement (.retryTimeout h lam) := ⟨⟨.retryTimeout .north 0, rfl, rfl⟩, nofun⟩
theorem laneTestWrite (h : HalfId) (lam : Nat) (w : Word) : Statement (.laneTestWrite h lam w) := ⟨⟨.laneTestWrite .north 0 0, rfl, rfl⟩, nofun⟩
theorem checkerLock (h : HalfId) (lam : Nat) (lock : Bool) (errs : Nat) (units : Nat) : Statement (.checkerLock h lam lock errs units) := ⟨⟨.checkerLock .north 0 true 0 0, rfl, rfl⟩, nofun⟩
theorem injStart (h : HalfId) (lam : Nat) (w : Word) : Statement (.injStart h lam w) := ⟨⟨.injStart .north 0 0, rfl, rfl⟩, nofun⟩
theorem injStop (h : HalfId) (lam : Nat) : Statement (.injStop h lam) := ⟨⟨.injStop .north 0, rfl, rfl⟩, nofun⟩
theorem injection (h : HalfId) (lam : Nat) : Statement (.injection h lam) := ⟨⟨.injection .north 0, rfl, rfl⟩, nofun⟩
theorem hbmTransaction (h : HalfId) (now : Nat) (a : HbmAccess) : Statement (.hbmTransaction h now a) := ⟨⟨.hbmTransaction .north 0 ⟨⟨0, false, false, .hbm, 0, 1, 0, [], false, false⟩, 0, false⟩, rfl, rfl⟩, nofun⟩
theorem hbmReadResult (h : HalfId) (p : Nat) (now : Nat) (out : ReadOutcome) (inWindow : Bool) : Statement (.hbmReadResult h p now out inWindow) := ⟨⟨.hbmReadResult .north 0 0 .clean true, rfl, rfl⟩, nofun⟩
theorem refreshDue (h : HalfId) (p : Nat) (bank : Nat) : Statement (.refreshDue h p bank) := ⟨⟨.refreshDue .north 0 0, rfl, rfl⟩, nofun⟩
theorem refreshWindowEnd (h : HalfId) (stack : Nat) : Statement (.refreshWindowEnd h stack) := ⟨⟨.refreshWindowEnd .north 0, rfl, rfl⟩, nofun⟩
theorem scrubRead (h : HalfId) (p : Nat) (now : Nat) (out : ReadOutcome) (inWindow : Bool) : Statement (.scrubRead h p now out inWindow) := ⟨⟨.scrubRead .north 0 0 .clean true, rfl, rfl⟩, nofun⟩
theorem hbmRetrain (h : HalfId) (p : Nat) (ok : Bool) (inWindow : Bool) : Statement (.hbmRetrain h p ok inWindow) := ⟨⟨.hbmRetrain .north 0 true true, rfl, rfl⟩, nofun⟩
theorem hbmTempRead (h : HalfId) (stack : Nat) (temp : Int) : Statement (.hbmTempRead h stack temp) := ⟨⟨.hbmTempRead .north 0 0, rfl, rfl⟩, nofun⟩
theorem hbmTrainingDone (h : HalfId) (failed : List Nat) : Statement (.hbmTrainingDone h failed) := ⟨⟨.hbmTrainingDone .north [], rfl, rfl⟩, nofun⟩
theorem hbmPcFence (h : HalfId) (p : Nat) (inWindow : Bool) : Statement (.hbmPcFence h p inWindow) := ⟨⟨.hbmPcFence .north 0 true, rfl, rfl⟩, nofun⟩
theorem rdbRequest (h : HalfId) (now : Nat) (x : Txn) : Statement (.rdbRequest h now x) := ⟨⟨.rdbRequest .north 0 ⟨0, false, false, .hbm, 0, 1, 0, [], false, false⟩, rfl, rfl⟩, nofun⟩
theorem bridgeCrcFail (h : HalfId) : Statement (.bridgeCrcFail h) := ⟨⟨.bridgeCrcFail .north, rfl, rfl⟩, nofun⟩
theorem bridgeDown : Statement .bridgeDown := ⟨⟨.bridgeDown, rfl, rfl⟩, nofun⟩
theorem bridgeRetrained : Statement .bridgeRetrained := ⟨⟨.bridgeRetrained, rfl, rfl⟩, nofun⟩
theorem rdbTimeout (h : HalfId) (m : Nat) (id : Nat) : Statement (.rdbTimeout h m id) := ⟨⟨.rdbTimeout .north 0 0, rfl, rfl⟩, nofun⟩
theorem referenceEvent (h : HalfId) (r : Nat) (obs : Int) (now : Nat) (tai : Nat) : Statement (.referenceEvent h r obs now tai) := ⟨⟨.referenceEvent .north 0 0 0 0, rfl, rfl⟩, nofun⟩
theorem selectionCycle (h : HalfId) (los : Nat) : Statement (.selectionCycle h los) := ⟨⟨.selectionCycle .north 0, rfl, rfl⟩, nofun⟩
theorem secondUpdate (h : HalfId) (fofs : List Int) : Statement (.secondUpdate h fofs) := ⟨⟨.secondUpdate .north (List.replicate 7 0), rfl, rfl⟩, nofun⟩
theorem holdoverMeanStore (h : HalfId) : Statement (.holdoverMeanStore h) := ⟨⟨.holdoverMeanStore .north, rfl, rfl⟩, nofun⟩
theorem hoTeUpdate (h : HalfId) : Statement (.hoTeUpdate h) := ⟨⟨.hoTeUpdate .north, rfl, rfl⟩, nofun⟩
theorem timeCopy (h : HalfId) : Statement (.timeCopy h) := ⟨⟨.timeCopy .north, rfl, rfl⟩, nofun⟩
theorem ptpTimestamp (h : HalfId) : Statement (.ptpTimestamp h) := ⟨⟨.ptpTimestamp .north, rfl, rfl⟩, nofun⟩
theorem tsetGo (h : HalfId) : Statement (.tsetGo h) := ⟨⟨.tsetGo .north, rfl, rfl⟩, nofun⟩
theorem islandPowerUp (h : HalfId) : Statement (.islandPowerUp h) := ⟨⟨.islandPowerUp .north, rfl, rfl⟩, nofun⟩
theorem islandReady (h : HalfId) : Statement (.islandReady h) := ⟨⟨.islandReady .north, rfl, rfl⟩, nofun⟩
theorem islandPowerLost (h : HalfId) : Statement (.islandPowerLost h) := ⟨⟨.islandPowerLost .north, rfl, rfl⟩, nofun⟩
theorem leaseListenEnd (h : HalfId) : Statement (.leaseListenEnd h) := ⟨⟨.leaseListenEnd .north, rfl, rfl⟩, nofun⟩
theorem heartbeatSend (h : HalfId) : Statement (.heartbeatSend h) := ⟨⟨.heartbeatSend .north, rfl, rfl⟩, nofun⟩
theorem heartbeatReceived (h : HalfId) (path : HbPath) (hb : Heartbeat) : Statement (.heartbeatReceived h path hb) := ⟨⟨.heartbeatReceived .north .bridge ⟨0, 0, 0, false, 0, 0, [], 0⟩, rfl, rfl⟩, nofun⟩
theorem pathSilent (h : HalfId) (path : HbPath) : Statement (.pathSilent h path) := ⟨⟨.pathSilent .north .bridge, rfl, rfl⟩, nofun⟩
theorem primaryLeaseLapse (h : HalfId) : Statement (.primaryLeaseLapse h) := ⟨⟨.primaryLeaseLapse .north, rfl, rfl⟩, nofun⟩
theorem secondaryLeaseLapse (h : HalfId) : Statement (.secondaryLeaseLapse h) := ⟨⟨.secondaryLeaseLapse .north, rfl, rfl⟩, nofun⟩
theorem guardExpiry (h : HalfId) : Statement (.guardExpiry h) := ⟨⟨.guardExpiry .north, rfl, rfl⟩, nofun⟩
theorem witnessFall (h : HalfId) : Statement (.witnessFall h) := ⟨⟨.witnessFall .north, rfl, rfl⟩, nofun⟩
theorem witnessLoopFault (h : HalfId) : Statement (.witnessLoopFault h) := ⟨⟨.witnessLoopFault .north, rfl, rfl⟩, nofun⟩
theorem relinquishReceived (h : HalfId) (path : HbPath) : Statement (.relinquishReceived h path) := ⟨⟨.relinquishReceived .north .bridge, rfl, rfl⟩, nofun⟩
theorem unsureEntry (h : HalfId) : Statement (.unsureEntry h) := ⟨⟨.unsureEntry .north, rfl, rfl⟩, nofun⟩
theorem leaseQueryReceived (h : HalfId) (path : HbPath) : Statement (.leaseQueryReceived h path) := ⟨⟨.leaseQueryReceived .north .bridge, rfl, rfl⟩, nofun⟩
theorem leaseQueryAnswer (h : HalfId) (epoch : Nat) (role : Nat) : Statement (.leaseQueryAnswer h epoch role) := ⟨⟨.leaseQueryAnswer .north 0 0, rfl, rfl⟩, nofun⟩
theorem unsureTimeout (h : HalfId) : Statement (.unsureTimeout h) := ⟨⟨.unsureTimeout .north, rfl, rfl⟩, nofun⟩
theorem watchdogExpiry (h : HalfId) : Statement (.watchdogExpiry h) := ⟨⟨.watchdogExpiry .north, rfl, rfl⟩, nofun⟩
theorem lseWdKick (h : HalfId) : Statement (.lseWdKick h) := ⟨⟨.lseWdKick .north, rfl, rfl⟩, nofun⟩
theorem lseHandover (h : HalfId) : Statement (.lseHandover h) := ⟨⟨.lseHandover .north, rfl, rfl⟩, nofun⟩
theorem evcSelect (h : HalfId) : Statement (.evcSelect h) := ⟨⟨.evcSelect .north, rfl, rfl⟩, nofun⟩
theorem evcClaim (h : HalfId) (c : ClaimRead) : Statement (.evcClaim h c) := ⟨⟨.evcClaim .north ⟨0, true⟩, rfl, rfl⟩, nofun⟩
theorem evcComplete (h : HalfId) (t : Nat) (n : Nat) : Statement (.evcComplete h t n) := ⟨⟨.evcComplete .north 0 0, rfl, rfl⟩, nofun⟩
theorem evcSwset (h : HalfId) (n : Nat) : Statement (.evcSwset h n) := ⟨⟨.evcSwset .north 0, rfl, rfl⟩, nofun⟩
theorem evcPendingClear (h : HalfId) (w : Nat) (v : Word) : Statement (.evcPendingClear h w v) := ⟨⟨.evcPendingClear .north 0 0, rfl, rfl⟩, nofun⟩
theorem holdOffExpiry (h : HalfId) (g : Nat) : Statement (.holdOffExpiry h g) := ⟨⟨.holdOffExpiry .north 0, rfl, rfl⟩, nofun⟩
theorem coreWfi (h : HalfId) (core : Nat) : Statement (.coreWfi h core) := ⟨⟨.coreWfi .north 0, rfl, rfl⟩, nofun⟩
theorem msixMaskClear (h : HalfId) (entry : Option Nat) : Statement (.msixMaskClear h entry) := ⟨⟨.msixMaskClear .north none, rfl, rfl⟩, nofun⟩
theorem feedComparator (h : HalfId) : Statement (.feedComparator h) := ⟨⟨.feedComparator .north, rfl, rfl⟩, nofun⟩
theorem feedSample (h : HalfId) (va : Nat) (ia : Nat) (vb : Nat) (ib : Nat) : Statement (.feedSample h va ia vb ib) := ⟨⟨.feedSample .north 0 0 0 0, rfl, rfl⟩, nofun⟩
theorem railPowerGood (h : HalfId) (r : RailReading) : Statement (.railPowerGood h r) := ⟨⟨.railPowerGood .north ⟨0, 0, 0⟩, rfl, rfl⟩, nofun⟩
theorem railStepTimeout (h : HalfId) (r : RailFailure) : Statement (.railStepTimeout h r) := ⟨⟨.railStepTimeout .north ⟨0, true⟩, rfl, rfl⟩, nofun⟩
theorem seqRetryTimer (h : HalfId) : Statement (.seqRetryTimer h) := ⟨⟨.seqRetryTimer .north, rfl, rfl⟩, nofun⟩
theorem railDownStepDone (h : HalfId) (r : Nat) : Statement (.railDownStepDone h r) := ⟨⟨.railDownStepDone .north 0, rfl, rfl⟩, nofun⟩
theorem pmbAlert (h : HalfId) (words : List (Option Nat)) : Statement (.pmbAlert h words) := ⟨⟨.pmbAlert .north (List.replicate 9 none), rfl, rfl⟩, nofun⟩
theorem avsMonitor (h : HalfId) (margin : Nat) (pmbOk : Bool) : Statement (.avsMonitor h margin pmbOk) := ⟨⟨.avsMonitor .north 0 true, rfl, rfl⟩, nofun⟩
theorem avsViolation (h : HalfId) (pmbOk : Bool) : Statement (.avsViolation h pmbOk) := ⟨⟨.avsViolation .north true, rfl, rfl⟩, nofun⟩
theorem pfwWarning : Statement .pfwWarning := ⟨⟨.pfwWarning, rfl, rfl⟩, nofun⟩
theorem urgentRequest (h : HalfId) (r : Nat) : Statement (.urgentRequest h r) := ⟨⟨.urgentRequest .north 0, rfl, rfl⟩, nofun⟩
theorem urgentBurstEnd (h : HalfId) (samples : List (List Nat)) : Statement (.urgentBurstEnd h samples) := ⟨⟨.urgentBurstEnd .north (List.replicate 4 [0, 0, 0, 0]), rfl, rfl⟩, nofun⟩
theorem boHoldExpiry (h : HalfId) (sensesBack : Bool) : Statement (.boHoldExpiry h sensesBack) := ⟨⟨.boHoldExpiry .north true, rfl, rfl⟩, nofun⟩
theorem thermalTrip (h : HalfId) (sensor : Nat) : Statement (.thermalTrip h sensor) := ⟨⟨.thermalTrip .north 0, rfl, rfl⟩, nofun⟩
theorem hkaEntryEnd (h : HalfId) (sums : List Nat) : Statement (.hkaEntryEnd h sums) := ⟨⟨.hkaEntryEnd .north [0, 0, 0, 0], rfl, rfl⟩, nofun⟩
theorem hkaGo (h : HalfId) : Statement (.hkaGo h) := ⟨⟨.hkaGo .north, rfl, rfl⟩, nofun⟩
theorem hkaCal (h : HalfId) : Statement (.hkaCal h) := ⟨⟨.hkaCal .north, rfl, rfl⟩, nofun⟩
theorem hkaCalEnd (h : HalfId) (ground : List Nat) (reference : List Nat) : Statement (.hkaCalEnd h ground reference) := ⟨⟨.hkaCalEnd .north [0, 0, 0, 0] [0, 0, 0, 0], rfl, rfl⟩, nofun⟩
theorem supRestart (h : HalfId) : Statement (.supRestart h) := ⟨⟨.supRestart .north, rfl, rfl⟩, nofun⟩
theorem throttleStart : Statement .throttleStart := ⟨⟨.throttleStart, rfl, rfl⟩, nofun⟩
theorem throttleEnd : Statement .throttleEnd := ⟨⟨.throttleEnd, rfl, rfl⟩, nofun⟩
theorem smbusRegWrite (h : HalfId) (bytes : List Byte) (pecOk : Bool) (inWindow : Bool) : Statement (.smbusRegWrite h bytes pecOk inWindow) := ⟨⟨.smbusRegWrite .north [] true true, rfl, rfl⟩, nofun⟩
theorem smbusSetAddress (h : HalfId) (bytes : List Byte) (pecOk : Bool) : Statement (.smbusSetAddress h bytes pecOk) := ⟨⟨.smbusSetAddress .north [] true, rfl, rfl⟩, nofun⟩
theorem smbusRegRead (h : HalfId) : Statement (.smbusRegRead h) := ⟨⟨.smbusRegRead .north, rfl, rfl⟩, nofun⟩
theorem smbusFrameFragment (h : HalfId) (bytes : List Byte) (pecOk : Bool) : Statement (.smbusFrameFragment h bytes pecOk) := ⟨⟨.smbusFrameFragment .north [0] true, rfl, rfl⟩, nofun⟩
theorem smbusReplyRead (h : HalfId) : Statement (.smbusReplyRead h) := ⟨⟨.smbusReplyRead .north, rfl, rfl⟩, nofun⟩
theorem smbusFragmentTimeout (h : HalfId) : Statement (.smbusFragmentTimeout h) := ⟨⟨.smbusFragmentTimeout .north, rfl, rfl⟩, nofun⟩
theorem resetNRise (sel : Nat) : Statement (.resetNRise sel) := ⟨⟨.resetNRise 0, rfl, rfl⟩, nofun⟩
theorem resetNLow : Statement .resetNLow := ⟨⟨.resetNLow, rfl, rfl⟩, nofun⟩
theorem pllLock (h : HalfId) : Statement (.pllLock h) := ⟨⟨.pllLock .north, rfl, rfl⟩, nofun⟩
theorem pllLockTimeout (h : HalfId) : Statement (.pllLockTimeout h) := ⟨⟨.pllLockTimeout .north, rfl, rfl⟩, nofun⟩
theorem selfTestDone (h : HalfId) (ok : Bool) (failed : List Nat) : Statement (.selfTestDone h ok failed) := ⟨⟨.selfTestDone .north true [], rfl, rfl⟩, nofun⟩
theorem flashImageReadDone (h : HalfId) (present : Bool) (room : Nat) (a : List Byte) (b : List Byte) : Statement (.flashImageReadDone h present room a b) := ⟨⟨.flashImageReadDone .north true 0 [] [], rfl, rfl⟩, nofun⟩
theorem imageChoice (h : HalfId) : Statement (.imageChoice h) := ⟨⟨.imageChoice .north, rfl, rfl⟩, nofun⟩
theorem heldFrameResume (h : HalfId) : Statement (.heldFrameResume h) := ⟨⟨.heldFrameResume .north, rfl, rfl⟩, nofun⟩
theorem drainDone (h : HalfId) (timeout : Bool) : Statement (.drainDone h timeout) := ⟨⟨.drainDone .north true, rfl, rfl⟩, nofun⟩
theorem flashOpDone (h : HalfId) (ok : Bool) (back : List Byte) : Statement (.flashOpDone h ok back) := ⟨⟨.flashOpDone .north true [], rfl, rfl⟩, nofun⟩
theorem flashOpTimeout (h : HalfId) : Statement (.flashOpTimeout h) := ⟨⟨.flashOpTimeout .north, rfl, rfl⟩, nofun⟩
theorem mbxReqGo (h : HalfId) : Statement (.mbxReqGo h) := ⟨⟨.mbxReqGo .north, rfl, rfl⟩, nofun⟩
theorem mbxRspValidClear (h : HalfId) : Statement (.mbxRspValidClear h) := ⟨⟨.mbxRspValidClear .north, rfl, rfl⟩, nofun⟩
theorem mgmtPortFrame (h : HalfId) (f : PortFrame) : Statement (.mgmtPortFrame h f) := ⟨⟨.mgmtPortFrame .north ⟨.good, []⟩, rfl, rfl⟩, nofun⟩
theorem functionLevelReset (h : HalfId) : Statement (.functionLevelReset h) := ⟨⟨.functionLevelReset .north, rfl, rfl⟩, nofun⟩
theorem tclkLost : Statement .tclkLost := ⟨⟨.tclkLost, rfl, rfl⟩, nofun⟩
theorem errorHandle (h : HalfId) : Statement (.errorHandle h) := ⟨⟨.errorHandle .north, rfl, rfl⟩, nofun⟩
theorem errHeadRead (h : HalfId) : Statement (.errHeadRead h) := ⟨⟨.errHeadRead .north, rfl, rfl⟩, nofun⟩
theorem errPop (h : HalfId) : Statement (.errPop h) := ⟨⟨.errPop .north, rfl, rfl⟩, nofun⟩
theorem errClear (h : HalfId) : Statement (.errClear h) := ⟨⟨.errClear .north, rfl, rfl⟩, nofun⟩
theorem subarrayStopped (h : HalfId) (sub : Nat) : Statement (.subarrayStopped h sub) := ⟨⟨.subarrayStopped .north 0, rfl, rfl⟩, nofun⟩
theorem chnRunSet (h : HalfId) : Statement (.chnRunSet h) := ⟨⟨.chnRunSet .north, rfl, rfl⟩, nofun⟩
theorem chnRunClear (h : HalfId) (boundary : Nat) : Statement (.chnRunClear h boundary) := ⟨⟨.chnRunClear .north 0, rfl, rfl⟩, nofun⟩
theorem chnCoefDataWrite (h : HalfId) (d : Word) : Statement (.chnCoefDataWrite h d) := ⟨⟨.chnCoefDataWrite .north 0, rfl, rfl⟩, nofun⟩
theorem dlyRunClear (h : HalfId) : Statement (.dlyRunClear h) := ⟨⟨.dlyRunClear .north, rfl, rfl⟩, nofun⟩
theorem dlyGainDataWrite (h : HalfId) (d : Word) (inWindow : Bool) : Statement (.dlyGainDataWrite h d inWindow) := ⟨⟨.dlyGainDataWrite .north 0 true, rfl, rfl⟩, nofun⟩
theorem dlyModelArm (h : HalfId) (q : Nat) (d : Word) (inWindow : Bool) : Statement (.dlyModelArm h q d inWindow) := ⟨⟨.dlyModelArm .north 0 0 true, rfl, rfl⟩, nofun⟩
theorem registerWrite (v : HalfId) (addr : Nat) (w : Word) (marks : WriteMarks) : Statement (.registerWrite v addr w marks) := ⟨⟨.registerWrite .north 0 0 ⟨true, false, 0⟩, rfl, rfl⟩, nofun⟩
theorem rcRead (v : HalfId) (r : RegisterRead) : Statement (.rcRead v r) := ⟨⟨.rcRead .north ⟨0, false, 0⟩, rfl, rfl⟩, nofun⟩
theorem latchingRead (v : HalfId) (r : LowWordRead) : Statement (.latchingRead v r) := ⟨⟨.latchingRead .north ⟨0, false⟩, rfl, rfl⟩, nofun⟩
theorem ping (h : HalfId) (rx : Rx) : Statement (.ping h rx) := ⟨⟨.ping .north .mailbox, rfl, rfl⟩, nofun⟩
theorem regRead (h : HalfId) (rx : Rx) : Statement (.regRead h rx) := ⟨⟨.regRead .north .mailbox, rfl, rfl⟩, nofun⟩
theorem regWrite (h : HalfId) (rx : TimedRx) : Statement (.regWrite h rx) := ⟨⟨.regWrite .north ⟨.mailbox, false⟩, rfl, rfl⟩, nofun⟩
theorem mgmtCfg (h : HalfId) (rx : Rx) : Statement (.mgmtCfg h rx) := ⟨⟨.mgmtCfg .north .mailbox, rfl, rfl⟩, nofun⟩
theorem authKey (h : HalfId) (rx : Rx) : Statement (.authKey h rx) := ⟨⟨.authKey .north .mailbox, rfl, rfl⟩, nofun⟩
theorem snapshot (h : HalfId) (rx : Rx) : Statement (.snapshot h rx) := ⟨⟨.snapshot .north .mailbox, rfl, rfl⟩, nofun⟩
theorem profileSwitch (h : HalfId) (rx : Rx) : Statement (.profileSwitch h rx) := ⟨⟨.profileSwitch .north .mailbox, rfl, rfl⟩, nofun⟩
theorem flashInfo (h : HalfId) (rx : Rx) : Statement (.flashInfo h rx) := ⟨⟨.flashInfo .north .mailbox, rfl, rfl⟩, nofun⟩
theorem flashBegin (h : HalfId) (rx : Rx) : Statement (.flashBegin h rx) := ⟨⟨.flashBegin .north .mailbox, rfl, rfl⟩, nofun⟩
theorem flashData (h : HalfId) (rx : Rx) : Statement (.flashData h rx) := ⟨⟨.flashData .north .mailbox, rfl, rfl⟩, nofun⟩
theorem flashCommit (h : HalfId) (rx : Rx) : Statement (.flashCommit h rx) := ⟨⟨.flashCommit .north .mailbox, rfl, rfl⟩, nofun⟩
theorem flashAbort (h : HalfId) (rx : Rx) : Statement (.flashAbort h rx) := ⟨⟨.flashAbort .north .mailbox, rfl, rfl⟩, nofun⟩
theorem schedBegin (h : HalfId) (rx : Rx) : Statement (.schedBegin h rx) := ⟨⟨.schedBegin .north .mailbox, rfl, rfl⟩, nofun⟩
theorem schedInputs (h : HalfId) (rx : Rx) : Statement (.schedInputs h rx) := ⟨⟨.schedInputs .north .mailbox, rfl, rfl⟩, nofun⟩
theorem schedVis (h : HalfId) (rx : Rx) : Statement (.schedVis h rx) := ⟨⟨.schedVis .north .mailbox, rfl, rfl⟩, nofun⟩
theorem schedBeam (h : HalfId) (rx : Rx) : Statement (.schedBeam h rx) := ⟨⟨.schedBeam .north .mailbox, rfl, rfl⟩, nofun⟩
theorem schedCapture (h : HalfId) (rx : Rx) : Statement (.schedCapture h rx) := ⟨⟨.schedCapture .north .mailbox, rfl, rfl⟩, nofun⟩
theorem schedDrop (h : HalfId) (rx : Rx) : Statement (.schedDrop h rx) := ⟨⟨.schedDrop .north .mailbox, rfl, rfl⟩, nofun⟩
theorem schedCommit (h : HalfId) (rx : Rx) : Statement (.schedCommit h rx) := ⟨⟨.schedCommit .north .mailbox, rfl, rfl⟩, nofun⟩
theorem subTeardown (h : HalfId) (rx : Rx) : Statement (.subTeardown h rx) := ⟨⟨.subTeardown .north .mailbox, rfl, rfl⟩, nofun⟩
theorem quotaSet (h : HalfId) (rx : Rx) : Statement (.quotaSet h rx) := ⟨⟨.quotaSet .north .mailbox, rfl, rfl⟩, nofun⟩
theorem readmit (h : HalfId) (rx : Rx) : Statement (.readmit h rx) := ⟨⟨.readmit .north .mailbox, rfl, rfl⟩, nofun⟩
theorem frameCfg (h : HalfId) (rx : Rx) : Statement (.frameCfg h rx) := ⟨⟨.frameCfg .north .mailbox, rfl, rfl⟩, nofun⟩
theorem schedQuery (h : HalfId) (rx : Rx) : Statement (.schedQuery h rx) := ⟨⟨.schedQuery .north .mailbox, rfl, rfl⟩, nofun⟩
theorem modelSet (h : HalfId) (rx : Rx) : Statement (.modelSet h rx) := ⟨⟨.modelSet .north .mailbox, rfl, rfl⟩, nofun⟩
theorem gainSet (h : HalfId) (rx : Rx) : Statement (.gainSet h rx) := ⟨⟨.gainSet .north .mailbox, rfl, rfl⟩, nofun⟩
theorem inputFlags (h : HalfId) (rx : Rx) : Statement (.inputFlags h rx) := ⟨⟨.inputFlags .north .mailbox, rfl, rfl⟩, nofun⟩
theorem maskSet (h : HalfId) (rx : Rx) : Statement (.maskSet h rx) := ⟨⟨.maskSet .north .mailbox, rfl, rfl⟩, nofun⟩
theorem skySet (h : HalfId) (rx : Rx) : Statement (.skySet h rx) := ⟨⟨.skySet .north .mailbox, rfl, rfl⟩, nofun⟩
theorem beamDelays (h : HalfId) (rx : Rx) : Statement (.beamDelays h rx) := ⟨⟨.beamDelays .north .mailbox, rfl, rfl⟩, nofun⟩
theorem beamRaw (h : HalfId) (rx : Rx) : Statement (.beamRaw h rx) := ⟨⟨.beamRaw .north .mailbox, rfl, rfl⟩, nofun⟩
theorem beamScale (h : HalfId) (rx : Rx) : Statement (.beamScale h rx) := ⟨⟨.beamScale .north .mailbox, rfl, rfl⟩, nofun⟩
theorem ringCreate (h : HalfId) (rx : Rx) : Statement (.ringCreate h rx) := ⟨⟨.ringCreate .north .mailbox, rfl, rfl⟩, nofun⟩
theorem ringSet (h : HalfId) (rx : Rx) : Statement (.ringSet h rx) := ⟨⟨.ringSet .north .mailbox, rfl, rfl⟩, nofun⟩
theorem ringCmdStop (h : HalfId) (rx : Rx) : Statement (.ringCmdStop h rx) := ⟨⟨.ringCmdStop .north .mailbox, rfl, rfl⟩, nofun⟩
theorem ringCmdStart (h : HalfId) (rx : Rx) : Statement (.ringCmdStart h rx) := ⟨⟨.ringCmdStart .north .mailbox, rfl, rfl⟩, nofun⟩
theorem ringCmdDestroy (h : HalfId) (rx : Rx) : Statement (.ringCmdDestroy h rx) := ⟨⟨.ringCmdDestroy .north .mailbox, rfl, rfl⟩, nofun⟩
theorem ringQuery (h : HalfId) (rx : Rx) : Statement (.ringQuery h rx) := ⟨⟨.ringQuery .north .mailbox, rfl, rfl⟩, nofun⟩
theorem portCfg (h : HalfId) (rx : Rx) : Statement (.portCfg h rx) := ⟨⟨.portCfg .north .mailbox, rfl, rfl⟩, nofun⟩
theorem capCmd (h : HalfId) (rx : Rx) : Statement (.capCmd h rx) := ⟨⟨.capCmd .north .mailbox, rfl, rfl⟩, nofun⟩
theorem capTrigcfg (h : HalfId) (rx : Rx) : Statement (.capTrigcfg h rx) := ⟨⟨.capTrigcfg .north .mailbox, rfl, rfl⟩, nofun⟩
theorem capQuery (h : HalfId) (rx : Rx) : Statement (.capQuery h rx) := ⟨⟨.capQuery .north .mailbox, rfl, rfl⟩, nofun⟩
theorem timeQuery (h : HalfId) (rx : Rx) : Statement (.timeQuery h rx) := ⟨⟨.timeQuery .north .mailbox, rfl, rfl⟩, nofun⟩
theorem refCfg (h : HalfId) (rx : Rx) : Statement (.refCfg h rx) := ⟨⟨.refCfg .north .mailbox, rfl, rfl⟩, nofun⟩
theorem timeCtl (h : HalfId) (rx : Rx) : Statement (.timeCtl h rx) := ⟨⟨.timeCtl .north .mailbox, rfl, rfl⟩, nofun⟩
theorem timeSet (h : HalfId) (rx : Rx) : Statement (.timeSet h rx) := ⟨⟨.timeSet .north .mailbox, rfl, rfl⟩, nofun⟩
theorem ptpCfg (h : HalfId) (rx : Rx) : Statement (.ptpCfg h rx) := ⟨⟨.ptpCfg .north .mailbox, rfl, rfl⟩, nofun⟩
theorem laneCfg (h : HalfId) (rx : Rx) : Statement (.laneCfg h rx) := ⟨⟨.laneCfg .north .mailbox, rfl, rfl⟩, nofun⟩
theorem laneTest (h : HalfId) (rx : Rx) : Statement (.laneTest h rx) := ⟨⟨.laneTest .north .mailbox, rfl, rfl⟩, nofun⟩
theorem laneQuery (h : HalfId) (rx : Rx) : Statement (.laneQuery h rx) := ⟨⟨.laneQuery .north .mailbox, rfl, rfl⟩, nofun⟩
theorem evtSubscribe (h : HalfId) (rx : Rx) : Statement (.evtSubscribe h rx) := ⟨⟨.evtSubscribe .north .mailbox, rfl, rfl⟩, nofun⟩
theorem evtCancel (h : HalfId) (rx : Rx) : Statement (.evtCancel h rx) := ⟨⟨.evtCancel .north .mailbox, rfl, rfl⟩, nofun⟩
theorem errRead (h : HalfId) (rx : Rx) : Statement (.errRead h rx) := ⟨⟨.errRead .north .mailbox, rfl, rfl⟩, nofun⟩
theorem eventMsg (h : HalfId) (slot : Nat) : Statement (.eventMsg h slot) := ⟨⟨.eventMsg .north 0, rfl, rfl⟩, nofun⟩
theorem handover (h : HalfId) (rx : Rx) : Statement (.handover h rx) := ⟨⟨.handover .north .mailbox, rfl, rfl⟩, nofun⟩
theorem halfReset (h : HalfId) (rx : Rx) : Statement (.halfReset h rx) := ⟨⟨.halfReset .north .mailbox, rfl, rfl⟩, nofun⟩
theorem bayRepair (h : HalfId) (rx : Rx) : Statement (.bayRepair h rx) := ⟨⟨.bayRepair .north .mailbox, rfl, rfl⟩, nofun⟩
theorem pcFence (h : HalfId) (rx : Rx) : Statement (.pcFence h rx) := ⟨⟨.pcFence .north .mailbox, rfl, rfl⟩, nofun⟩
theorem halfQuery (h : HalfId) (rx : Rx) : Statement (.halfQuery h rx) := ⟨⟨.halfQuery .north .mailbox, rfl, rfl⟩, nofun⟩
theorem hkRead (h : HalfId) (rx : Rx) : Statement (.hkRead h rx) := ⟨⟨.hkRead .north .mailbox, rfl, rfl⟩, nofun⟩
theorem hkSeq (h : HalfId) (rx : Rx) : Statement (.hkSeq h rx) := ⟨⟨.hkSeq .north .mailbox, rfl, rfl⟩, nofun⟩
theorem supCfg (h : HalfId) (rx : Rx) : Statement (.supCfg h rx) := ⟨⟨.supCfg .north .mailbox, rfl, rfl⟩, nofun⟩
theorem halfRestart (h : HalfId) (rx : Rx) : Statement (.halfRestart h rx) := ⟨⟨.halfRestart .north .mailbox, rfl, rfl⟩, nofun⟩
theorem autoNegotiationDone (h : HalfId) (lam : Nat) (common : Bool) : Statement (.autoNegotiationDone h lam common) := ⟨⟨.autoNegotiationDone .north 0 true, rfl, rfl⟩, nofun⟩
theorem remoteFaultSequence (h : HalfId) (lam : Nat) : Statement (.remoteFaultSequence h lam) := ⟨⟨.remoteFaultSequence .north 0, rfl, rfl⟩, nofun⟩
theorem pfwNRise : Statement .pfwNRise := ⟨⟨.pfwNRise, rfl, rfl⟩, nofun⟩
theorem witnessLoopFaultClear (h : HalfId) : Statement (.witnessLoopFaultClear h) := ⟨⟨.witnessLoopFaultClear .north, rfl, rfl⟩, nofun⟩
theorem deviceRecordTakenUp (h : HalfId) : Statement (.deviceRecordTakenUp h) := ⟨⟨.deviceRecordTakenUp .north, rfl, rfl⟩, nofun⟩
theorem mbxEvtValidClear (h : HalfId) : Statement (.mbxEvtValidClear h) := ⟨⟨.mbxEvtValidClear .north, rfl, rfl⟩, nofun⟩
theorem unknownOpcode (h : HalfId) (rx : Rx) : Statement (.unknownOpcode h rx) := ⟨⟨.unknownOpcode .north .mailbox, rfl, rfl⟩, nofun⟩

end Sys2Proof.Laws.Formable
end

