-- ==== Sys2Proof/Tests/Slice0.lean ====
section
/-! SUPPORT. Tests of the model on small states: ill-formed commands are refused by `Instr.wf`, some steps with results worked out from the
spec, and for each statement of Certificates/Slice0 states that meet its hypotheses, clause by clause. -/

namespace Sys2Proof.Tests

open Sys2Proof Sys2Proof.Machine

set_option maxRecDepth 100000
set_option synthInstance.maxSize 4096
set_option synthInstance.maxHeartbeats 400000
set_option Elab.async false

/-! ### Small states -/

/-- A half that runs, with a role; the lane of its management port is in service. -/
def runHalf (i : HalfId) (role : Nat) : Half :=
  let h := ((((Half.reset i).fset SUP_STAT_MAIN 2).fset LSE_STAT_OWN 2).fset LSE_STAT_ROLE role).fset LAN_STAT_STATE 3 53
  { h with isl := { h.isl with powered := true, ready := true, vddArc := 700, vddPrev := 700 } }

/-- Both halves run, north is primary. -/
def up : State :=
  { State.reset with north := runHalf .north 2, south := runHalf .south 1, board := { Board.reset with resetN := true, bridgeUp := true } }

/-- Fields of a half set, each as (field, instance, value). -/
def sets (l : List (Fld × Nat × Nat)) (h : Half) : Half := l.foldl (fun h e => h.fset e.1 e.2.2 e.2.1) h

/-- `up` with half north changed. -/
def upN (f : Half → Half) : State := { up with north := f up.north }

/-- `up` with fields of half north set. -/
def st (l : List (Fld × Nat × Nat)) : State := upN (sets l)

theorem forall_half (p : HalfId → Prop) : (∀ i, p i) ↔ p .north ∧ p .south :=
  ⟨fun h => ⟨h _, h _⟩, fun h i => match i with | .north => h.1 | .south => h.2⟩

/-! ### Ill-formed commands are refused -/

/-- Ill-formed commands of frames, ingest, spectra, exchange, the Arcade and the beam tables. -/
theorem test_ill_formed_rows :
    ([.tick [66] [] [], .tick [] [66] [], .capFreezeBound .north 16, .ssfReceived .north 32 .good [],
      .ethFrameReceived .north 32 ⟨.good, true⟩ [], .ethGapTimeout .north 256, .ingRunClear .north (some 32), .spectrumFormed .north 256 0 none,
      .spectrumFormed .north 0 0 (some 65536), .pwrWarmupEnd .north 256, .pwrReseed .north 256, .skDecision .north 256 0,
      .delayStoreWrite .north 256 0, .dataBlockReceived .north 16 .good [], .helloReceived .north 16 [], .helloSend .north 16,
      .tickBlockReceived .north 16 [] 0, .probeSend .north 16 0, .probeReceived .north 16 [] 0 0, .echoReceived .north 16 [] 0,
      .creditReceived .north 16 [], .creditSend .north 16, .passEnd .north 64 0 [], .bayFault .north 66 1 false,
      .bayFault .north 0 0 false, .bayFault .north 0 4 false, .beamTableCopyEnd .north 16, .beamTableLoad .north 16,
      .dlyModelArm .north 256 0 false] : List Instr).all (fun c => !c.wf) = true := by
  decide +kernel

/-- Ill-formed commands of capture feeds, rings and lanes. -/
theorem test_ill_formed_units :
    ([.capArm .north 16, .capTrig .north 16, .capFreeze .north 16, .capRead .north 16,
      .capRelease .north 16, .capEventTrigger .north 16, .capReadDone .north 16, .subarrayStopped .north 16,
      .trwDoorbell .north (2 ^ 20), .trwStop .north (2 ^ 20), .trwStart .north (2 ^ 20), .trwCtxDataWrite .north 32 0,
      .laneGrant .north 4 0, .datagramDone .north (2 ^ 20), .outFrameReceived .north 5, .laneEnable .north 54,
      .laneDisable .north 54, .losDetect .north 54, .signalPresent .north 54, .fecAlignLoss .north 54,
      .blockLockLoss .north 54, .laneAligned .north 54, .trainTimeout .north 54, .relockWindowEnd .north 54,
      .retryTimeout .north 54, .injStop .north 54, .injection .north 54, .remoteFaultSequence .north 54,
      .lmBlockReceived .north 54 [], .fecWindowEnd .north 54 0 0 ⟨0, 0⟩, .trainingReady .north 54 [] ⟨false, false⟩, .laneTestWrite .north 54 0,
      .checkerLock .north 54 false 0 0, .injStart .north 54 0, .autoNegotiationDone .north 54 true] : List Instr).all (fun c => !c.wf) = true := by
  decide +kernel

/-- Ill-formed commands of memory, the Roundabout and timing. -/
theorem test_ill_formed_memory :
    ([.hbmTransaction .north 0 ⟨⟨7, false, false, .hbm, 0, 1, 0, [], false, false⟩, 0, false⟩, .hbmTransaction .north 0 ⟨⟨0, false, false, .hbm, 0, 0, 0, [], false, false⟩, 0, false⟩,
      .hbmTransaction .north 0 ⟨⟨0, false, false, .hbm, 0, 17, 0, [], false, false⟩, 0, false⟩, .rdbRequest .north 0 ⟨0, false, true, .hbm, 0, 1, 0, [], false, false⟩,
      .rdbRequest .north 0 ⟨0, false, true, .registers, 0, 1, 0, List.replicate 64 0, false, false⟩, .hbmReadResult .north 128 0 .clean false, .refreshDue .north 128 0, .scrubRead .north 128 0 .clean false, .hbmRetrain .north 128 true false, .refreshWindowEnd .north 4,
      .hbmTempRead .north 4 0, .hbmTrainingDone .north [128], .hbmPcFence .north 128 false, .rdbTimeout .north 16 0,
      .rdbTimeout .north 0 256, .referenceEvent .north 7 0 0 0, .selectionCycle .north 128, .secondUpdate .north []] : List Instr).all (fun c => !c.wf) = true := by
  decide +kernel

/-- Ill-formed commands of the lease, the event controller and supplies. -/
theorem test_ill_formed_lease :
    ([.heartbeatReceived .north .bridge ⟨2 ^ 32, 0, 0, false, 0, 0, [], 0⟩, .heartbeatReceived .north .bridge ⟨0, 4, 0, false, 0, 0, [], 0⟩, .heartbeatReceived .north .bridge ⟨0, 0, 4, false, 0, 0, [], 0⟩, .heartbeatReceived .north .bridge ⟨0, 0, 0, false, 0, 0, [0], 0⟩,
      .leaseQueryAnswer .north (2 ^ 32) 0, .leaseQueryAnswer .north 0 4, .evcClaim .north ⟨12, false⟩, .evcComplete .north 12 0,
      .evcComplete .north 0 1024, .evcSwset .north 1024, .evcPendingClear .north 30 0, .holdOffExpiry .north 30,
      .coreWfi .north 4, .msixMaskClear .north (some 1024), .feedSample .north 4096 0 0 0, .feedSample .north 0 4096 0 0,
      .feedSample .north 0 0 4096 0, .feedSample .north 0 0 0 4096, .railPowerGood .north ⟨9, 0, 0⟩, .railStepTimeout .north ⟨9, false⟩,
      .railDownStepDone .north 9, .pmbAlert .north [], .urgentRequest .north 9, .urgentBurstEnd .north [],
      .urgentBurstEnd .north [[], [], [], []], .thermalTrip .north 16, .hkaEntryEnd .north [], .hkaCalEnd .north [] [0, 0, 0, 0],
      .hkaCalEnd .north [0, 0, 0, 0] []] : List Instr).all (fun c => !c.wf) = true := by
  decide +kernel

/-- Ill-formed commands of SMBus, start-up and registers. -/
theorem test_ill_formed_start :
    ([.smbusRegWrite .north (List.replicate 256 0) true false, .smbusSetAddress .north (List.replicate 256 0) true, .smbusFrameFragment .north [] true, .smbusFrameFragment .north (List.replicate 256 0) true,
      .resetNRise 8, .selfTestDone .north true [66], .flashImageReadDone .north true 0 [0] [], .flashImageReadDone .north true 0 [] [0],
      .registerWrite .north (2 ^ 27) 0 ⟨false, false, 0⟩, .rcRead .north ⟨(2 ^ 27), false, 0⟩, .latchingRead .north ⟨(2 ^ 27), false⟩, .eventMsg .north 8] : List Instr).all (fun c => !c.wf) = true := by
  decide +kernel

/-- A station address of one byte. -/
def badRx : Rx := .udp [0] [10, 0, 0, 1] 5000 []

/-- Command frames from an impossible sender. -/
theorem test_ill_formed_frames :
    ([.ping .north badRx, .regRead .north badRx, .regWrite .north ⟨badRx, false⟩, .mgmtCfg .north badRx, .authKey .north badRx, .snapshot .north badRx,
      .profileSwitch .north badRx, .flashInfo .north badRx, .flashBegin .north badRx, .flashData .north badRx, .flashCommit .north badRx, .flashAbort .north badRx,
      .schedBegin .north badRx, .schedInputs .north badRx, .schedVis .north badRx, .schedBeam .north badRx, .schedCapture .north badRx, .schedDrop .north badRx,
      .schedCommit .north badRx, .subTeardown .north badRx, .quotaSet .north badRx, .readmit .north badRx, .frameCfg .north badRx, .schedQuery .north badRx,
      .modelSet .north badRx, .gainSet .north badRx, .inputFlags .north badRx, .maskSet .north badRx, .skySet .north badRx, .beamDelays .north badRx,
      .beamRaw .north badRx, .beamScale .north badRx, .ringCreate .north badRx, .ringSet .north badRx, .ringCmdStop .north badRx, .ringCmdStart .north badRx,
      .ringCmdDestroy .north badRx, .ringQuery .north badRx, .portCfg .north badRx, .capCmd .north badRx, .capTrigcfg .north badRx, .capQuery .north badRx,
      .timeQuery .north badRx, .refCfg .north badRx, .timeCtl .north badRx, .timeSet .north badRx, .ptpCfg .north badRx, .laneCfg .north badRx,
      .laneTest .north badRx, .laneQuery .north badRx, .evtSubscribe .north badRx, .evtCancel .north badRx, .errRead .north badRx, .handover .north badRx,
      .halfReset .north badRx, .bayRepair .north badRx, .pcFence .north badRx, .halfQuery .north badRx, .hkRead .north badRx, .hkSeq .north badRx,
      .supCfg .north badRx, .halfRestart .north badRx, .unknownOpcode .north badRx] : List Instr).all (fun c => !c.wf) = true := by
  decide +kernel

theorem test_ill_formed_sender :
    Rx.wf (.udp (List.replicate 6 0) [10] 5000 []) = false ∧ Rx.wf (.udp (List.replicate 6 0) [10, 0, 0, 1] 65536 []) = false
    ∧ Rx.wf (.udp (List.replicate 6 0) [10, 0, 0, 1] 5000 []) = true := by
  decide

/-- The next state after a command, none where it stops. -/
def after (c : Instr) (s : State) : Option State := match exec c s with | .next t => some t | _ => none

/-! ### Steps with results worked out from the spec -/

/-- The check value of 12_tramway_output.md: the nine bytes "123456789". -/
theorem test_crc32c : crc32c [0x31, 0x32, 0x33, 0x34, 0x35, 0x36, 0x37, 0x38, 0x39] = 0xE3069283 := by decide +kernel

/-- Group 14 goes to cores 0 to 3, source 451 is pending and enabled, core 0 is in service (18_event_controller.md, the worked example). -/
def evcExample : Half :=
  let h := sets [(EVC_CTL_EN, 0, 1), (EVC_STAT_LAST, 0, 0)] up.north
  let h := h.fold (List.range 4) (fun h t => h.putN EVC_TGT_0 (2 ^ 3 + 2 ^ 14) t)
  let h := ((h.setSrcBit EVC_ENABLE 451 true).setSrcBit EVC_PENDING 451 true).putN EVC_HOLD 10 14
  h.setTgt 0 (fun x => { x with insvc := some 97 })

/-- Source 451 is offered to core 1, and the hold-off of group 14 starts (R347, R349). -/
theorem test_evc_select : (evcExample.evcSelect.tgt 1).offer = some 451 ∧ evcExample.evcSelect.evc.holdOff = [14] := by decide +kernel

/-- Core 1's claim returns VALID and the number, and clears the pending bit of an edge source (R350). -/
theorem test_evc_claim :
    (evcExample.evcSelect.claimRead 1).1 = 0x800001C3#32 ∧ (evcExample.evcSelect.claimRead 1).2.srcBit EVC_PENDING 451 = false := by decide +kernel

/-- A claim where nothing is offered returns 0 (R350). -/
theorem test_evc_claim_none : (evcExample.claimRead 2).1 = 0 := by decide +kernel

/-- With all idle the first eligible target after 11 is core 0 (R347). -/
theorem test_evc_select_wraps :
    (((evcExample.setTgt 0 (fun x => { x with insvc := none })).fset EVC_STAT_LAST 11).evcSelect.tgt 0).offer = some 451 := by decide +kernel

/-- Spectrum 4,882,500 of the worked example of 04_channelizer.md lies in SK block 38,144, which starts at 4,882,432. -/
theorem test_sk_block : 4882500 / up.north.skm = 38144 ∧ 38144 * up.north.skm = 4882432 := by decide +kernel

/-- Rounding is to nearest, ties to even; a negative tie too. -/
theorem test_rne : rneShr 5 1 = 2 ∧ rneShr 7 1 = 4 ∧ rneShr (-5) 1 = -2 ∧ rneShr (-7) 1 = -4 := by decide

/-- A write to DEV_FRM_CFG with FCODE 5 is ignored as a whole (R25). -/
theorem test_frame_cfg_refused :
    (after (.registerWrite .north (DEV_FRM_CFG.at 0) 5 ⟨false, false, 0⟩) up).map (fun t => t.north.getN DEV_FRM_CFG) = some (up.north.getN DEV_FRM_CFG) := by decide +kernel

/-- A word written to the program port is stored at ADDR, and ADDR advances (R162). -/
theorem test_arc_prog_data :
    (after (.arcProgDataWrite .north 7) up).map (fun t => (t.north.fget ARC_PROG_ADDR_ADDR, t.north.arc.prog)) = some (1, [(0, 7)]) := by decide +kernel

/-- FREEZE takes an ARMED feed to FROZEN; on an IDLE one it is ignored and counted (R221). -/
theorem test_cap_freeze :
    (after (.capFreeze .north 3) (st [(CAP_FSTAT_0_STATE, 3, 1)])).map (fun t => t.north.capState 3) = some capFrozen
    ∧ (after (.capFreeze .north 3) up).map (fun t => (t.north.capState 3, t.north.getN CAP_FSTAT_5 3)) = some (0, 1) := by decide +kernel

/-- The commands wait in a queue, first in first out: the step takes the front one. -/
theorem test_queue : ({ up with pending := [.arcOpNop .north, .creditSend .north 3] } : State).pending.head? = some (.arcOpNop .north) := by decide

/-- A sample-stream frame of zeros for input 0: S_f 512, COUNTER 0. -/
def ssf0 : List Byte := withCrc ([0x46, 0x53, 1, 0] ++ List.replicate 20 0 ++ List.replicate 768 0)
/-- Lane 0 of north receives frames of 512 samples. -/
def laneOn (framing : Nat) : State := st [(ING_CTL_RUN, 0, 1), (ING_LANE_CFG_EN, 0, 1), (ING_LANE_CFG_FRAMING, 0, framing), (LAN_CFG_MODE, 0, framing),
  (ING_LANE_CFG_SFCODE, 0, 0), (LAN_STAT_STATE, 0, 3)]

theorem witness_SsfAccepted :
    (let s := laneOn 0; let h := s.north; s.Works .north ∧ h.logicalLane 0 = some 0 ∧ h.laneReceives 0 = true ∧ h.laneEth 0 = false ∧ h.laneLocked 0 = true ∧ h.laneDelivers 0 ssf0 = true ∧ crcGood ssf0 = true ∧ h.ssfFormatOk 0 ssf0 = true ∧ h.ssfRouteOk 0 ssf0 = true ∧ fieldAt ssf0 8 8 + 512 * 2 ^ bits (byteAt ssf0 7) 1 0 ≤ (h.frame + 2) * h.fspec * h.lin ∧ (h.inp 0).firstNew 0 512 = some 0) :=
  by decide +kernel

/-- An Ethernet frame that carries `p` to port 0xBCB6 of ingest's address 0x02_00_00_00_00_01. -/
def ethOf (p : List Byte) : List Byte := [2, 0, 0, 0, 0, 1] ++ List.replicate 6 0 ++ [8, 0]
  ++ (let ip := [0x45, 0] ++ beBytes 2 (28 + p.length) ++ [0, 0, 0, 0, 64, 17]
      let tail := [10, 0, 0, 1, 10, 0, 0, 2]
      ip ++ beBytes 2 (inetChecksum (ip ++ [0, 0] ++ tail)) ++ tail) ++ [0, 1, 0xBC, 0xB6] ++ beBytes 2 (8 + p.length) ++ [0, 0] ++ p
def laneEth : State := { laneOn 1 with north := ((laneOn 1).north.putN ING_MAC_LO 1).fset ING_MAC_HI_MAC_HI 0x200 }
/-- An input with one open gap. -/
def gapInput : State := upN (fun h => h.setInp 0 (fun x => { x with opened := some 0, top := 1024, gaps := [⟨0, 512, 1⟩] }))

theorem witness_IngestFramesAndRun :
    (let s := laneEth; let h := s.north; s.Works .north ∧ h.logicalLane 0 = some 0 ∧ h.laneReceives 0 = true ∧ h.laneEth 0 = true ∧ h.laneLocked 0 = true ∧ h.laneDelivers 0 [] = true ∧ h.ethPayload true [] = none)
    ∧ (let s := laneEth; let h := s.north; s.Works .north ∧ h.logicalLane 0 = some 0 ∧ h.laneReceives 0 = true ∧ h.laneEth 0 = true ∧ h.laneLocked 0 = true ∧ h.laneDelivers 0 (ethOf ssf0) = true ∧ h.ethPayload true (ethOf ssf0) = some ssf0 ∧ crcGood ssf0 = true ∧ h.ssfFormatOk 0 ssf0 = true ∧ h.ssfRouteOk 0 ssf0 = true ∧ fieldAt ssf0 8 8 + 512 * 2 ^ bits (byteAt ssf0 7) 1 0 ≤ (h.frame + 2) * h.fspec * h.lin ∧ (h.inp 0).firstNew 0 512 = some 0)
    ∧ (gapInput.Works .north ∧ 0 < 256 ∧ (gapInput.north.inp 0).gaps = [⟨0, 512, 1⟩])
    ∧ (up.Works .south ∧ 31 < 32) :=
  by decide +kernel

/-- CHN of north runs, and input 0 holds the samples of spectrum 0. -/
def readyInput : State := upN (fun h => (h.fset CHN_CTL_RUN 1).setInp 0 (fun x => { x with opened := some 0, frontier := 32768, top := 32768 }))
/-- Spectrum `n` of input 0 was the last formed, with flags, and TAU is 4. -/
def flagInput (f : Inp → Inp) : State := upN (fun h => (h.fset CHN_PWR_CFG_TAU 4).setInp 0 f)
/-- The record of a spectrum. -/
def spec0 (ns : Int) : Spec := ⟨0, 0, [], [], 0, ns, 0, 0, true, 0, 0⟩

theorem witness_SpectrumAndFlags :
    (let s := readyInput; let h := s.north; s.Works .north ∧ h.inHold = false ∧ (h.dense 0).isSome = true ∧ h.spectrumReady (h.inp 0) 0 0 = true)
    ∧ (let s := flagInput (fun x => { x with warm := true, warmCnt := 16 }); let h := s.north; s.Works .north ∧ 0 < 256 ∧ (h.inp 0).warm = true ∧ (h.inp 0).warmCnt = 2 ^ h.tau)
    ∧ (let s := flagInput (fun x => { x with warm := false, rawRun := 16 }); let h := s.north; s.Works .north ∧ 0 < 256 ∧ (h.inp 0).warm = false ∧ 2 ^ h.tau ≤ (h.inp 0).rawRun)
    ∧ (let s := flagInput (fun x => { x with last := some 1025 }); let h := s.north; s.Works .north ∧ 0 < 256 ∧ (h.inp 0).last = some 1025 ∧ (0 + 1) * h.skm + (if h.powerFlagging (h.skSettings (h.inp 0) 0 0).2 then h.guardSpec else 0) ≤ 1025 + 1 ∧ SMap.find? (h.inp 0).sk 0 = none) :=
  by decide +kernel

theorem witness_ChannelizerRunAndTable :
    (let s := { up with south := sets [(CHN_CTL_RUN, 0, 1), (CHN_CFG_LCODE, 0, 2)] up.south }; s.Works .north ∧ s.north.flag CHN_CTL_RUN = false ∧ s.south.flag CHN_CTL_RUN = true ∧ (s.south.fget CHN_CFG_LCODE ≠ s.north.fget CHN_CFG_LCODE ∨ s.south.fget CHN_CFG_TAPS ≠ s.north.fget CHN_CFG_TAPS))
    ∧ (let s := { up with south := sets [(CHN_CTL_RUN, 0, 1)] up.south }; s.Works .north ∧ s.north.flag CHN_CTL_RUN = false ∧ (s.south.flag CHN_CTL_RUN = false ∨ (s.south.fget CHN_CFG_LCODE = s.north.fget CHN_CFG_LCODE ∧ s.south.fget CHN_CFG_TAPS = s.north.fget CHN_CFG_TAPS)))
    ∧ ((st [(CHN_CTL_RUN, 0, 1)]).Works .north ∧ (st [(CHN_CTL_RUN, 0, 1)]).north.flag CHN_CTL_RUN = true)
    ∧ (up.Works .north ∧ up.north.flag CHN_CTL_RUN = false) :=
  by decide +kernel

/-- DLY runs, the store has read up to 10, and spectrum `n` of input 0 stands with its flags. -/
def storeInput (n : Nat) (ns : Int) : State := upN (fun h =>
  let g := (sets [(DLY_CTL_RUN, 0, 1), (DEV_FRM_CFG_DEPTH, 0, 2)] h).setInp 0 (fun x => { x with specs := [(n, spec0 ns)], sk := [(0, [])] })
  { g with front := { g.front with rp := 10, rpEnd := 11 } })
/-- The hypotheses that the three clauses about a y-spectrum share. -/
abbrev Storable (s : State) (n : Nat) (ns : Int) : Prop := s.north.inHold = false ∧ SMap.find? (s.north.inp 0).specs n = some (spec0 ns)
  ∧ SMap.find? (s.north.inp 0).sk (n / s.north.skm) = some [] ∧ s.north.dense 0 = some 0 ∧ s.north.flag DLY_CTL_RUN = true ∧ (spec0 ns).storable = true

theorem witness_DelayStore :
    (let s := storeInput 10 0; s.Works .north ∧ Storable s 10 0 ∧ (s.north.front.rp : Int) ≤ (10 : Int) - 0 ∧ (10 : Int) - 0 < ((s.north.front.rp + s.north.storeRows : Nat) : Int))
    ∧ (storeInput 10 0).north.front.voidBelow ≤ ((10 : Int) - 0).toNat / (storeInput 10 0).north.fspec
    ∧ (let g := (storeInput 10 0).north; let s := { storeInput 10 0 with north := { g with front := { g.front with voidBelow := 1 } } }; s.Works .north ∧ Storable s 10 0 ∧ (s.north.front.rp : Int) ≤ (10 : Int) - 0 ∧ (10 : Int) - 0 < ((s.north.front.rp + s.north.storeRows : Nat) : Int) ∧ ((10 : Int) - 0).toNat / s.north.fspec < s.north.front.voidBelow)
    ∧ (let s := storeInput 10 1; s.Works .north ∧ Storable s 10 1 ∧ (10 : Int) - 1 < (s.north.front.rp : Int))
    ∧ (let s := storeInput 10 (-16384); s.Works .north ∧ Storable s 10 (-16384) ∧ (s.north.front.rp : Int) ≤ (10 : Int) - (-16384) ∧ ((s.north.front.rp + s.north.storeRows : Nat) : Int) ≤ (10 : Int) - (-16384))
    ∧ (let s := storeInput 10 0; s.Works .north ∧ s.north.inHold = false ∧ s.north.front.rp < s.north.front.rpEnd) :=
  by decide +kernel

theorem witness_DelayTables :
    (up.Works .north ∧ 255 < 256) :=
  by decide +kernel

/-- Two devices; exchange lane 0 of north is live and joins it to device 1, whose group is in state `x`. -/
def lanes0 (x : Nat) (f : Half → Half) : State := upN (fun h => f (sets [(XCH_CFG_MCODE, 0, 1), (XCH_CTL_RUN, 0, 1), (XCH_LANE_CFG_EN, 0, 1), (LAN_STAT_STATE, 32, 3),
  (XCH_LINK_STAT_0_STATE, 1, x)] h))
/-- A control block of a type from north of device `d`. -/
def ctl (type d : Nat) (body : List Byte) : List Byte := withCrc ([0x52, 0x4B] ++ leBytes 1 type ++ leBytes 1 d ++ body ++ List.replicate (24 - body.length) 0)
/-- The HELLO that agrees with the configuration of `lanes0`. -/
def helloGood : List Byte := ctl 2 1 (let h := (lanes0 2 id).north; h.helloConfig ++ [0, 0, 0, 0] ++ leBytes 2 h.depth)

/-- A HELLO on lane 0 that agrees in wiring, or in configuration. -/
abbrev Wired (h : Half) (bs : List Byte) : Prop := bits (byteAt bs 3) 3 0 = 1 ∧ bits (byteAt bs 3) 7 7 = halfBit h.id
abbrev Alike (h : Half) (bs : List Byte) : Prop := slice bs 4 8 = h.helloConfig ∧ fieldAt bs 16 2 = h.depth
/-- What keeps a group in HELD. -/
abbrev Stays (h : Half) : Prop := h.linkState 1 = xlHeld ∧ ((h.fget XCH_LINK_STAT_0_REASON 1 = 3 ∧ h.latencyOk 1 = false)
  ∨ (h.fget XCH_LINK_STAT_0_REASON 1 = 4 ∧ (h.link 1).tickOk = false))
/-- A HELLO of type 2 comes on the live lane 0 of `s`. -/
abbrev Hello (s : State) (bs : List Byte) : Prop := s.LiveLane .north 0 1 ∧ ctlOk 2 bs = true
/-- Lane 0 has latency `l` and `n` exchanges; lane 1 is live beside it with its sixteen. -/
def measured (x n : Nat) (l : Int) : State := lanes0 x (fun h =>
  ((sets [(XCH_LANE_CFG_EN, 1, 1), (LAN_STAT_STATE, 33, 3)] h).setXlane 0 (fun x => { x with cnt := n, lat := l })).setXlane 1 (fun x => { x with cnt := 16 }))
/-- 4 µs and 7 µs in 2^-16 ps. -/
def us4 : Int := 4 * 10 ^ 6 * 2 ^ 16
def us7 : Int := 7 * 10 ^ 6 * 2 ^ 16

theorem witness_ExchangeControlBlocks_links : ∀ (j : HalfId) (d : Nat), (((lanes0 5 id).half j).link d).queue = [] := fun j _ => by cases j <;> rfl

theorem witness_ExchangeControlBlocks :
    (lanes0 2 id).LiveLane .north 0 1
    ∧ ((lanes0 2 id).LiveLane .north 0 1 ∧ ctlOk 4 (ctl 4 1 []) = true)
    ∧ (let s := lanes0 5 (fun h => { h with xch := { h.xch with allot := 1 } }); s.LiveLane .north 0 1 ∧ (s.north.xlane 0).given + (s.north.xlane 0).waits < s.north.xch.allot)
    ∧ (let s := lanes0 2 id; let bs := ctl 2 2 []; Hello s bs ∧ ¬ Wired s.north bs)
    ∧ (let s := lanes0 2 id; let bs := ctl 2 0x81 []; Hello s bs ∧ ¬ Wired s.north bs)
    ∧ (let s := lanes0 2 id; let bs := ctl 2 1 []; Hello s bs ∧ Wired s.north bs ∧ ¬ Alike s.north bs)
    ∧ (let s := lanes0 2 id; Hello s helloGood ∧ Wired s.north helloGood ∧ Alike s.north helloGood ∧ s.north.linkState 1 = xlHello ∧ ¬ Stays s.north)
    ∧ (let s := lanes0 6 (fun h => h.fset XCH_LINK_STAT_0_REASON 2 1); Hello s helloGood ∧ Wired s.north helloGood ∧ Alike s.north helloGood ∧ s.north.linkState 1 = xlHeld ∧ ¬ Stays s.north)
    ∧ (let s := lanes0 6 (fun h => (h.fset XCH_LINK_STAT_0_REASON 3 1).setXlane 0 (fun x => { x with lat := us7 })); Hello s helloGood ∧ Wired s.north helloGood ∧ Alike s.north helloGood ∧ Stays s.north)
    ∧ (let s := lanes0 6 (fun h => (h.fset XCH_LINK_STAT_0_REASON 4 1).setLink 1 (fun x => { x with tickOk := false })); Hello s helloGood ∧ Wired s.north helloGood ∧ Alike s.north helloGood ∧ Stays s.north)
    ∧ (let s := lanes0 5 id; Hello s helloGood ∧ Wired s.north helloGood ∧ Alike s.north helloGood ∧ s.north.linkState 1 ≠ xlHello ∧ s.north.linkState 1 ≠ xlHeld)
    ∧ (let bs := ctl 3 1 [1]; let s := lanes0 2 id; s.LiveLane .north 0 1 ∧ ctlOk 3 bs = true ∧ xlHello ≤ s.north.linkState 1 ∧ fieldAt bs 4 6 ≠ s.north.frame)
    ∧ (let bs := ctl 3 1 [0]; let s := lanes0 2 id; s.LiveLane .north 0 1 ∧ ctlOk 3 bs = true ∧ xlHello ≤ s.north.linkState 1 ∧ fieldAt bs 4 6 = s.north.frame ∧ s.north.linkState 1 < xlReady)
    ∧ (let bs := ctl 3 1 [0]; let s := lanes0 5 (fun h => (h.fset XCH_CFG_OFS_THR 1).setXlane 0 (fun x => { x with lat := us7 })); let theta : Int := 0 - s.north.groupLat 1 / 2 ^ 16; s.LiveLane .north 0 1 ∧ ctlOk 3 bs = true ∧ fieldAt bs 4 6 = s.north.frame ∧ xlReady ≤ s.north.linkState 1 ∧ s.north.linkState 1 ≠ xlHeld ∧ s.north.fget XCH_CFG_OFS_THR ≠ 0 ∧ s.north.fget XCH_CFG_OFS_THR * 10000 < theta.natAbs ∧ 6 * 10 ^ 6 * 2 ^ 16 < s.north.groupLat 1)
    ∧ (let s := measured 3 14 0; s.LiveLane .north 0 1 ∧ ctlOk 5 (ctl 5 1 []) = true ∧ s.north.linkState 1 = xlMeasure ∧ (s.north.xlane 0).cnt < 15)
    ∧ (let s := measured 3 15 0; s.LiveLane .north 0 1 ∧ ctlOk 5 (ctl 5 1 []) = true ∧ s.north.linkState 1 = xlMeasure ∧ (s.north.xlane 0).cnt = 15 ∧ s.north.liveLanes 1 = [0, 1] ∧ ∀ m ∈ s.north.liveLanes 1, m ≠ 0 → (s.north.xlane m).cnt = 16)
    ∧ (let s := measured 5 1 us7; s.LiveLane .north 0 1 ∧ ctlOk 5 (ctl 5 1 []) = true ∧ xlMeasure < s.north.linkState 1 ∧ 0 < (s.north.xlane 0).cnt ∧ s.north.linkState 1 ≠ xlHeld ∧ us4 < us7 + (0 - us7) / 16)
    ∧ (let s := measured 6 1 0; s.LiveLane .north 0 1 ∧ ctlOk 5 (ctl 5 1 []) = true ∧ xlMeasure < s.north.linkState 1 ∧ 0 < (s.north.xlane 0).cnt)
    ∧ ((lanes0 5 id).LiveLane .north 0 1 ∧ ctlOk 6 (ctl 6 1 [3]) = true) :=
  by decide +kernel

/-- The block over the group to device 1 passes Table XCH-4 there (checks 1 to 3), and its frame has not been handed over. -/
abbrev Whole (h : Half) (bs : List Byte) : Prop := h.linkInService 1 = true ∧ crcGood bs = true ∧ h.blockFormatOk 1 bs = true ∧ h.xch.closed ≤ blkSigma bs / h.fspec
/-- A data block of spectrum 0, group 0, from the first input block of north of device 1. -/
def dataBlk : List Byte := withCrc ([0x52, 0x4B, 1, 1, 0, 0, 0, 0, 0, 0] ++ leBytes 1 ((lanes0 5 id).north.firstBlock 1 0) ++ List.replicate 13 0 ++ List.replicate 4096 0)

/-- The same block for half south. -/
def southBlk : List Byte := withCrc (putField (dataBlk.take 4120) 12 1 16)

theorem witness_CornerTurn :
    (let s := lanes0 5 id; let h := s.north; s.LiveLane .north 0 1 ∧ h.inHold = false ∧ Whole h dataBlk ∧ blkDstHalf dataBlk = halfBit .north ∧ 0 + h.depth ≤ h.frame ∧ blkSigma dataBlk / h.fspec = 0 ∧ (h.ctBuf 0).contains (h.ctKey dataBlk) = false)
    ∧ (let s := lanes0 5 id; s.LiveLane .north 0 1 ∧ s.north.carries 1 (blkSigma (dataBlk.take 100) / s.north.fspec) = true ∧ crcGood (dataBlk.take 100) = false)
    ∧ (let s := lanes0 4 (fun h => h.fset DEV_FRM_CFG_DEPTH 2); s.LiveLane .north 0 1 ∧ s.north.carries 1 (blkSigma dataBlk / s.north.fspec) = true)
    ∧ (let s := lanes0 6 id; s.LiveLane .north 0 1 ∧ s.north.carries 1 (blkSigma dataBlk / s.north.fspec) = false)
    ∧ (let s := lanes0 5 id; let h := s.north; s.LiveLane .north 0 1 ∧ Whole h southBlk ∧ blkDstHalf southBlk ≠ halfBit .north ∧ blkSigma southBlk / h.fspec ≤ h.frame ∧ s.board.bridgeUp = true ∧ s.south.mainUp = true ∧ h.xch.bridgeQ = [] ∧ s.south.bridgeRoom (southBlk.take 4120) = true)
    ∧ (let s := upN (fun h => (h.fset ARC_CTL_RUN 1).putN DEV_FRM_IDX_LO 1); let h := s.north; s.Works .north ∧ h.inHold = false ∧ h.delta ≤ h.frame ∧ h.xch.closed ≤ h.frame - h.delta ∧ h.xch.handed ≠ some (h.frame - h.delta) ∧ h.arcGoes = true) :=
  by decide +kernel

/-- The sequencer's place: frame 0, subarray 0, the first op. -/
def run0 : ArcRun := ⟨0, 0, 0, 0, 0, none, none, []⟩
/-- The sequencer at the same place with the stripe staged. -/
def run1 : ArcRun := { run0 with stripe := some 0 }
/-- The Arcade of north runs the program `ops` of subarray 0 and stands at its first op. -/
def arcSt (ops : List (List Nat)) (f : Half → Half) : State :=
  upN (fun h => f { sets [(ARC_CTL_RUN, 0, 1)] h with
    hist := [(ARC_SUB_PROG.at 0, [(0, BitVec.ofNat 32 (ops.length * 2 ^ 16))])]
    arc := { h.arc with prog := (ops.flatten.zipIdx.filter (fun e => e.1 != 0)).map (fun e => (e.2, BitVec.ofNat 32 e.1)), run := some run0 } })
/-- A program of one block: STAGE, CLOSE of slot 0. -/
def prog1 : List (List Nat) := [[0x20000000, 0x100, 0, 0], [0x50000000, 0, 1, 0]]
/-- A stripe of one block stands in the buffer of stripe 0. -/
def staged (h : Half) : Half := h.modArc (fun a => { a with run := some run1, stripe0 := some ⟨0, 512, 0, [0], 1⟩ })
/-- A pass of XT-64 over one sample for slot 0. -/
def pass0 (status : Nat) : Pass := ⟨[], 0, 0, 0, 0, 0, 0, 2, 1, 0, 0, [⟨0, 0, 0⟩], 1, 64, false, 0, 0, status, 0, 0, [], false, false, false⟩
def onBay (p : Pass) (h : Half) : Half := (sets [(ARC_BAY_STAT_LOGICAL, 0, 0)] h).modArc (fun a => { a with passes := [p], tags := [(0, 1)] })
/-- HBM of a half has one region of one granule row over pseudo-channel 0. -/
def region0 (h : Half) : Half :=
  let h := sets [(HBM_REGION_0_EN, 0, 1), (HBM_REGION_4_EXT, 0, 16)] h
  let h := h.putN HBM_REGION_2 16
  { h with hbm := { h.hbm with lays := [(0, [0])] } }
/-- A context image of no slots. -/
def ctxImage : List Byte := withCrc ([0x58, 0x43, 1, 0] ++ List.replicate 60 0)

theorem witness_SequencerOps :
    ((arcSt [[0, 0, 0, 0]] id).AtOp .north run0 .nop)
    ∧ (let s := arcSt [[0x80000000, 0, 0, 0]] id; s.AtOp .north run0 .sync ∧ s.north.arc.passes = [])
    ∧ ((arcSt [[0x90000001, 2, 0, 0], [0, 0, 0, 0]] id).AtOp .north run0 (.loop 1 2) ∧ 0 < 1 ∧ 0 < 2)
    ∧ ((arcSt [[0x90000001, 0, 0, 0], [0, 0, 0, 0]] id).AtOp .north run0 (.loop 1 0) ∧ (1 = 0 ∨ 0 = 0))
    ∧ ((arcSt [[0xF0000000, 0, 0, 0]] id).AtOp .north run0 .bad)
    ∧ (let s := arcSt [[0x10000001, 0, 1, 0x10000]] id; s.AtOp .north run0 (.open_ false 1 0 1 1 0) ∧ s.north.NoDrain ∧ s.north.drained (s.north.slotOf run0 false 0) 1 0 1 none = true ∧ s.north.released (s.north.slotOf run0 false 0) 1 = true)
    ∧ (let s := arcSt [[0x50000000, 0, 1, 0]] id; s.AtOp .north run0 (.close false 0 0 1) ∧ s.north.blockDrained run0 = true) :=
  by decide +kernel

theorem witness_PassesIssueAndDrain :
    (let s := arcSt [[0x20000000, 0x100, 0, 0]] id; s.AtOp .north run0 (.stage 0 1 0 0 0) ∧ s.north.NoDrain ∧ s.north.arc.passes.any (fun p => p.status < 2 && p.s % 2 == run0.iter % 2) = false)
    ∧ (let s := arcSt [[0x30100100, 0, 0x10000, 0]] (fun h => (staged h).modArc (fun a => { a with tags := [(0, 1)] })); let h := s.north; s.AtOp .north run1 (.xt 0 1 0 false false true 0 1 0 0) ∧ h.NoDrain ∧ h.curStripe run1 = some ⟨0, 512, 0, [0], 1⟩ ∧ h.flag ARC_CTL_SUSPEND = false ∧ (sweep true 1 0).length = 1 ∧ h.slotSuspect 0 = false ∧ h.recSuspect 0 = false ∧ SMap.getD h.arc.tags 0 0 = 1)
    ∧ (let s := arcSt [[0x30100100, 0, 0x10000, 0]] staged; let h := s.north; s.AtOp .north run1 (.xt 0 1 0 false false true 0 1 0 0) ∧ h.NoDrain ∧ h.curStripe run1 = some ⟨0, 512, 0, [0], 1⟩ ∧ h.flag ARC_CTL_SUSPEND = false ∧ h.slotSuspect 0 = false ∧ h.recSuspect 0 = false ∧ SMap.getD h.arc.tags 0 0 ≠ 1)
    ∧ (let s := arcSt [[0x40800000, 0, 0x100, 0]] (fun h => (staged h).modArc (fun a => { a with tabIn := some (0, 0) })); s.AtOp .north run1 (.bt 2 0 1 0) ∧ s.north.NoDrain ∧ s.north.curStripe run1 = some ⟨0, 512, 0, [0], 1⟩ ∧ s.north.flag ARC_CTL_SUSPEND = false ∧ s.north.tableIn 0 = true)
    ∧ (let p := pass0 1; let s := upN (onBay p); let h := s.north; s.Works .north ∧ h.inHold = false ∧ h.arc.contained = false ∧ h.passOn 0 = some p ∧ h.bayOf 0 = some 0 ∧ h.bayState 0 = bayActive ∧ h.arc.passes.any (fun x => 2 ≤ x.status && x.bay == 0) = false ∧ p.shape < 2 ∧ h.arc.passes = [p] ∧ h.slotHeld p.slot = false ∧ h.slotSuspect p.slot = false ∧ h.recSuspect p.trec = false ∧ SMap.getD h.arc.tags p.slot 0 = p.tag)
    ∧ (let p := { pass0 1 with shape := 2 }; let s := upN (onBay p); let h := s.north; s.Works .north ∧ h.inHold = false ∧ h.arc.contained = false ∧ h.passOn 0 = some p ∧ h.bayOf 0 = some 0 ∧ h.bayState 0 = bayActive ∧ h.arc.passes.any (fun x => 2 ≤ x.status && x.bay == 0) = false ∧ 2 ≤ p.shape ∧ h.arc.passes = [p] ∧ h.arc.hand.any (fun x => x.idx == h.arc.handNext) = false ∧ (h.groupsAhead p).all (fun n => p.winStart == 0 && p.grp ≤ n) = true)
    ∧ (let p := pass0 3; let s := upN (fun h => (onBay p h).fset TAL_SPILL_CFG_NREC 1); let h := s.north; s.Works .north ∧ h.arc.contained = false ∧ h.NoDrain ∧ h.arc.passes.find? (fun p => p.status == 3 && p.trec == 0) = some p ∧ h.spillFree p.blk = true ∧ h.spillArea.holds 0 = true)
    ∧ (let p := pass0 3; let s := upN (onBay p); let h := s.north; s.Works .north ∧ h.arc.contained = false ∧ h.NoDrain ∧ h.arc.passes.find? (fun p => p.status == 3 && p.trec == 0) = some p ∧ h.spillFree p.blk = true ∧ h.spillArea.holds 0 = false) :=
  by decide +kernel

theorem witness_Contexts :
    (let s := arcSt [[0x60000000, 0, 1, 0]] region0; s.AtOp .north run0 (.save false 0 false false 0 0 1 0) ∧ s.north.drained (s.north.slotOf run0 false 0) 1 0 0 none = true ∧ s.north.released (s.north.slotOf run0 false 0) 1 = true)
    ∧ (let s := arcSt [[0x70000000, 0, 0, 0]] (fun h => (region0 h).memWrite 0 ctxImage); let h := s.north; s.AtOp .north run0 (.restore false 0 false false 0 0 0 0) ∧ h.NoDrain ∧ h.drained (h.slotOf run0 false 0) 0 0 0 none = true ∧ h.released (h.slotOf run0 false 0) 0 = true ∧ fieldAt (h.memRead 0 64).1.1 0 2 = 0x4358 ∧ byteAt (h.memRead 0 64).1.1 2 = 1 ∧ imageLen (h.memRead 0 64).1.1 + 4 = 68 ∧ inHbm 0 68 = true ∧ ((h.memRead 0 64).2.memRead 0 68).1.2 = false ∧ crcGood ((h.memRead 0 64).2.memRead 0 68).1.1 = true)
    ∧ (let s := arcSt [[0x70000000, 0, 1, 0]] region0; let h := s.north; s.AtOp .north run0 (.restore false 0 false false 0 0 1 0) ∧ h.NoDrain ∧ h.drained (h.slotOf run0 false 0) 1 0 0 none = true ∧ h.released (h.slotOf run0 false 0) 1 = true ∧ fieldAt (h.memRead 0 64).1.1 0 2 ≠ 0x4358)
    ∧ (let s := arcSt [[0x70000002, 0, 0, 0]] (fun h => ((onBay (pass0 1) (region0 h)).fset ARC_BAY_STAT_STATE 4 0).memWrite 0 ctxImage); let h := s.north; s.AtOp .north run0 (.restore false 0 true false 0 0 0 0) ∧ h.NoDrain ∧ h.drained (h.slotOf run0 false 0) 0 0 0 (some 0) = true ∧ h.released (h.slotOf run0 false 0) 0 = true ∧ fieldAt (h.memRead 0 64).1.1 0 2 = 0x4358)
    ∧ (let s := arcSt [[0x70000000, 0, 0, 0]] (fun h => (region0 h).memWrite 0 (putField ctxImage 5 1 1)); let h := s.north; s.AtOp .north run0 (.restore false 0 false false 0 0 0 0) ∧ h.NoDrain ∧ h.drained (h.slotOf run0 false 0) 0 0 0 none = true ∧ h.released (h.slotOf run0 false 0) 0 = true ∧ fieldAt (h.memRead 0 64).1.1 0 2 = 0x4358 ∧ byteAt (h.memRead 0 64).1.1 2 = 1 ∧ inHbm 0 68 = true ∧ crcGood ((h.memRead 0 64).2.memRead 0 68).1.1 = false) :=
  by decide +kernel

theorem witness_BaysAndStops :
    (let s := st [(ARC_BAY_STAT_STATE, 65, 3)]; s.Works .north ∧ s.north.arc.contained = false ∧ 65 < 66 ∧ 7 < 8 ∧ s.north.bayState 65 = bayFailed)
    ∧ (let s := st [(ARC_BAY_STAT_STATE, 0, 2)]; s.Works .north ∧ s.north.arc.contained = false ∧ s.north.bayState 0 = bayFenced ∧ s.north.arc.fenced.contains 0 = false)
    ∧ (let s := upN (fun h => (h.fset ARC_BAY_STAT_STATE 2 0).modArc (fun a => { a with fenced := [0] })); s.Works .north ∧ s.north.arc.contained = false ∧ s.north.bayState 0 = bayFenced ∧ s.north.arc.fenced.contains 0 = true)
    ∧ (let s := upN (fun h => (onBay (pass0 1) h).modArc (fun a => { a with lastDrain := [(0, ([3], [4]))] })); let h := s.north; s.Works .north ∧ h.arc.contained = false ∧ h.NoDrain ∧ h.bayState 0 ≠ bayFailed ∧ h.bayState 0 ≠ bayFenced ∧ SMap.find? h.arc.lastDrain (h.bayLogical 0) = some ([3], [4]))
    ∧ (up.Works .north ∧ up.north.arc.contained = false ∧ up.north.NoDrain)
    ∧ (let p := pass0 1; let s := upN (fun h => sets [(ARC_DBG_HALT, 0, 1)] (onBay p h)); let h := s.north; s.Works .north ∧ h.arc.contained = false ∧ h.flag ARC_DBG_HALT = true ∧ h.passOn (h.fget ARC_DBG_BAY) = some p ∧ h.bayOf (h.fget ARC_DBG_BAY) = some 0 ∧ h.fget ARC_DBG_AT < p.len ∧ p.start ≤ p.posAt (h.fget ARC_DBG_AT) ∧ p.exempt = false ∧ h.bayState 0 = bayActive)
    ∧ (up.north.progLocked (up.north.fget ARC_PROG_ADDR_ADDR / 4) = false)
    ∧ (let s := st [(ARC_CTL_RUN, 0, 1), (ARC_SUB_PROG_LEN, 0, 1)]; s.Works .north ∧ s.north.arc.contained = false ∧ s.north.progLocked (s.north.fget ARC_PROG_ADDR_ADDR / 4) = true)
    ∧ (let s := arcSt prog1 (fun h => h.putN DEV_FRM_IDX_LO 100); let h := s.north; s.Works .north ∧ h.arc.run = some run0 ∧ run0.frame + h.delta + 1 ≤ h.frame ∧ (h.allBlocks run0.frame).any (fun x => !run0.closed.contains (x.1, x.2.1 * (h.plan x.1 run0.frame).blocks.length + x.2.2.1)) = true)
    ∧ (let s := arcSt [[0, 0, 0, 0]] id; s.Works .north ∧ s.north.arc.run = some run0 ∧ s.north.flag ARC_CTL_RUN = true) :=
  by decide +kernel

def block0 : Block := ⟨0, 0, 0, 0, 0, 0, 1, [], false, ⟨0, 0, 0⟩, false⟩
/-- That block is with the folder. -/
def folding : State := arcSt prog1 (fun h => (sets [(LTA_CTL_RUN, 0, 1)] h).modLta (fun x => { x with blocks := [block0] }))
def pblock0 : PBlock := ⟨0, 0, 1, false, false, []⟩
/-- A hand-off slot of the first window. -/
def handed (h : Half) : Half := { sets [(BMF_CTL_RUN, 0, 1)] h with arc := { h.arc with hand := [⟨0, 0, 0, 0, 0, 0, 0, 0, 2⟩] } }
/-- Feed 15 of north is in state `x`; σ of a TRIGGERED feed is 0. -/
def feedIn (x : Nat) : State := upN (fun h => (sets [(CAP_FSTAT_0_STATE, 15, x), (CAP_FEED_1_NQ, 15, 1), (CAP_FEED_5_TRIGSRC, 15, 1023), (CAP_FEED_2_NCH, 15, 64)] h).setCap 15 (fun c => { c with trig := some 0 }))
/-- Ring `r` of north has the context bytes `c` in the cache, with engine state `e`. -/
def ringSt (r : Nat) (c : List Byte) (e : RingEng) : State := upN (fun h => { region0 h with trw := { h.trw with lru := [r], ctx := [(r, c)], eng := [(r, e)] } })
/-- A context in ring state `x`, with byte 8 bits `o` besides. -/
def ctxIn (x o : Nat) : List Byte := putField (List.replicate 96 0) 8 1 (x * 64 + o)
/-- A descriptor of 64 bytes without (0) and with END (128) at the head of HBM. -/
def descAt (b : Nat) (s : State) : State := { s with north := s.north.memWrite 0 (putField (putField (List.replicate 32 0) 24 4 64) 7 1 b) }
def gram0 : Datagram := ⟨0, [], [], 0, 0, .none, 0, 0, 0⟩
def eng0 (held : Option Datagram) (last : Option Nat) : RingEng := { RingEng.reset with held := held, last := last }

theorem witness_Folder :
    (let h := folding.north; let p := h.plan 0 0; let g := (h.partials block0 pblock0).2; let ps := (h.partials block0 pblock0).1.1; folding.Works .north ∧ h.inHold = false ∧ h.flag LTA_CTL_RUN = true ∧ h.lta.blocks = [block0] ∧ p.blocks[h.placeOf block0]? = some pblock0 ∧ block0.bad = false ∧ (List.range 1).any (fun n => h.slotSuspect (0 + n)) = false ∧ (pblock0.tiles.map (·.trec)).any h.recSuspect = false ∧ h.arc.contained = false ∧ (h.partials block0 pblock0).1.2 = false ∧ block0.spillLost = false ∧ ps.all (fun x => x.cells.all (h.cellOk p.fg)) = true ∧ (g.foldAll 0 0 0 p pblock0 ps).1 = none ∧ (∀ x ∈ h.integsOf 0 0, x.last ≠ 0))
    ∧ (let s := { folding with north := folding.north.modArc (fun a => { a with suspect := [0] }) }; let h := s.north; s.Works .north ∧ h.inHold = false ∧ h.flag LTA_CTL_RUN = true ∧ h.lta.blocks = [block0] ∧ (h.plan 0 0).blocks[h.placeOf block0]? = some pblock0 ∧ h.slotSuspect 0 = true ∧ h.arc.contained = false)
    ∧ (let s := arcSt prog1 (fun h => (h.modLta (fun x => { x with blocks := [block0] })).putN DEV_FRM_IDX_LO 100); s.Works .north ∧ s.north.arc.contained = false ∧ s.north.lta.blocks.any (fun b => b.frame + s.north.delta + 2 ≤ s.north.frame) = true)
    ∧ (let s := upN (fun h => { h with trw := { h.trw with outDue := [(0, 0)] } }); s.Works .north ∧ s.north.trw.outDue.any (fun e => e.2 ≤ s.north.frame) = true)
    ∧ (folding.Works .north ∧ folding.north.arc.contained = false ∧ folding.north.flag LTA_CTL_RUN = true) :=
  by decide +kernel

theorem witness_BeamTables :
    (up.Works .north ∧ up.north.flag BMF_TAB_2_COPY (up.north.fget BMF_TADDR_SUB) = false)
    ∧ (let s := st [(BMF_TAB_2_COPY, 0, 1)]; s.Works .north ∧ s.north.flag BMF_TAB_2_COPY (s.north.fget BMF_TADDR_SUB) = true)
    ∧ (let s := st [(BMF_TAB_2_COPY, 15, 1)]; s.Works .north ∧ 15 < 16 ∧ s.north.flag BMF_TAB_2_COPY 15 = true ∧ s.north.bmf.tabLate = [])
    ∧ (up.Works .north ∧ 15 < 16 ∧ up.north.inHold = false ∧ up.north.tableIn 15 = false) :=
  by decide +kernel

theorem witness_BeamSamples :
    (let s := upN handed; s.Works .north ∧ s.north.arc.contained = false ∧ s.north.NoDrain ∧ s.north.inHold = false ∧ s.north.flag BMF_CTL_RUN = true ∧ s.north.arc.hand = [⟨0, 0, 0, 0, 0, 0, 0, 0, 2⟩])
    ∧ (let s := upN (fun h => (handed h).putN DEV_FRM_IDX_LO 100); s.Works .north ∧ s.north.arc.contained = false ∧ s.north.delta + 2 ≤ s.north.frame) :=
  by decide +kernel

theorem witness_CaptureArmAndTrigger :
    (let s := feedIn 0; s.Works .north ∧ 15 < 16 ∧ s.north.capState 15 ≠ capReading ∧ s.north.capRangeOk 15 = true)
    ∧ (let s := feedIn 4; s.Works .north ∧ 15 < 16 ∧ (s.north.capState 15 = capReading ∨ s.north.capRangeOk 15 = false))
    ∧ (let s := st [(CAP_FEED_1_NQ, 15, 0)]; s.Works .north ∧ 15 < 16 ∧ (s.north.capState 15 = capReading ∨ s.north.capRangeOk 15 = false))
    ∧ (let s := feedIn 1; s.Works .north ∧ 15 < 16 ∧ s.north.capState 15 = capArmed ∧ s.north.fget CAP_FEED_5_TRIGSRC 15 < 1024)
    ∧ (up.Works .north ∧ 15 < 16 ∧ up.north.capState 15 ≠ capArmed) :=
  by decide +kernel

theorem witness_CaptureFreezeAndRead :
    (let s := feedIn 2; s.Works .north ∧ 15 < 16 ∧ s.north.capState 15 = capTriggered)
    ∧ (let s := feedIn 1; s.Works .north ∧ 15 < 16 ∧ s.north.capState 15 = capArmed ∧ s.north.capWriting 15 = true ∧ (s.north.cap 15).lastSpec = [])
    ∧ (let s := feedIn 5; s.Works .north ∧ 15 < 16 ∧ s.north.capState 15 = capStreaming ∧ s.north.capState 15 ≠ capIdle ∧ s.north.capState 15 ≠ capReading)
    ∧ (let s := upN (fun _ => (feedIn 2).north.putN DEV_FRM_IDX_LO 100); s.Works .north ∧ 15 < 16 ∧ s.north.capState 15 = capTriggered ∧ (s.north.cap 15).trig = some 0 ∧ s.north.capBound 15 0 ≤ s.north.frame)
    ∧ (let s := feedIn 3; s.Works .north ∧ 15 < 16 ∧ s.north.capState 15 = capFrozen ∧ s.north.capWriting 15 = false)
    ∧ (let s := upN (fun _ => ((feedIn 1).north.fset CAP_FEED_1_NQ 3 15).setCap 15 (fun c => { c with lastSpec := [(0, 5)] })); let h := s.north; s.Works .north ∧ h.capWriting 15 = true ∧ (h.cap 15).lastSpec ≠ [] ∧ (h.capInputs 15).all (fun q => (SMap.find? (h.cap 15).lastSpec q).any (5 ≤ ·)) = false)
    ∧ (let s := feedIn 0; s.Works .north ∧ s.north.capState 15 = capIdle)
    ∧ (let s := feedIn 4; s.Works .north ∧ 15 < 16 ∧ s.north.capState 15 = capReading ∧ (s.north.cap 15).outs = [] ∧ (s.north.cap 15).releasing = false)
    ∧ (let s := upN (fun _ => let h := (feedIn 4).north.setCap 15 (fun c => { c with outs := [(headerStage, 0, 1)] })
         { h with trw := { h.trw with eng := [(0, { RingEng.reset with held := some { gram0 with descs := [⟨0, false, false, 0, 0, headerStage, 64, 0⟩] } })] } }); let h := s.north; s.Works .north ∧ h.capState 15 = capReading ∧ (h.cap 15).outs.any (fun e => (h.eng (stageRing e.1)).held.any (fun d => d.descs.any (fun x => x.src == e.1))) = true) :=
  by decide +kernel

theorem witness_RingCommands_served : 1 ∈ (ringSt 0 (ctxIn 1 0) (eng0 none none)).north.ringsServed := List.mem_map.mpr ⟨1, List.mem_range.mpr (by decide), rfl⟩
theorem witness_RingCommands_cached (c : List Byte) (e : RingEng) : ∀ r, (SMap.find? (ringSt 0 c e).north.trw.ctx r).isSome = true → ∃ x ∈ (ringSt 0 c e).north.trw.eng, x.1 = r := by
  intro r h
  refine ⟨(0, e), List.mem_cons_self .., ?_⟩
  by_cases hr : (0 : Nat) = r
  · exact hr
  · exfalso; simp only [ringSt, upN, SMap.find?] at h
    rcases Nat.eq_zero_or_pos r with h0 | h0
    · exact hr h0.symm
    · simp [Nat.ne_of_gt h0] at h

theorem witness_RingCommands :
    (let s := ringSt 524287 (ctxIn 0 0) (eng0 none none); let c := s.north.ctx 524287; s.Works .north ∧ 524287 < 2 ^ 20 ∧ ringHalf 524287 = s.north.id ∧ ctxOwner c = false ∧ (SMap.find? s.north.trw.ctx 524287).isSome = true ∧ ctxState c = ringIdle)
    ∧ (let s := ringSt 0 (ctxIn 1 0) (eng0 none none); let c := s.north.ctx 0; s.Works .north ∧ ringHalf 0 = s.north.id ∧ ctxOwner c = false ∧ (SMap.find? s.north.trw.ctx 0).isSome = true ∧ ctxState c = ringRunning)
    ∧ (let s := ringSt 0 (ctxIn 3 0) (eng0 none none); let c := s.north.ctx 0; s.Works .north ∧ ringHalf 0 = s.north.id ∧ ctxOwner c = false ∧ (SMap.find? s.north.trw.ctx 0).isSome = true ∧ ctxState c = ringStopped)
    ∧ (let s := descAt 0 (ringSt 0 (ctxIn 2 0) (eng0 none none)); let c := s.north.ctx 0; let d := (s.north.memRead (fieldAt c 0 8) 32).1; s.Works .north ∧ ringHalf 0 = s.north.id ∧ ctxOwner c = false ∧ (SMap.find? s.north.trw.ctx 0).isSome = true ∧ ctxState c = ringParked ∧ d.2 = false ∧ descBad false d.1 = false ∧ bit (fieldAt d.1 0 8) 63 = false)
    ∧ (let s := descAt 128 (ringSt 0 (ctxIn 2 0) (eng0 none none)); let c := s.north.ctx 0; let d := (s.north.memRead (fieldAt c 0 8) 32).1; s.Works .north ∧ ringHalf 0 = s.north.id ∧ ctxOwner c = false ∧ (SMap.find? s.north.trw.ctx 0).isSome = true ∧ ctxState c = ringParked ∧ d.2 = false ∧ descBad false d.1 = false ∧ bit (fieldAt d.1 0 8) 63 = true)
    ∧ (let c := up.north.ctx 7; up.Works .north ∧ 7 < 2 ^ 20 ∧ ringHalf 7 = up.north.id ∧ ctxOwner c = false ∧ SMap.find? up.north.trw.ctx 7 = none ∧ ctxState c ≠ ringStopped)
    ∧ (up.Works .north ∧ 524288 < 2 ^ 20 ∧ ringHalf 524288 ≠ up.north.id)
    ∧ (let s := ringSt 0 (ctxIn 0 8) (eng0 none none); s.Works .north ∧ ringHalf 0 = s.north.id ∧ ctxOwner (s.north.ctx 0) = true)
    ∧ (let s := ringSt 0 (ctxIn 2 0) (eng0 none none); let c := s.north.ctx 0; s.Works .north ∧ ringHalf 0 = s.north.id ∧ ctxOwner c = false ∧ (SMap.find? s.north.trw.ctx 0).isSome = true ∧ ctxState c = ringParked ∧ descBad false (s.north.memRead (fieldAt c 0 8) 32).1.1 = true ∧ c.length = ctxBytes)
    ∧ (let s := ringSt 0 (ctxIn 2 0) (eng0 none none); let g := s.north.ctxLoad 0; s.Works .north ∧ ringHalf 0 = s.north.id ∧ (ctxState (g.ctx 0) = ringIdle ∨ ctxState (g.ctx 0) = ringParked) ∧ (g.eng 0).held = none ∧ ctxState (g.ctx 0) ≠ ringStopped)
    ∧ (let s := ringSt 0 (ctxIn 1 0) (eng0 none (some 64)); let g := s.north.ctxLoad 0; s.Works .north ∧ ringHalf 0 = s.north.id ∧ ctxState (g.ctx 0) = ringRunning ∧ (g.eng 0).held = none ∧ (g.eng 0).last = some 64)
    ∧ (let s := ringSt 0 (ctxIn 1 0) (eng0 (some gram0) none); let g := s.north.ctxLoad 0; s.Works .north ∧ ringHalf 0 = s.north.id ∧ ctxState (g.ctx 0) = ringRunning ∧ (g.eng 0).held = some gram0)
    ∧ (let s := ringSt 0 (ctxIn 3 0) (eng0 none none); let g := s.north.ctxLoad 0; s.Works .north ∧ ringHalf 0 = s.north.id ∧ ctxState (g.ctx 0) = ringStopped ∧ ctxPosmode (g.ctx 0) = 0)
    ∧ (let s := descAt 128 (ringSt 0 (setPos (ctxIn 3 0) 0 1) (eng0 none none)); let g := s.north.ctxLoad 0; let c := g.ctx 0; let d := (g.memRead (fieldAt c 0 8) 32).1; s.Works .north ∧ ringHalf 0 = s.north.id ∧ ctxState c = ringStopped ∧ ctxPosmode c = 1 ∧ c.length = ctxBytes ∧ d.2 = false ∧ descBad (ctxOwner c) d.1 = false)
    ∧ (let s := ringSt 0 (ctxIn 1 0) (eng0 none none); s.Works .north ∧ s.north.trw.eng.map (·.1) = [0] ∧ (s.north.eng 0).held = none ∧ (∀ e ∈ s.north.trw.eng, (SMap.find? s.north.trw.ctx e.1).isSome = true ∧ (s.north.ctx e.1).length = ctxBytes) ∧ 1 ∉ s.north.trw.eng.map (·.1) ∧ (s.north.addrPcs (s.north.ctxAddr 1)).any s.north.pcLive = true)
    ∧ (let s := ringSt 0 (ctxIn 1 0) (eng0 (some gram0) none); (∀ e ∈ s.north.trw.eng, (SMap.find? s.north.trw.ctx e.1).isSome = true ∧ (s.north.ctx e.1).length = ctxBytes) ∧ (s.north.eng 0).held.isSome = true ∧ ctxState (s.north.ctx 0) ≠ ringStopped) :=
  by decide +kernel

theorem witness_ContextWindowAndLanes :
    (let s := ringSt 0 (ctxIn 3 0) (eng0 none none); let r := s.north.fget TRW_CTX_SEL_RING; s.Works .north ∧ 31 < 32 ∧ ringHalf r = s.north.id ∧ ctxState ((s.north.ctxLoad r).ctx r) = ringStopped)
    ∧ (let s := ringSt 0 (ctxIn 0 0) (eng0 none none); let r := s.north.fget TRW_CTX_SEL_RING; let c := (s.north.ctxLoad r).ctx r; s.Works .north ∧ ringHalf r = s.north.id ∧ ctxRate c = 0 ∧ (fieldAt c 12 4 &&& (0xFFFFFFFF ^^^ ctxMask 3)) ||| ((1 : Word).toNat &&& ctxMask 3) ≠ 0)
    ∧ (let s := ringSt 0 (putField (ctxIn 0 0) 12 4 1) (eng0 none none); let r := s.north.fget TRW_CTX_SEL_RING; s.Works .north ∧ ringHalf r = s.north.id ∧ ctxRate ((s.north.ctxLoad r).ctx r) ≠ 0)
    ∧ (let s := ringSt 0 (ctxIn 1 0) (eng0 none none); let r := s.north.fget TRW_CTX_SEL_RING; let c := (s.north.ctxLoad r).ctx r; s.Works .north ∧ ringHalf r = s.north.id ∧ ctxState c = ringRunning ∧ ((1 : Word).toNat ^^^ fieldAt c (4 * 6) 4) &&& ctxMask 6 &&& (0xFFFFFFFF ^^^ ctxLiveMask 6) ≠ 0)
    ∧ (let s := st [(TRW_CTX_SEL_RING, 0, 524288)]; s.Works .north ∧ ringHalf (s.north.fget TRW_CTX_SEL_RING) ≠ s.north.id)
    ∧ (let s := st [(OUT_CTL_RUN, 0, 1), (LAN_STAT_STATE, 52, 3)]; s.Works .north ∧ 4 < 5 ∧ s.north.flag OUT_CTL_RUN = true ∧ s.north.laneUp 52 = true ∧ s.north.laneClear 52 ∧ s.north.flag OUT_CTL_PMODE = false)
    ∧ (let s := st ((OUT_CTL_RUN, 0, 1) :: (OUT_CTL_PMODE, 0, 1) :: (List.range 4).map (fun m => (LAN_STAT_STATE, 48 + m, 3))); s.Works .north ∧ s.north.flag OUT_CTL_RUN = true ∧ s.north.laneUp 48 = true ∧ s.north.laneClear 48 ∧ s.north.flag OUT_CTL_PMODE = true ∧ ∀ m, m < 4 → s.north.laneUp (48 + m) = true)
    ∧ (let s := upN (fun h => let h := sets [(OUT_MAP_MAP, 0, 0x3210)] h; { h with trw := { h.trw with fifo := [(0, [⟨0, 84, []⟩])] } }); let h := s.north; s.Works .north ∧ h.sendLane 0 = some 0 ∧ h.fifo 0 ≠ [] ∧ ∀ m, m < 4 → m ≠ 0 → (h.sendLane m).getD 0 ≠ 0 ∨ h.fifo m = []) :=
  by decide +kernel

/-- A datagram of one descriptor, 8 bytes from address 64, at the head of HBM. -/
def descBytes : List Byte := List.replicate 8 0 ++ leBytes 8 32 ++ leBytes 8 64 ++ leBytes 8 8
def exec0 : Executed := ⟨0, false, false, 0, 32, 64, 8, 0⟩
def gram1 (status : Nat) : Datagram := ⟨0, [⟨0, false, false, 0, 32, 64, 8, 0⟩], List.replicate 8 0, 0xFFFFFFFF, status, .none, 0, 0, 0⟩
/-- Output lane 0 has its link and may send ring 0 of north, which is RUNNING; byte 7 of its descriptor is `b`. -/
def sendingOf (b : Nat) (held : Option Datagram) : State :=
  let s := ringSt 0 (ctxIn 1 0) { eng0 held none with en := true, sentAt := some 96 }
  { s with north := sets [(TRW_CTL_RUN, 0, 1), (OUT_CTL_RUN, 0, 1), (OUT_MAP_MAP, 0, 0x3210), (OUT_LANE_STAT_0_UP, 0, 1)] (s.north.memWrite 0 (putField descBytes 7 1 b)) }
def sending (held : Option Datagram) : State := sendingOf 0 held
/-- The half once ring 0 is taken up on lane 0 at time 9. -/
def taken0 (h : Half) : Half :=
  let g := (h.ctxLoad 0).takeBell 0
  { g with trw := { g.trw with served := SMap.insert g.trw.served 0 0, clock := max g.trw.clock 9 } }

/-- Serial lane `lam` of north is in state `x`. -/
def lane (lam x : Nat) (l : List (Fld × Nat × Nat)) : State := st ([(LAN_STAT_STATE, lam, x)] ++ l)
def laneRec (lam : Nat) (s : State) (r : Lane) : State := { s with north := s.north.setLane lam (fun _ => r) }
/-- An LM block from far lane 5 with RF at 1. -/
def lmBlock : List Byte := let b : List Byte := [0xAA, 5, 1, 0, 0, 0, 0]; b ++ [BitVec.ofNat 8 (crc8 b)]

theorem witness_GrantAndSend :
    (let s := sending none; let h := s.north; let g := taken0 h; s.Works .north ∧ h.flag TRW_CTL_RUN = true ∧ h.inHold = false ∧ h.outLaneUp 0 = true ∧ h.fifoRoom 0 = true ∧ h.fget TRW_STAT_0_BUSY < 64 ∧ h.pickRing 0 9 = some (0, 0, true) ∧ ctxState (g.ctx 0) = ringRunning ∧ (g.nextGram 0 0).1 = .gram (gram1 0))
    ∧ (let s := sendingOf 0xC0 none; let h := s.north; let g := taken0 h; s.Works .north ∧ h.flag TRW_CTL_RUN = true ∧ h.inHold = false ∧ h.outLaneUp 0 = true ∧ h.fifoRoom 0 = true ∧ h.fget TRW_STAT_0_BUSY < 64 ∧ h.pickRing 0 9 = some (0, 0, true) ∧ ctxState (g.ctx 0) = ringRunning ∧ (g.nextGram 0 0).1 = .short)
    ∧ (let s := sending (some (gram1 0)); let h := s.north; s.Works .north ∧ (h.eng 0).held = some (gram1 0) ∧ (gram1 0).status = 0 ∧ (h.eng 0).stopAsked = false ∧ (gram1 0).descs.getLast? = some exec0 ∧ (∀ x ∈ (gram1 0).descs, x.notify = false ∧ x.ended = false ∧ x.src < headerStage))
    ∧ (let e := { exec0 with ended := true }; let d := { gram1 0 with descs := [e] }; let s := sending (some d); let h := s.north; s.Works .north ∧ (h.eng 0).held = some d ∧ d.status = 0 ∧ (h.eng 0).stopAsked = false ∧ e.ended = true ∧ e.notify = false ∧ e.src < headerStage ∧ ctxDbpend (incField (h.ctx 0) 76 d.descs.length) = false ∧ (h.ctx 0).length = ctxBytes ∧ ctxCcode (h.ctx 0) = 0)
    ∧ (let e := { exec0 with ended := true }; let d := { gram1 0 with descs := [e] }; let s := upN (fun _ => (sending (some d)).north.setCtx 0 (putField (ctxIn 1 0) 57 1 4)); let h := s.north; s.Works .north ∧ (h.eng 0).held = some d ∧ d.status = 0 ∧ (h.eng 0).stopAsked = false ∧ ctxDbpend (incField (h.ctx 0) 76 d.descs.length) = false ∧ (h.ctx 0).length = ctxBytes ∧ ctxCcode (h.ctx 0) ≠ 0)
    ∧ (let s := sending (some (gram1 2)); let h := s.north; s.Works .north ∧ (h.eng 0).held = some (gram1 2) ∧ (gram1 2).status = 2 ∧ (h.ctx 0).length = ctxBytes ∧ (h.eng 0).sentAt = some 96)
    ∧ (let s := sending (some (gram1 3)); let h := s.north; s.Works .north ∧ (h.eng 0).held = some (gram1 3) ∧ (gram1 3).status = 3 ∧ (h.ctx 0).length = ctxBytes) :=
  by decide +kernel

/-- Whatever the limits of a tap, a step from 0 passes one or keeps both. -/
theorem witness_LaneComesUp_taps (lim : Int × Int) : ((1 : Int) < lim.1 ∨ lim.2 < 1) ∨ (lim.1 ≤ 1 ∧ (1 : Int) ≤ lim.2) := by omega

theorem witness_LaneComesUp :
    (up.Works .north ∧ 5 < 54 ∧ up.north.lanState 5 = lanOff ∧ up.north.laneIdle 5 = false)
    ∧ (up.Works .north ∧ 47 < 54 ∧ up.north.lanState 47 = lanOff ∧ up.north.laneIdle 47 = true)
    ∧ ((lane 0 3 []).Works .north ∧ 0 < 54 ∧ (lane 0 3 []).north.lanState 0 ≠ lanOff)
    ∧ (let s := lane 48 1 [(LAN_CFG_AN_EN, 48, 1), (LAN_CFG_TRAIN_EN, 48, 0)]; s.Works .north ∧ s.north.lanState 48 = lanTraining ∧ s.north.flag LAN_CFG_AN_EN 48 = true ∧ s.north.flag LAN_CFG_TRAIN_EN 48 = false)
    ∧ ((lane 53 2 []).Works .north ∧ (lane 53 2 []).north.lanState 53 = lanAligning)
    ∧ (let s := lane 53 5 [(LAN_STAT_CAUSE, 53, 1)]; s.Works .north ∧ s.north.lanState 53 = lanFault ∧ s.north.fget LAN_STAT_CAUSE 53 ≠ 7 ∧ s.north.fget LAN_STAT_CAUSE 53 ≠ 8)
    ∧ (let s := laneRec 0 (lane 0 2 [(LAN_CFG_AUTO_RETRAIN, 0, 1), (LAN_CFG_TRAIN_EN, 0, 1)]) { Lane.reset with lmRf := 0, relock := true, injLeft := none }; let h := s.north; s.Works .north ∧ h.lanState 0 = lanAligning ∧ (h.lane 0).relock = true ∧ h.flag LAN_CFG_AUTO_RETRAIN 0 = true ∧ (h.flag LAN_CFG_TRAIN_EN 0 || h.flag LAN_CFG_AN_EN 0) = true)
    ∧ (let s := laneRec 0 (lane 0 2 [(LAN_CFG_AUTO_RETRAIN, 0, 0)]) { Lane.reset with lmRf := 0, relock := true, injLeft := none }; s.Works .north ∧ s.north.lanState 0 = lanAligning ∧ (s.north.lane 0).relock = true ∧ s.north.flag LAN_CFG_AUTO_RETRAIN 0 = false)
    ∧ (let s := lane 0 5 [(LAN_STAT_CAUSE, 0, 7), (LAN_CFG_AUTO_RETRAIN, 0, 1), (LAN_CFG_TRAIN_EN, 0, 1)]; let h := s.north; s.Works .north ∧ h.lanState 0 = lanFault ∧ (h.fget LAN_STAT_CAUSE 0 = 7 ∨ h.fget LAN_STAT_CAUSE 0 = 8) ∧ h.flag LAN_CFG_AUTO_RETRAIN 0 = true ∧ (h.flag LAN_CFG_TRAIN_EN 0 || h.flag LAN_CFG_AN_EN 0) = true) :=
  by decide +kernel

theorem witness_LaneFaults :
    (let s := lane 53 3 []; s.Works .north ∧ 53 < 54 ∧ (s.north.laneUp 53 = true ∨ s.north.lanState 53 = lanAligning))
    ∧ (let s := lane 0 3 []; s.Works .north ∧ s.north.laneUp 0 = true ∧ s.north.lanMode 0 ≠ 2)
    ∧ (let s := lane 0 3 []; s.Works .north ∧ s.north.lanMode 0 = 0 ∧ lmBlock.length = 8 ∧ byteAt lmBlock 0 = 0xAA ∧ crc8 (lmBlock.take 7) = byteAt lmBlock 7 ∧ bit (byteAt lmBlock 2) 0 = true ∧ s.north.lanState 0 ≠ lanOff ∧ s.north.lanState 0 ≠ lanTraining ∧ (s.north.lane 0).lmRf = 0)
    ∧ (let s := laneRec 0 (lane 0 4 []) { Lane.reset with lmRf := 1, relock := false, injLeft := none }; s.Works .north ∧ s.north.lanMode 0 = 0 ∧ s.north.lanState 0 ≠ lanOff ∧ s.north.lanState 0 ≠ lanTraining ∧ 0 < (s.north.lane 0).lmRf ∧ s.north.laneUp 0 = true)
    ∧ (let s := lane 48 3 []; s.Works .north ∧ s.north.lanMode 48 = 1 ∧ s.north.laneUp 48 = true)
    ∧ (let s := lane 0 1 [(LAN_CFG_AN_EN, 0, 1)]; s.Works .north ∧ s.north.lanState 0 = lanTraining ∧ s.north.flag LAN_CFG_AN_EN 0 = true)
    ∧ (let s := lane 0 3 [(LAN_UNC_UNC_THR, 0, 2)]; s.Works .north ∧ s.north.lanMode 0 ≠ 2 ∧ s.north.laneUp 0 = true ∧ (s.north.fget LAN_UNC_UNC_THR 0 ≠ 0 ∧ s.north.fget LAN_UNC_UNC_THR 0 ≤ 2))
    ∧ (let s := lane 0 3 [(LAN_DEG_DEG_SET, 0, 5), (LAN_CFG_DEG_FAULT, 0, 0)]; s.north.lanState 0 = lanUp ∧ ¬ (s.north.fget LAN_UNC_UNC_THR 0 ≠ 0 ∧ s.north.fget LAN_UNC_UNC_THR 0 ≤ 0) ∧ s.north.fget LAN_DEG_DEG_SET 0 < 6 ∧ s.north.flag LAN_CFG_DEG_FAULT 0 = false)
    ∧ (let s := lane 0 3 [(LAN_DEG_DEG_SET, 0, 5), (LAN_CFG_DEG_FAULT, 0, 1)]; s.north.lanState 0 = lanUp ∧ ¬ (s.north.fget LAN_UNC_UNC_THR 0 ≠ 0 ∧ s.north.fget LAN_UNC_UNC_THR 0 ≤ 0) ∧ s.north.fget LAN_DEG_DEG_SET 0 < 6 ∧ s.north.flag LAN_CFG_DEG_FAULT 0 = true)
    ∧ (let s := lane 0 4 [(LAN_DEG_DEG_CLR, 0, 5)]; s.north.lanState 0 = lanDegraded ∧ ¬ (s.north.fget LAN_UNC_UNC_THR 0 ≠ 0 ∧ s.north.fget LAN_UNC_UNC_THR 0 ≤ 0) ∧ 5 ≤ s.north.fget LAN_DEG_DEG_CLR 0)
    ∧ (let s := lane 0 3 [(LAN_DEG_DEG_SET, 0, 5)]; s.north.lanState 0 = lanUp ∧ ¬ (s.north.fget LAN_UNC_UNC_THR 0 ≠ 0 ∧ s.north.fget LAN_UNC_UNC_THR 0 ≤ 0) ∧ 5 ≤ s.north.fget LAN_DEG_DEG_SET 0) :=
  by decide +kernel

theorem witness_LaneTests :
    (up.Works .north ∧ 53 < 54 ∧ ¬ (bits (0x30000 : Word).toNat 17 16 ≠ 3 ∧ patternOk (up.north.lanMode 53) 0 = true ∧ patternOk (up.north.lanMode 53) 0 = true))
    ∧ (let s := lane 0 3 []; s.Works .north ∧ (0 ≠ 3 ∧ patternOk (s.north.lanMode 0) 9 = true ∧ patternOk (s.north.lanMode 0) 0 = true) ∧ s.north.laneUp 0 = true ∧ s.north.fget LAN_TEST_GEN 0 = 0 ∧ 9 ≠ 0 ∧ s.north.fget LAN_TEST_LOOP 0 = 0)
    ∧ (let s := lane 0 3 [(LAN_TEST_LOOP, 0, 1)]; s.Works .north ∧ s.north.lanState 0 ≠ lanOff ∧ s.north.fget LAN_TEST_LOOP 0 = 1 ∧ bits (0 : Word).toNat 17 16 = 0)
    ∧ (let s := lane 0 0 []; s.Works .north ∧ s.north.lanState 0 = lanOff)
    ∧ (let s := lane 0 1 []; s.Works .north ∧ s.north.lanState 0 = lanTraining)
    ∧ (let s := lane 0 6 [(LAN_CFG_TRAIN_EN, 0, 1), (LAN_TEST_GEN, 0, 1)]; s.Works .north ∧ (0 ≠ 3 ∧ patternOk (s.north.lanMode 0) 0 = true) ∧ s.north.lanState 0 = lanTest ∧ s.north.flag LAN_CFG_TRAIN_EN 0 = true)
    ∧ (let s := lane 0 6 [(LAN_TEST_CHK, 0, 9), (LAN_STAT_CHK_LOCK, 0, 1)]; s.Works .north ∧ s.north.fget LAN_TEST_CHK 0 ≠ 0)
    ∧ (let s := lane 0 6 [(LAN_STAT_INJ_ACT, 0, 1)]; let ty := bits (0x10000000 : Word).toNat 30 28; s.Works .north ∧ 1 ≤ ty ∧ ty ≤ 4 ∧ s.north.flag LAN_STAT_INJ_ACT 0 = true)
    ∧ (let ty := bits (0x40000000 : Word).toNat 30 28; up.Works .north ∧ 1 ≤ ty ∧ ty ≤ 4 ∧ up.north.flag LAN_STAT_INJ_ACT 53 = false ∧ ty = 4 ∧ up.north.lanMode 53 = 2)
    ∧ (let ty := bits (0x40030000 : Word).toNat 30 28; up.Works .north ∧ 1 ≤ ty ∧ ty ≤ 4 ∧ up.north.flag LAN_STAT_INJ_ACT 0 = false ∧ ¬ (ty = 4 ∧ up.north.lanMode 0 = 2))
    ∧ (let s := laneRec 0 (lane 0 3 [(LAN_STAT_INJ_ACT, 0, 1)]) { Lane.reset with lmRf := 0, relock := false, injLeft := some 1 }; s.Works .north ∧ s.north.flag LAN_STAT_INJ_ACT 0 = true ∧ (s.north.laneUp 0 = true ∨ s.north.lanState 0 = lanTest) ∧ (s.north.lane 0).injLeft = some 1)
    ∧ (let s := laneRec 0 (lane 0 3 [(LAN_STAT_INJ_ACT, 0, 1)]) Lane.reset; s.Works .north ∧ s.north.flag LAN_STAT_INJ_ACT 0 = true ∧ s.north.laneUp 0 = true ∧ (s.north.lane 0).injLeft = none) :=
  by decide +kernel

/-- The head of HBM is mapped and the pseudo-channel 0 that holds it is live; `q` is its queue, `fs` are in flight. -/
def memSt (q : List QTxn) (fs : List Flight) : State := upN (fun h =>
  let h := sets [(HBM_ECC_CFG_FENCE_UNC, 0, 0)] (region0 h)
  { h with hbm := { h.hbm with queue := (if q.isEmpty then [] else [(0, q)]) }, rdb := { h.rdb with flights := fs } })
def txnW : Txn := ⟨0, false, true, .hbm, 64, 1, beAll, List.replicate 64 1, false, false⟩
def txnR : Txn := ⟨6, false, false, .hbm, 64, 1, beAll, [], false, false⟩
def queued : QTxn := ⟨0, false, 1, beAll, 64, 0, List.replicate 64 0, false, false, 0⟩
def flight0 : Flight := ⟨0, 6, 0, txnR, false, none, 1, [], false⟩
/-- A write of one beat of the Courtyard by a master. -/
def cyTxn (m : Nat) : Txn := ⟨m, false, true, .courtyard, 64, 1, beAll, List.replicate 64 1, false, false⟩
/-- A read of the other half's HBM in flight. -/
def flightFar : Flight := ⟨0, 2, 3, ⟨2, true, false, .hbm, 64, 1, beAll, [], false, false⟩, true, none, 1, [], false⟩
def farSt : State := upN (fun h => { h with rdb := { h.rdb with flights := [flightFar] } })
/-- The die bridge is down. -/
def bridgeOff : State := { up with board := Board.reset }
/-- A row of bank 0 of pseudo-channel 0 is open, and a read that hits it waits. -/
def rowSt : State := upN (fun h => { h with hbm := { h.hbm with queue := [(0, [⟨0, false, 0, beAll, 0, 0, List.replicate 64 0, false, false, 0⟩])], rows := [(0, 0)] } })

theorem bank_zero : bankOf 0 = 0 ∧ rowOf 0 = 0 := by simp [bankOf, rowOf]

theorem witness_HbmRefreshAndFencing_hits :
    let h := rowSt.north
    rowSt.Works .north ∧ 0 < 128 ∧ 0 ≤ Config.hbmBanks ∧ h.pcLive 0 = true
    ∧ ((h.pcQueue 0).filter (fun x => bankOf x.lbyte == 0)).any (h.rowHit 0) = true ∧ SMap.getD h.hbm.owed (bankKey 0 0) 0 < 8 := by
  refine ⟨?_, by decide, Nat.zero_le _, by decide +kernel, ?_, by decide +kernel⟩
  · decide +kernel
  · simp [Half.pcQueue, rowSt, upN, SMap.getD, SMap.find?, Half.rowHit, bank_zero, bankKey]

/-- What the clauses about bursts share. -/
abbrev Bursts (s : State) (x : Txn) : Prop :=
  let h := s.north
  let ps := h.burstPorts x
  s.Works .north ∧ x.master < 8 ∧ 0 < x.beats ∧ x.addr % 64 = 0 ∧ x.addr % 256 + 64 * x.beats ≤ 256 ∧ ps.Nodup
    ∧ (∀ p ∈ ps, p < 128 ∧ h.pcRoom p x.beats = true ∧ ∀ r ∈ h.rdb.waiting, r.port ≠ p) ∧ (∀ e ∈ h.hbm.queue, h.pcLive e.1 = true)
    ∧ h.freeId x.master = some 0 ∧ (∀ e ∈ h.rdb.stalled, e.1.master ≠ x.master)
    ∧ (∀ f ∈ h.rdb.flights, f.seq ≠ h.rdb.next) ∧ (∀ r ∈ h.rdb.waiting, r.flight ≠ h.rdb.next)
/-- What the clauses about a transaction of the Courtyard share. -/
abbrev CyRequest (x : Txn) (m : Nat) : Prop :=
  let h := up.north
  up.Works .north ∧ x.space = .courtyard ∧ 0 < x.beats ∧ x.beats ≤ 16 ∧ x.addr % 64 = 0 ∧ x.master < 7 ∧ x.master = m
    ∧ (∀ j ∈ [HalfId.north, .south], (up.half j).rdb.waiting = [] ∧ ∀ e ∈ (up.half j).hbm.queue, (up.half j).pcLive e.1 = true)
    ∧ h.freeId x.master = some 0 ∧ (∀ e ∈ h.rdb.stalled, e.1.master ≠ x.master) ∧ (∀ f ∈ h.rdb.flights, f.seq ≠ h.rdb.next) ∧ h.rdb.clock ≤ 9

theorem witness_HbmBursts :
    (let s := memSt [] []; let x := { txnW with addr := 0, beats := 4, data := List.replicate 256 1 }; Bursts s x ∧ x.write = true ∧ (∃ p ∈ s.north.burstPorts x, s.north.pcLive p = true))
    ∧ (let s := upN (fun _ => (memSt [] []).north.fset HBM_CTL_AUTO_FENCE 0); Bursts s txnW ∧ txnW.write = true ∧ (s.north.burstPorts txnW).find? s.north.pcLive = some 0 ∧ s.north.flag HBM_CTL_AUTO_FENCE = false)
    ∧ (let s := upN (fun _ => (memSt [] []).north.fset HBM_CTL_AUTO_FENCE 1); Bursts s txnW ∧ txnW.write = true ∧ (s.north.burstPorts txnW).find? s.north.pcLive = some 0 ∧ s.north.flag HBM_CTL_AUTO_FENCE = true)
    ∧ (let s := memSt [] []; Bursts s txnR ∧ txnR.write = false ∧ s.north.burstPorts txnR = [0] ∧ s.north.pcLive 0 = true ∧ ∀ y ∈ s.north.pcQueue 0, y.write = false)
    ∧ (let x := { txnR with addr := 2 ^ 35 }; Bursts (memSt [] []) x ∧ (memSt [] []).north.burstPorts x = []) :=
  by decide +kernel

theorem witness_HbmReadOutcomes :
    (let s := memSt [queued] [flight0]; let h := s.north; let x := queued; let f := flight0; s.Works .north ∧ 0 < 128 ∧ h.pcLive 0 = true ∧ (∀ e ∈ h.hbm.queue, h.pcLive e.1 = true) ∧ (∀ y ∈ h.pcQueue 0, y.write = false) ∧ h.nextRead 0 (2 ^ 20) = some 0 ∧ (h.pcQueue 0)[0]? = some x ∧ x.poison = false ∧ h.rdb.flights.find? (fun f => f.seq == x.flight) = some f ∧ f.origin = none ∧ f.req.write = false ∧ f.bad = false ∧ (∀ e ∈ h.rdb.stalled, e.1.master ≠ f.master) ∧ 2 * x.unit + x.copy ∉ h.hbm.poison ∧ f.left = 1 ∧ h.addrPcs (x.unit * 64) = [0] ∧ h.fget HBM_ECC_CFG_FENCE_UNC = 0)
    ∧ (let f := { flight0 with left := 2 }; let h := (memSt [queued] [f]).north; h.rdb.flights.find? (fun f => f.seq == queued.flight) = some f ∧ 1 < f.left)
    ∧ (let s := st [(HBM_CTL_SCRUB_EN, 0, 1), (HBM_PC_0_POLICY, 127, 0)]; let h := s.north; s.Works .north ∧ 127 < 128 ∧ h.pcLive 127 = true ∧ (∀ e ∈ h.hbm.queue, h.pcLive e.1 = true) ∧ h.flag HBM_CTL_SCRUB_EN = true ∧ h.addressAt 127 (SMap.getD h.hbm.scrub 127 0 * 64) = none ∧ h.fget HBM_PC_0_POLICY 127 ≠ 1) :=
  by decide +kernel

theorem witness_HbmRefreshAndFencing :
    (let h := up.north; up.Works .north ∧ 127 < 128 ∧ 0 ≤ Config.hbmBanks ∧ h.pcLive 127 = true ∧ (h.pcQueue 127).filter (fun x => bankOf x.lbyte == 0) = [])
    ∧ (up.Works .north ∧ 3 < 4 ∧ (95 : Int) < 96 ∧ (85 : Int) < 86 ∧ (93 : Int) ≤ 93 ∧ (83 : Int) ≤ 83 ∧ (up.north.fget HBM_THERM_HOT : Int) ≤ 127)
    ∧ ((up.north.fget HBM_THERM_HOT : Int) - 3 ≤ (up.north.fget HBM_THERM_HOT : Int) - 3 ∧ up.north.fget HBM_THERM_HOT < 128)
    ∧ (let s := st [(HBM_CTL_AUTO_FENCE, 0, 1)]; let h := s.north; s.Works .north ∧ 127 < 128 ∧ h.pcLive 127 = true ∧ h.flag HBM_CTL_AUTO_FENCE = true)
    ∧ (let h := up.north; up.Works .north ∧ 127 < 128 ∧ h.pcLive 127 = true ∧ h.pcQueue 127 = [] ∧ (∀ e ∈ h.hbm.queue, h.pcLive e.1 = true) ∧ (∀ c, c < 8 → h.fget HBM_PC_1_STATE (8 * (127 / 8) + c) ≠ 1) ∧ h.inStep 5 = false ∧ 127 ∈ [127] ∧ 127 ∉ [0])
    ∧ (let s := st [(LSE_STAT_OWN, 0, 1), (NVM_BOOT_STAGE, 0, 5)]; s.Works .north ∧ 127 < 128 ∧ s.north.pcLive 127 = true ∧ s.north.inStep 5 = true ∧ s.north.lanState 0 = lanOff ∧ s.north.laneIdle 0 = false ∧ s.north.lanState 47 = lanOff ∧ s.north.laneIdle 47 = true) :=
  by decide +kernel

theorem witness_RoundaboutAndBridge :
    (let m := up.north.fget RDB_PARK_PARK portCourtyard; let x := cyTxn m; CyRequest x m ∧ x.remote = false ∧ x.write = true ∧ (up.north.port portCourtyard).busy ≤ 9)
    ∧ (let m := up.north.fget RDB_PARK_PARK portCourtyard; let x := { cyTxn m with write := false, data := [] }; CyRequest x m ∧ x.remote = false ∧ x.write = false ∧ (up.north.port portCourtyard).busy ≤ 9)
    ∧ (CyRequest (cyTxn 6) 6 ∧ 6 ≠ up.north.fget RDB_PARK_PARK portCourtyard ∧ (up.north.port portCourtyard).busy < 9)
    ∧ (let m := up.north.fget RDB_PARK_PARK portBridge; let x := { cyTxn m with remote := true }; CyRequest x m ∧ x.remote = true ∧ (up.north.port portBridge).busy ≤ 9 ∧ up.board.bridgeUp = true ∧ up.south.freeId 7 = some 0 ∧ up.south.rdb.clock ≤ 9)
    ∧ (up.Works .north ∧ up.board.bridgeUp = true ∧ (∀ f ∈ up.north.rdb.flights, f.master < 8))
    ∧ (let h := farSt.north; farSt.Works .north ∧ farSt.board.bridgeUp = true ∧ (∀ f ∈ h.rdb.flights, f.req.remote = true ∧ f.origin = none ∧ f.master < 8))
    ∧ (bridgeOff.Works .north ∧ bridgeOff.board.bridgeUp = false)
    ∧ (let h := farSt.north; farSt.Works .north ∧ (h.inFlight 2).find? (fun f => f.id == 3) = some flightFar ∧ flightFar.origin = none ∧ (∀ e ∈ h.rdb.stalled, e.1.master ≠ 2)) :=
  by decide +kernel

/-- Half south is off; north has role `r`, with fields set and its island changed. -/
def alone (r : Nat) (l : List (Fld × Nat × Nat)) (f : Island → Island) : State :=
  { up with north := let h := sets ([(LSE_STAT_ROLE, 0, r)] ++ l) up.north; { h with isl := f h.isl }, south := Half.reset .south }
/-- As `alone`, with the halves changed about. -/
def aloneS (r : Nat) (f : Island → Island) : State :=
  { up with south := let h := up.south.fset LSE_STAT_ROLE r; { h with isl := f h.isl }, north := Half.reset .north }
/-- Both halves run, and north has role `r`. -/
def both (r : Nat) (l : List (Fld × Nat × Nat)) (f : Island → Island) : State :=
  { up with north := let h := sets ([(LSE_STAT_ROLE, 0, r)] ++ l) up.north; { h with isl := f h.isl }, south := up.south.fset LSE_STAT_ROLE (3 - r) }
/-- A heartbeat of the primary. -/
def beat (e : Nat) : Heartbeat := ⟨e, 2, 2, true, 5, 4, List.replicate 64 1, 2⟩
/-- A running reference whose last event was at second 0. -/
def refSt (pj : Nat) : State := upN (fun h =>
  let h := sets [(TMG_REF_0_EN, 4, 1), (TMG_REF_3_PJ_THR, 4, pj)] h
  { h with tmg := { h.tmg with refs := h.tmg.refs.modify 4 (fun r => { r with seenAt := some 0 }) } })
/-- The loop of north in a state, as primary, with a correction summed. -/
def loopSt (x : Nat) : State := upN (fun h =>
  let h := sets [(TMG_STAT_STATE, 0, x), (TMG_STAT_TIME_VALID, 0, 1), (TMG_STAT_MODEL_VALID, 0, 1), (TMG_CTL_HOLD, 0, 1)] h
  { h with tmg := { h.tmg with cntCorr := 3, sumCorr := 7, means := List.replicate 7 (0, 1) } })
/-- North is booting alone, with a front delay that waits. -/
def bootSt : State := alone 0 [(LSE_STAT_OWN, 0, 1)] id
def fdlySt : State := { bootSt with north := { bootSt.north with shadow := [(ING_FDLY.at 0, 5)] } }
/-- Source 450 is pending and enabled, and routed to target 11, which MSI-X serves. -/
def evcSt : State := upN (fun h => ((sets [(EVC_CTL_EN, 0, 1), (EVC_STAT_LAST, 0, 10), (EVC_HV_MSIX_EN, 7, 1), (EVC_TGT_1_MASK, 11, 0), (MSIX_3_VMASK, 7, 0)] h).putN EVC_PENDING 4 14
  |>.putN EVC_ENABLE 4 14).putN EVC_TGT_0 0x4000 11)
def tgtSt (t : Tgt) : State := upN (fun h => h.setTgt 11 (fun _ => t))
def rec0 : ErrRec := ⟨0, 0, errPEER_DOWN, 0, 1, false, 0⟩
def errSt : State := upN (fun h => { h with errq := ⟨[rec0], [], 1, some 0⟩ })

theorem witness_References :
    (let s := upN (fun _ => (refSt 0).north.fset TMG_REF_5_QUAL 1 4); let h := s.north; s.Works .north ∧ 4 < 7 ∧ 4 < h.tmg.refs.length ∧ h.flag TMG_REF_0_EN 4 = true ∧ h.flag TMG_REF_5_QUAL 4 = true ∧ (h.ref 4).seenAt = some 0
      ∧ h.fget TMG_REF_3_PJ_THR 4 * 1000 < (wrapAmb (h.ambiguity 4) (wrapAmb (h.ambiguity 4) (100 - h.getI TMG_REF_4 4) - (h.ref 4).err - rneDiv (h.getI TMG_REF_7 4 * ((9 - 0) * 10000 : Nat)) (10 ^ 12))).natAbs)
    ∧ (let s := st [(TMG_REF_0_EN, 0, 1)]; let h := s.north; s.Works .north ∧ 0 < 7 ∧ 0 < h.tmg.refs.length ∧ h.flag TMG_REF_0_EN 0 = true ∧ (h.ref 0).seenAt = none)
    ∧ (let s := st [(TMG_REF_0_EN, 6, 1), (DEV_SUBARR_ACT_ACTIVE, 0, 1)]; let h := s.north; s.Works .north ∧ 6 < 7 ∧ 6 < h.tmg.refs.length ∧ h.flag TMG_REF_0_EN 6 = true ∧ (h.ref 6).seenAt = none ∧ h.tmg.ptpSeen = false ∧ h.flag TMG_STAT_TIME_VALID = false ∧ h.subRuns = true)
    ∧ (let s := st [(TMG_REF_0_EN, 6, 1)]; let h := s.north; let fofs : List Int := [0, 0, 0, 0, 0, 0, 0]; s.Works .north ∧ 6 < h.tmg.refs.length ∧ fofs[6]? = some 0 ∧ h.flag TMG_REF_0_EN 6 = true ∧ (h.ref 6).los = false ∧ ¬ h.getN TMG_REF_2 6 < (clamp (-(2 ^ 31)) (2 ^ 31 - 1) 0).natAbs)
    ∧ (let s := st [(TMG_REF_0_EN, 6, 1)]; let h := s.north; let fofs : List Int := [0, 0, 0, 0, 0, 0, 2 ^ 40]; fofs[6]? = some (2 ^ 40) ∧ h.getN TMG_REF_2 6 < (clamp (-(2 ^ 31)) (2 ^ 31 - 1) (2 ^ 40)).natAbs) :=
  by decide +kernel

theorem witness_LoopAndHoldover :
    (let h := (loopSt 2).north; (loopSt 2).Works .north ∧ h.flag TMG_STAT_TIME_VALID = true ∧ h.fget LSE_STAT_ROLE ≠ 1 ∧ h.flag TMG_CTL_HOLD = true ∧ h.fget TMG_STAT_STATE = 2 ∧ h.flag TMG_STAT_MODEL_VALID = true ∧ h.tmg.cntCorr ≠ 0 ∧ 7 ≤ h.tmg.means.length)
    ∧ (let s := upN (fun _ => (loopSt 3).north.fset TMG_STAT_MODEL_VALID 0); let h := s.north; s.Works .north ∧ h.fget LSE_STAT_ROLE ≠ 1 ∧ h.flag TMG_CTL_HOLD = true ∧ 1 ≤ h.fget TMG_STAT_STATE ∧ h.fget TMG_STAT_STATE ≤ 3 ∧ h.flag TMG_STAT_MODEL_VALID = false)
    ∧ (let s := st [(DEV_SUBARR_ACT_ACTIVE, 0, 1)]; s.Works .north ∧ s.north.subRuns = true)
    ∧ (let s := both 1 [(TMG_STAT_TIME_VALID, 0, 1)] id; let h := s.north; s.Works .north ∧ h.flag TMG_STAT_TIME_VALID = true ∧ h.fget LSE_STAT_ROLE = 1 ∧ (s.half HalfId.north.other).mainUp = true ∧ (s.half HalfId.north.other).fget LSE_STAT_ROLE = 2)
    ∧ (let h := (loopSt 4).north; (loopSt 4).Works .north ∧ h.fget LSE_STAT_ROLE ≠ 1 ∧ h.fget TMG_STAT_STATE = 4) :=
  by decide +kernel

theorem witness_TimeAndTicks :
    (let s := st [(DEV_SUBARR_ACT_ACTIVE, 0, 1)]; s.Works .north ∧ s.north.subRuns = true)
    ∧ (up.Works .north ∧ up.north.subRuns = false)
    ∧ (let s := fdlySt; let h := s.north; s.Works .north ∧ (s.half HalfId.north.other).mainUp = false ∧ s.leadHalf = some .north ∧ h.running = false ∧ h.inHold = false)
    ∧ (fdlySt.north.exy = Exy.reset)
    ∧ (let h := fdlySt.north; (fdlySt.half HalfId.north.other).exy.resetAt = none ∧ h.arc = Arc.reset ∧ h.trw = Trw.reset ∧ h.caps = [] ∧ h.lta = Lta.reset ∧ h.bmf = Bmf.reset ∧ h.xch = Xch.reset ∧ h.rdb = Rdb.reset ∧ h.front.inputs = [] ∧ h.front.armed = [] ∧ h.shadowLate = [] ∧ h.holdSample = false ∧ h.shadow = [(ING_FDLY.at 0, 5)])
    ∧ (let h := fdlySt.north; (∀ f ∈ [ING_CTL_RUN, LTA_CTL_RUN, XCH_CTL_RUN], h.flag f = false) ∧ (∀ p, p < 128 → h.fget HBM_PC_1_STATE p = 0) ∧ (∀ n, n < 16 → h.flag BMF_TAB_2_DIRTY n = false ∧ h.fget XCH_LINK_STAT_0_STATE n = 0) ∧ h.nextTick < 2) :=
  by decide +kernel

/-- A mask word waits in the shadow of north; HOLD stood in the window or not. -/
def maskSt (hold : Bool) : State := upN (fun h => { (sets [(LSE_STAT_DRIVE, 0, 1), (TMG_OUT_TICK_EN, 0, 1)] h).putN EVC_ENABLE 4 14 with shadow := [(CHN_MASK.at 1023, 5)], holdSample := hold })

theorem witness_TickOpensFrame_shadow (hold : Bool) : ∀ v, (CHN_MASK.at 1023, v) ∈ (maskSt hold).north.shadow → v = 5 := by
  intro v h
  simp only [maskSt, upN, List.mem_singleton, Prod.mk.injEq] at h
  exact h.2

theorem witness_TickOpensFrame_resetAt (hold : Bool) : ∀ n, (maskSt hold).north.exy.resetAt = some n → (maskSt hold).north.nextTick < n := by
  have e : (maskSt hold).north.exy.resetAt = none := by cases hold <;> rfl
  intro n h
  rw [e] at h
  cases h

theorem witness_TickOpensFrame :
    (let s := maskSt false; let h := s.north; s.Works .north ∧ s.leadHalf = some .north ∧ h.exy.resetAt = none ∧ h.NoDrain ∧ (h.inHold = true → h.arc.contained = false) ∧ (∀ e ∈ h.front.inputs, e.1 < 256) ∧ h.srcEnabled 450 = true ∧ h.fget LSE_STAT_DRIVE = 1 ∧ h.flag TMG_OUT_TICK_EN = true ∧ 1023 < 1024 ∧ (CHN_MASK.at 1023, 5) ∈ h.shadow ∧ (∀ x ∈ h.exy.planned, h.nextTick < x.tick) ∧ h.holdSample = false)
    ∧ (let s := maskSt true; let h := s.north; s.Works .north ∧ s.leadHalf = some .north ∧ h.exy.resetAt = none ∧ h.NoDrain ∧ (h.inHold = true → h.arc.contained = false) ∧ (∀ e ∈ h.front.inputs, e.1 < 256) ∧ (CHN_MASK.at 1023, 5) ∈ h.shadow ∧ h.holdSample = true) :=
  by decide +kernel

theorem witness_RoleTakenAndGiven :
    (let s := alone 1 [] (fun x => { x with listening := true }); let h := s.north; let o := s.half HalfId.north.other; s.Powered .north ∧ h.mainUp = true ∧ h.inStep 8 = false ∧ h.getN LSE_FENCE ≠ 2 ^ 32 - 1 ∧ o.exy.upd.state = 0 ∧ o.exy.flashUnread = false ∧ h.fget LSE_STAT_ROLE = 1 ∧ h.isl.listening = true ∧ (h.id = .north → h.isl.heardPrimary = false ∧ (s.witness .north = false ∨ h.isl.heardAny = true)) ∧ (h.id = .south → h.isl.heardAny = false ∧ s.witness .north = false))
    ∧ (let s := aloneS 1 (fun x => { x with listening := true }); let h := s.south; let o := s.half HalfId.south.other; s.Powered .south ∧ h.mainUp = true ∧ h.inStep 8 = false ∧ h.getN LSE_FENCE ≠ 2 ^ 32 - 1 ∧ o.exy.upd.state = 0 ∧ o.exy.flashUnread = false ∧ h.fget LSE_STAT_ROLE = 1 ∧ h.isl.listening = true ∧ (h.id = .north → h.isl.heardPrimary = false ∧ (s.witness .south = false ∨ h.isl.heardAny = true)) ∧ (h.id = .south → h.isl.heardAny = false ∧ s.witness .south = false))
    ∧ (let s := alone 1 [(LSE_STAT_LEASE, 0, 2)] (fun x => { x with guard := true }); let h := s.north; s.Powered .north ∧ h.mainUp = true ∧ h.inStep 8 = false ∧ h.getN LSE_FENCE ≠ 2 ^ 32 - 1 ∧ h.fget LSE_STAT_ROLE = 1 ∧ h.isl.guard = true ∧ s.witness .north = false ∧ h.fget LSE_STAT_LEASE = 2 ∧ h.hot = false)
    ∧ (let s := both 1 [] (fun x => { x with guard := true, copyFresh := true, imageOk := true }); let h := s.north; let o := s.half HalfId.north.other; s.Powered .north ∧ h.mainUp = true ∧ h.inStep 8 = false ∧ h.getN LSE_FENCE ≠ 2 ^ 32 - 1 ∧ o.exy.upd.state = 0 ∧ o.exy.flashUnread = false ∧ h.fget LSE_STAT_ROLE = 1 ∧ h.isl.guard = true ∧ s.witness .north = true ∧ h.hot = true)
    ∧ (let s := alone 2 [(LSE_STAT_LEASE, 0, 2), (LSE_STAT_OTHER_HOT, 0, 1)] id; let h := s.north; s.Powered .north ∧ h.mainUp = true ∧ h.inStep 8 = false ∧ h.getN LSE_FENCE ≠ 2 ^ 32 - 1 ∧ h.fget LSE_STAT_ROLE = 2 ∧ h.fget LSE_STAT_LEASE = 2 ∧ s.witness .north = false ∧ h.flag LSE_STAT_OTHER_HOT = true)
    ∧ (up.Powered .north ∧ up.north.mainUp = true ∧ up.north.inStep 8 = false ∧ up.north.getN LSE_FENCE ≠ 2 ^ 32 - 1 ∧ up.north.fget LSE_STAT_ROLE = 2 ∧ up.north.flag LSE_STAT_OTHER_HOT = false) :=
  by decide +kernel

theorem witness_HeartbeatsAndLease :
    (let s := both 1 [] id; let h := s.north; let hb := beat (2 ^ 32 - 1); s.Powered .north ∧ h.inStep 8 = false ∧ h.isl.ready = true ∧ h.fget LSE_STAT_ROLE ≠ 3 ∧ hb.epoch < 2 ^ 32 ∧ hb.hstate < 4 ∧ hb.role = 2 ∧ hb.drec.length = 64 ∧ h.fget LSE_STAT_ROLE = 1 ∧ h.isl.listening = false)
    ∧ (let h := up.north; up.Powered .north ∧ h.inStep 8 = false ∧ h.isl.ready = true ∧ h.fget LSE_STAT_ROLE = 2 ∧ h.getN LSE_EPOCH < (beat 7).epoch ∧ h.flag LSE_STAT_WIT_FAULT = false)
    ∧ (let s := both 2 [(LSE_STAT_WIT_FAULT, 0, 1)] id; s.Powered .north ∧ s.north.inStep 8 = false ∧ s.north.isl.ready = true ∧ s.north.flag LSE_STAT_WIT_FAULT = true ∧ (s.half HalfId.north.other).aliveDrive = true)
    ∧ (let s := alone 1 [] id; s.Powered .north ∧ s.north.inStep 8 = false ∧ s.north.isl.ready = true ∧ s.north.fget LSE_STAT_SIDE_HB = 0 ∧ s.witness .north = false)
    ∧ (let s := both 1 [] id; let h := s.south; let hb := beat 0; s.Powered .south ∧ h.inStep 8 = false ∧ h.isl.ready = true ∧ h.fget LSE_STAT_ROLE = 2 ∧ hb.role = 2 ∧ hb.drec.length = 64 ∧ h.getN LSE_EPOCH = hb.epoch ∧ h.id = .south)
    ∧ (let hb := { beat 0 with role := 1, drec := [] }; up.north.fget LSE_STAT_ROLE = 2 ∧ hb.role ≠ 2 ∧ hb.epoch < 2 ^ 32 ∧ hb.hstate < 4)
    ∧ (let s := alone 2 [(LSE_STAT_WIT_FAULT, 0, 1), (LSE_STAT_LEASE, 0, 1)] id; s.Powered .north ∧ s.north.inStep 8 = false ∧ s.north.isl.ready = true ∧ s.north.flag LSE_STAT_WIT_FAULT = true ∧ s.north.fget LSE_STAT_LEASE ≠ 2) :=
  by decide +kernel

theorem witness_UnsureAndWatchdog :
    (let o := up.half HalfId.north.other; up.Powered .north ∧ up.north.inStep 8 = false ∧ o.exy.upd.state = 0 ∧ o.exy.flashUnread = false ∧ up.north.fget LSE_STAT_ROLE ≠ 3)
    ∧ (let s := alone 3 [] (fun x => { x with roleKept := 2 }); let h := s.north; let o := s.half HalfId.north.other; s.Powered .north ∧ h.inStep 8 = false ∧ o.exy.upd.state = 0 ∧ o.exy.flashUnread = false ∧ h.fget LSE_STAT_ROLE = 3 ∧ 2 ^ 32 - 1 < 2 ^ 32 ∧ 1 ≠ 2 ∧ h.isl.roleKept = 2)
    ∧ (let s := alone 3 [] (fun x => { x with roleKept := 1 }); let h := s.north; s.Powered .north ∧ h.inStep 8 = false ∧ h.fget LSE_STAT_ROLE = 3 ∧ (1 = 2 ∨ h.isl.roleKept ≠ 2))
    ∧ (let s := st [(LSE_CTL_WD_EN, 0, 1)]; s.Powered .north ∧ s.north.inStep 8 = false ∧ s.north.flag LSE_CTL_WD_EN = true) :=
  by decide +kernel

theorem witness_EventController :
    (let h := evcSt.north; evcSt.Works .north ∧ 11 < 12 ∧ 11 < h.evc.tgts.length ∧ 450 < 1024 ∧ h.flag EVC_CTL_EN = true ∧ (List.range 1024).find? h.selectable = some 450 ∧ h.pickTarget 450 = some 11 ∧ 4 ≤ 11 ∧ h.flag EVC_HV_MSIX_EN 7 = true ∧ h.flag MSIX_3_VMASK 7 = false ∧ h.evc.fnMask = false)
    ∧ (let s := tgtSt ⟨some 1023, none, false⟩; s.Works .north ∧ 11 < s.north.evc.tgts.length ∧ 1023 < 1024 ∧ (s.north.tgt 11).offer = some 1023 ∧ (s.north.tgt 11).insvc ≠ some 1023)
    ∧ (let s := tgtSt ⟨none, some 0, false⟩; s.Works .north ∧ 11 < s.north.evc.tgts.length ∧ (s.north.tgt 11).insvc = some 0)
    ∧ (up.Works .north ∧ sourceLevel 899 = true ∧ sourceLevel 450 = false ∧ sourceReserved 450 = false ∧ sourceReserved 1023 = true)
    ∧ (let s := upN (fun h => h.putN MSIX_PBA 0x80); s.Works .north ∧ 7 < 8 ∧ s.north.evc.fnMask = false ∧ bit (s.north.getN MSIX_PBA) 7 = true) :=
  by decide +kernel

theorem witness_ErrorQueue :
    (let h := errSt.north; errSt.Works .north ∧ (handlingOrder h.errq.recs).find? (fun x => !x.handled) = some rec0 ∧ handlingOrder h.errq.recs = [rec0] ∧ h.errq.latched = some 0)
    ∧ (let h := (upN (fun h => { h with errq := ⟨[⟨0, 0, errHBM_FENCE, 0, 1, false, 0⟩], [], 1, none⟩ })).north; (handlingOrder h.errq.recs).find? (fun x => !x.handled) = some ⟨0, 0, errHBM_FENCE, 0, 1, false, 0⟩ ∧ recomputeCode errHBM_FENCE = true) :=
  by decide +kernel

/-- North's island changed, and fields of north set. -/
def islSt (l : List (Fld × Nat × Nat)) (f : Island → Island) : State := upN (fun h => let g := sets l h; { g with isl := f g.isl })
/-- North is in DOWN with its island ready. -/
def downSt (f : Island → Island) : State := islSt [(LSE_STAT_OWN, 0, 0), (LSE_STAT_ROLE, 0, 0)] f
/-- The resident firmware of north changed. -/
def exySt (l : List (Fld × Nat × Nat)) (f : Exy → Exy) : State := upN (fun h => let g := sets l h; { g with exy := f g.exy })
/-- The board changed. -/
def boardSt (f : Board → Board) (s : State) : State := { s with board := f s.board }
/-- A command frame of session 0. -/
def cmd (target seq op : Nat) (p : List Byte) : List Byte := mkFrame 0 target 0 seq op p none
/-- A frame that waits at the management port. -/
def udp (bs : List Byte) : Rx := .udp [2, 0, 0, 0, 0, 1] [10, 0, 0, 1] 5000 bs
/-- A frame that asks for a profile switch at once. -/
def switchCmd (target : Nat) : List Byte := cmd target 1 0x0200 (1 :: List.replicate 15 0)
/-- A held frame of a profile that sets one word of CHN_MASK. -/
def heldCmd : List Byte := cmd 0 1 0x0403 ([0, 0, 1, 0] ++ List.replicate 12 0 ++ [1, 0, 0, 0])
/-- The profile of north waits for time, which is now valid. -/
def heldSt (l : List (List Byte)) : State := exySt [(NVM_STAT_REPLAY, 0, 2), (TMG_STAT_TIME_VALID, 0, 1)] (fun e => { e with replayLeft := l })
/-- An update of north on its own port. -/
def updSt (u : FlashUpd) : State := exySt [] (fun e => { e with upd := u, port := ⟨true, 8192, [none, none]⟩ })
/-- An update of south, which is primary, on its own port. -/
def updS (u : FlashUpd) : State :=
  let s := both 1 [] id
  { s with south := { s.south with exy := { s.south.exy with upd := u, port := ⟨true, 8192, [none, none]⟩ } } }
/-- An operation in progress of phase `ph`. -/
def upd0 (st port ph ofs len : Nat) (ab : Bool) : FlashUpd := ⟨st, len, 0, [], port, 0, ph, ofs, 0, true, ab⟩
def booting (n : Nat) (f : Exy → Exy) : State := exySt [(LSE_STAT_OWN, 0, 1), (NVM_BOOT_STAGE, 0, n)] f

theorem witness_PowerDomains :
    (let s := islSt [] (fun x => { x with seq := .up 7 }); let h := s.north; s.Powered .north ∧ h.isl.seq = .up 7 ∧ (List.range 9).find? (fun q => 7 + 1 ≤ q && h.flag SUP_RAIL_0_EN q) = some 8)
    ∧ (let s := islSt [] (fun x => { x with seq := .up 8 }); let h := s.north; s.Powered .north ∧ h.isl.seq = .up 8 ∧ (List.range 9).find? (fun q => 8 + 1 ≤ q && h.flag SUP_RAIL_0_EN q) = none ∧ h.mainUp = true ∧ ((List.range (8 + 1)).reverse).find? (fun q => h.flag SUP_RAIL_0_EN q) = some 8)
    ∧ (let s := islSt [] (fun x => { x with seq := .down 1 }); let h := s.north; s.Powered .north ∧ h.isl.seq = .down 1 ∧ ((List.range 1).reverse).find? (fun q => h.flag SUP_RAIL_0_EN q) = some 0)
    ∧ (let s := islSt [] (fun x => { x with seq := .down 0 }); let h := s.north; s.Powered .north ∧ h.isl.seq = .down 0 ∧ ((List.range 0).reverse).find? (fun q => h.flag SUP_RAIL_0_EN q) = none ∧ h.isl.downThen = 0)
    ∧ (let s := downSt (fun x => { x with seq := .retryWait, retries := 1 }); let h := s.north; s.Powered .north ∧ h.own = 0 ∧ h.isl.ready = true ∧ h.isl.fatalF = false ∧ h.isl.seq = .retryWait ∧ 0 < h.isl.retries ∧ h.isl.tripped = false ∧ s.board.resetN = true)
    ∧ (let s := upN (fun _ => sets (dieChannels.map (fun c => (HKA_RES_CODE, c, 4095))) (downSt (fun x => { x with tripped := true })).north); let h := s.north; s.Powered .north ∧ h.own = 0 ∧ h.isl.ready = true ∧ h.isl.fatalF = false ∧ h.isl.tripped = true ∧ h.cooled = false ∧ s.board.resetN = true)
    ∧ (up.Powered .north ∧ 8 < 9 ∧ up.north.fget HKA_STAT_STATE ≠ 3)
    ∧ (let s := islSt [] (fun x => { x with urgentRail := some 0 }); let h := s.north; s.Powered .north ∧ h.isl.urgentRail = some 0 ∧ h.outside 0 (h.calibrate 0 (0 : Nat)) = true ∧ h.mainUp = true ∧ h.outside 0 (h.calibrate 0 (3686 : Nat)) = false)
    ∧ (let s := islSt [] (fun x => { x with boWait := true }); let h := s.north; s.Powered .north ∧ h.isl.boWait = true ∧ ((List.range 9).reverse).find? (fun q => h.flag SUP_RAIL_0_EN q) = some 8)
    ∧ (up.Powered .north ∧ 15 < 16 ∧ up.north.mainUp = true)
    ∧ (State.reset.Settled ∧ State.reset.north.isl.powered = false ∧ State.reset.north.mainUp = false)
    ∧ (let s := boardSt (fun b => { b with resetN := false }) (downSt (fun x => { x with ready := false })); s.Settled ∧ s.north.isl.powered = true ∧ s.north.isl.ready = false ∧ s.board.resetN = false ∧ s.north.running = false)
    ∧ (up.Settled ∧ up.north.isl.powered = true ∧ up.north.running = true ∧ up.north.fget SUP_STAT_MAIN = 2)
    ∧ (let s := islSt [] (fun x => { x with seq := .down 0, downThen := 1, retries := 1 }); let h := s.north; s.Powered .north ∧ h.isl.seq = .down 0 ∧ ((List.range 0).reverse).find? (fun q => h.flag SUP_RAIL_0_EN q) = none ∧ h.isl.downThen = 1 ∧ 0 < h.isl.retries)
    ∧ (let s := downSt (fun x => { x with seq := .down 0, downThen := 2 }); let h := s.north; s.Powered .north ∧ h.isl.seq = .down 0 ∧ h.isl.downThen = 2 ∧ h.own = 0 ∧ h.isl.ready = true ∧ h.isl.fatalF = false)
    ∧ (let s := downSt id; let h := s.north; s.Powered .north ∧ h.own = 0 ∧ h.isl.ready = true ∧ h.isl.fatalF = false ∧ h.isl.tripped = false ∧ s.board.resetN = true)
    ∧ (let h := up.north; up.Powered .north ∧ h.running = true ∧ h.fget SUP_STAT_MAIN = 2)
    ∧ (let s := downSt id; s.Settled ∧ s.north.isl.powered = true ∧ s.north.running = false) :=
  by decide +kernel

theorem witness_FeedsAlertAndAvs :
    (let s := st [(SUP_FEED_MODE, 0, 1)]; s.Powered .north ∧ s.north.fget SUP_FEED_MODE = 1 ∧ s.north.isl.feedB.fault = false)
    ∧ (let s := st [(SUP_FEED_MODE, 0, 2)]; s.Powered .north ∧ s.north.fget SUP_FEED_MODE = 2 ∧ s.north.isl.feedA.fault = false)
    ∧ (let s := st [(SUP_FEED_MODE, 0, 0)]; s.Powered .north ∧ s.north.fget SUP_FEED_MODE = 0)
    ∧ (let s := islSt [] (fun x => { x with feedA := { x.feedA with overI := 9 }, feedB := { x.feedB with overV := 1 } }); let h := s.north; s.Powered .north ∧ 9 ≤ h.isl.feedA.overI ∧ h.fget SUP_FEED_IOC * 4096 < h.calibrate 1 (4095 : Nat) * 1000 ∧ 1 ≤ h.isl.feedB.overV ∧ 5600 * 4096 < h.calibrate 2 (4095 : Nat) * 6000)
    ∧ (let h := up.north; h.isl.feedA.fault = false ∧ h.isl.feedB.fault = false ∧ h.calibrate 0 (0 : Nat) * 6000 ≤ 5600 * 4096 ∧ h.calibrate 1 (0 : Nat) * 1000 ≤ h.fget SUP_FEED_IOC * 4096 ∧ h.calibrate 2 (3400 : Nat) * 6000 ≤ 5600 * 4096 ∧ h.calibrate 3 (0 : Nat) * 1000 ≤ h.fget SUP_FEED_IOC * 4096)
    ∧ (let s := islSt [(SUP_CTL_AVS_EN, 0, 1), (SUP_AVS_AVS_HI, 0, 20), (SUP_AVS_AVS_LO, 0, 10), (SUP_AVS_AVS_MIN, 0, 695)] (fun x => { x with vddArc := 700 }); let h := s.north; s.Powered .north ∧ h.mainUp = true ∧ h.flag SUP_CTL_AVS_EN = true ∧ h.fget SUP_AVS_AVS_HI < 21 ∧ h.fget SUP_AVS_AVS_MIN + 5 ≤ h.isl.vddArc ∧ 9 ≤ h.fget SUP_AVS_AVS_HI ∧ 9 < h.fget SUP_AVS_AVS_LO ∧ h.isl.vddArc + 5 ≤ 800 ∧ h.fget SUP_AVS_AVS_LO ≤ 10 ∧ 10 ≤ h.fget SUP_AVS_AVS_HI ∧ h.isl.vddArc + 25 ≤ 800)
    ∧ (let s := islSt [(SUP_CTL_AVS_EN, 0, 1)] (fun x => { x with vddArc := 776 }); s.Powered .north ∧ s.north.mainUp = true ∧ s.north.flag SUP_CTL_AVS_EN = true ∧ 800 < s.north.isl.vddArc + 25)
    ∧ (let s := islSt [(SUP_CTL_AVS_EN, 0, 1), (SUP_AVS_AVS_HI, 0, 20), (SUP_AVS_AVS_LO, 0, 10), (SUP_AVS_AVS_MIN, 0, 699)] (fun x => { x with vddArc := 700 }); let h := s.north; s.Powered .north ∧ h.mainUp = true ∧ h.flag SUP_CTL_AVS_EN = true ∧ h.fget SUP_AVS_AVS_HI < 21 ∧ h.isl.vddArc < h.fget SUP_AVS_AVS_MIN + 5)
    ∧ (let s := islSt [(SUP_CTL_AVS_EN, 0, 1), (SUP_AVS_AVS_HI, 0, 20), (SUP_AVS_AVS_LO, 0, 10)] (fun x => { x with vddArc := 800 }); let h := s.north; s.Powered .north ∧ h.mainUp = true ∧ h.flag SUP_CTL_AVS_EN = true ∧ 9 ≤ h.fget SUP_AVS_AVS_HI ∧ 9 < h.fget SUP_AVS_AVS_LO ∧ 800 < h.isl.vddArc + 5) :=
  by decide +kernel

theorem witness_HousekeepingConverters :
    (let s := st [(HKA_STAT_STATE, 0, 1), (HKA_CTL_LEN, 0, 32), (HKA_STAT_ENTRY, 0, 30)]; let h := s.north; s.Powered .north ∧ h.fget HKA_STAT_STATE = 1 ∧ h.fget HKA_CTL_LEN ≤ 32 ∧ h.fget HKA_STAT_ENTRY + 1 < h.fget HKA_CTL_LEN)
    ∧ (let s := st [(HKA_STAT_STATE, 0, 1), (HKA_CTL_LEN, 0, 32), (HKA_STAT_ENTRY, 0, 31)]; let h := s.north; s.Powered .north ∧ h.fget HKA_STAT_STATE = 1 ∧ h.fget HKA_CTL_LEN ≤ 32 ∧ h.fget HKA_CTL_LEN ≤ h.fget HKA_STAT_ENTRY + 1)
    ∧ (let s := st [(HKA_CTL_LEN, 0, 32), (HKA_STAT_STATE, 0, 0)]; let h := s.north; s.Powered .north ∧ 1 ≤ h.fget HKA_CTL_LEN ∧ h.fget HKA_CTL_LEN ≤ 32 ∧ h.fget HKA_STAT_STATE = 0)
    ∧ (let s := st [(HKA_CTL_LEN, 0, 33)]; s.Powered .north ∧ 32 < s.north.fget HKA_CTL_LEN)
    ∧ (let s := st [(HKA_STAT_STATE, 0, 3)]; s.Powered .north ∧ s.north.fget HKA_STAT_STATE = 3)
    ∧ (let s := st [(HKA_STAT_STATE, 0, 2)]; s.Powered .north ∧ s.north.calibrating = true ∧ s.north.inStep 8 = false ∧ s.north.fget HKA_STAT_STATE = 2)
    ∧ (let s := islSt [(HKA_STAT_STATE, 0, 3)] (fun x => { x with hkaPrev := 2 }); s.Powered .north ∧ s.north.calibrating = true ∧ s.north.inStep 8 = false ∧ s.north.fget HKA_STAT_STATE = 3)
    ∧ (let s := islSt [(HKA_CTL_LEN, 0, 32), (HKA_STAT_STATE, 0, 3)] (fun x => { x with hkaPrev := 0 }); let h := s.north; s.Powered .north ∧ 1 ≤ h.fget HKA_CTL_LEN ∧ h.fget HKA_CTL_LEN ≤ 32 ∧ h.fget HKA_STAT_STATE = 3 ∧ h.isl.hkaPrev = 0)
    ∧ ((0 : Int) < (1 : Nat) - 800 * rneDiv ((0 : Nat) : Int) 800) :=
  by decide +kernel

theorem witness_SmbusTarget :
    (let bs : List Byte := [0, 0, 0, 0, 1, 0, 0, 0]; up.Powered .north ∧ up.north.isl.ready = true ∧ bs.length = 8 ∧ up.north.running = true)
    ∧ (let s := downSt id; let bs : List Byte := [0x20, 0, 0, 0, 1, 0, 0, 0]; s.Powered .north ∧ s.north.isl.ready = true ∧ bs.length = 8 ∧ s.north.running = false ∧ windowOf (fieldAt bs 0 4 % 0x8000000) = (.north, 0x20))
    ∧ (let s := downSt id; let bs : List Byte := [0, 0, 0, 4, 1, 0, 0, 0]; s.Powered .north ∧ s.north.isl.ready = true ∧ bs.length = 8 ∧ s.north.running = false ∧ windowOf (fieldAt bs 0 4 % 0x8000000) = (HalfId.north.other, 0))
    ∧ (up.Powered .north ∧ up.north.isl.ready = true ∧ windowOf (up.north.isl.smbAddr % 0x8000000) = (.north, 0) ∧ up.north.isl.smbAddr % 4 = 0 ∧ up.north.running = true)
    ∧ (let s := islSt [] (fun x => { x with smbAddr := SUP_RAIL_1.at 8 }); let h := s.north; s.Powered .north ∧ h.isl.ready = true ∧ findReg (SUP_RAIL_1.at 8) = some (SUP_RAIL_1, 8) ∧ SUP_RAIL_1 ∈ [SUP_FEED, SUP_BO, SUP_AVS, SUP_THERM, SUP_RAIL_1, HKA_CAL, HKA_SEQ, LSE_EPOCH] ∧ h.isl.smbAddr = SUP_RAIL_1.at 8 + 0x4000000 * portOf .north ∧ SMap.find? h.latch (SUP_RAIL_1.at 8) = none)
    ∧ (let bs := switchCmd 0; let a := up.north.isl.smbAsm ++ bs; 1 ≤ bs.length ∧ bs.length ≤ 255 ∧ up.north.isl.smbFrame = none ∧ 16 ≤ a.length ∧ frTotal a ≤ a.length)
    ∧ (let bs := (switchCmd 0).take 20; let a := up.north.isl.smbAsm ++ bs; 1 ≤ bs.length ∧ bs.length ≤ 255 ∧ (a.length < 16 ∨ a.length < frTotal a)) :=
  by decide +kernel

theorem witness_MailboxAndPort :
    (up.Works .north ∧ up.north.flag DEV_MBX_CTL_BUSY = false ∧ up.north.exy.mbxReply = none ∧ up.north.running = true ∧ bit (up.north.record 47) 12 = false ∧ up.north.laneUp mgmtLane = true ∧ up.north.laneClear mgmtLane)
    ∧ (let s := st [(DEV_MBX_CTL_BUSY, 0, 1)]; s.Works .north ∧ s.north.flag DEV_MBX_CTL_BUSY = true)
    ∧ (let s := exySt [] (fun e => { e with mbxReply := some (switchCmd 0) }); s.Works .north ∧ s.north.exy.mbxReply = some (switchCmd 0) ∧ (switchCmd 0).length ≤ 16384)
    ∧ (let bs : List Byte := List.replicate 12 0 ++ [0x86, 0xDD]; fieldBe bs 12 2 ≠ 0x0806 ∧ fieldBe bs 12 2 ≠ 0x0800) :=
  by decide +kernel

/-- One of two stations is another one, whichever address the port has. -/
theorem witness_MailboxAndPort_other :
    ∃ bs : List Byte, fieldBe bs 12 2 = 0x0806 ∧ slice bs 0 6 ≠ up.north.mgmtMac ∧ slice bs 0 6 ≠ List.replicate 6 0xFF := by
  by_cases h : up.north.mgmtMac = List.replicate 6 0
  · exact ⟨List.replicate 12 1 ++ [8, 6], by rw [h]; decide⟩
  · exact ⟨List.replicate 12 0 ++ [8, 6], by decide, fun e => h (e.symm.trans (by decide)), by decide⟩

theorem witness_StartUp :
    (up.Settled ∧ up.north.isl.powered = true ∧ up.north.mainUp = true)
    ∧ (let s := boardSt (fun b => { b with resetN := false }) (downSt id); let h := s.north; s.Settled ∧ s.board.resetN = false ∧ h.isl.powered = true ∧ h.isl.ready = true ∧ h.isl.tripped = false ∧ h.own = 0 ∧ (List.range 9).find? (fun q => h.flag SUP_RAIL_0_EN q) = some 0)
    ∧ ((booting 3 id).Settled ∧ (booting 3 id).north.inStep 3 = true)
    ∧ ((booting 4 id).Settled ∧ (booting 4 id).north.inStep 4 = true ∧ 0 ∈ bays ∧ 0 ∈ [0] ∧ (bays.filter (fun p => !([0] : List Nat).contains p))[63]? = some 64 ∧ (bays.filter (fun p => !([0] : List Nat).contains p))[64]? = some 65)
    ∧ (let s := booting 6 id; s.Settled ∧ (s.north.inStep 6 = true ∨ s.north.inStep 7 = true) ∧ s.north.exy.port.slots = [])
    ∧ (let s := boardSt (fun b => { b with bridgeUp := false }) (booting 7 (fun e => { e with port := ⟨true, 8192, [none, none]⟩ })); s.Settled ∧ s.north.inStep 7 = true ∧ s.bootChoice .north = some none)
    ∧ (let s := boardSt (fun b => { b with bridgeUp := false }) (booting 7 (fun e => { e with port := ⟨true, 8192, [none, some [1]]⟩ })); s.Settled ∧ s.north.inStep 7 = true ∧ s.bootChoice .north = some (some (0, 1, [1])) ∧ 0 < 2 ∧ 1 < 2)
    ∧ (let s := upN (fun _ => (booting 8 id).north.fset HKA_STAT_STATE 2); let h := s.north; s.Settled ∧ h.isl.powered = true ∧ h.inStep 8 = true ∧ h.calibrating = true ∧ h.roleHeld = true ∧ h.exy.image = none ∧ h.isl.rejoin = false ∧ s.board.pfwN = true) :=
  by decide +kernel

theorem witness_ReplayAndSwitch :
    (let h := (heldSt []).north; (heldSt []).Settled ∧ h.mainUp = true ∧ h.fget NVM_STAT_REPLAY = 2 ∧ h.flag TMG_STAT_TIME_VALID = true ∧ h.exy.replayLeft = [])
    ∧ (let s := heldSt [heldCmd]; let h := s.north; let bs := heldCmd; let p := withStart 0x0403 (frPayload bs) h.startFrameNow; s.Settled ∧ h.mainUp = true ∧ h.fget NVM_STAT_REPLAY = 2 ∧ h.flag TMG_STAT_TIME_VALID = true ∧ h.exy.replayLeft = [bs] ∧ recordedFault bs = none ∧ frOpcode bs = 0x0403 ∧ h.replays bs = true ∧ h.seqRule ⟨3, [], [], 0, frSession bs, true, false, false⟩ (frSeq bs) = .execute ∧ h.opFormat 0x0403 p = true ∧ fieldAt p 8 8 = h.startFrameNow ∧ (∀ x ∈ h.exy.planned, x.opcode ≠ 0x0403))
    ∧ (let s := exySt [] (fun e => { e with switchTo := some (7, 9), draining := true }); let h := s.north; s.Settled ∧ h.isl.powered = true ∧ h.running = true ∧ h.exy.switchTo = some (7, 9) ∧ h.exy.draining = true ∧ (false = true ∨ h.switchDrained = true) ∧ h.exy.image = none)
    ∧ (let bs := switchCmd 0; up.RunsIn .north .north (udp bs) bs 0x0200 ∧ up.north.running = true ∧ up.south.running = true ∧ (up.half .north).effective (fieldAt (frPayload bs) 8 8) = some 2 ∧ bit (byteAt (frPayload bs) 1) 0 = false ∧ (∀ k ∈ [HalfId.north, .south], (up.half k).exy.switchTo = none ∧ (up.half k).exy.draining = false))
    ∧ (let bs := switchCmd 2; up.RunsInBoth .north (udp bs) bs 0x0200 ∧ frTarget bs = 2) :=
  by decide +kernel

theorem witness_FlashUpdate :
    (let s := updSt (upd0 2 0 0 0 512 false); s.Settled ∧ s.flashRuns .north = true ∧ s.north.exy.upd.aborting = false ∧ s.north.exy.upd.phase = 0 ∧ s.north.exy.upd.ofs + 4096 < (s.portSeen .north 0).slotBytes ∧ s.portReading 0 = false ∧ s.recordFenced .north (portHalf 0) = false)
    ∧ (let s := updSt (upd0 2 0 1 0 512 false); s.Settled ∧ s.flashRuns .north = true ∧ s.north.exy.upd.phase = 1 ∧ s.north.exy.upd.ofs + 256 < s.north.exy.upd.len ∧ s.portReading 0 = false ∧ s.recordFenced .north (portHalf 0) = false)
    ∧ (let s := updSt (upd0 2 0 2 0 64 false); let u := s.north.exy.upd; s.Settled ∧ s.flashRuns .north = true ∧ u.phase = 2 ∧ imgFault (s.portSeen .north 0).slotBytes (u.staged 0 (min 256 u.len) ++ (([] : List Byte).take (s.portSeen .north 0).slotBytes).drop 256) = some errNVM_HDR_BAD)
    ∧ (let s := updS (upd0 2 1 3 0 64 false); let u := s.south.exy.upd; s.Settled ∧ s.flashRuns .south = true ∧ u.aborting = false ∧ u.phase = 3 ∧ portHalf u.port = .south ∧ u.port = 1 ∧ u.slot < s.south.exy.port.slots.length)
    ∧ (let s := updSt (upd0 2 0 0 0 512 true); s.Settled ∧ s.flashRuns .north = true ∧ s.north.exy.upd.aborting = true)
    ∧ (let bs := cmd 3 1 0x0201 []; (updSt (upd0 2 0 0 0 512 false)).RunsIn .south .north (udp bs) bs 0x0201)
    ∧ (let bs := cmd 0 1 0x0202 (leBytes 4 8192); let s := updSt Exy.reset.upd; s.RunsIn .north .north (udp bs) bs 0x0202 ∧ s.north.exy.upd.state ≠ 1 ∧ s.north.exy.upd.state ≠ 2 ∧ s.updPorts .north ≠ [] ∧ (∀ n ∈ s.updPorts .north, fieldAt (frPayload bs) 0 4 ≤ (s.portSeen .north n).slotBytes) ∧ (s.north.ensureLaid.mirrorFit 8192 4096).isSome = true)
    ∧ (let bs := cmd 0 1 0x0203 (leBytes 4 0 ++ [1, 2]); let s := updSt (upd0 1 0 0 0 2 false); s.RunsIn .north .north (udp bs) bs 0x0203 ∧ s.north.exy.upd.state = 1 ∧ fieldAt (frPayload bs) 0 4 + ((frPayload bs).drop 4).length ≤ s.north.exy.upd.len)
    ∧ (let bs := cmd 0 1 0x0204 []; let s := updSt (upd0 1 0 0 0 2 false); s.RunsIn .north .north (udp bs) bs 0x0204 ∧ s.north.exy.upd.state = 1 ∧ s.updPorts .north = [0] ∧ (∀ m ∈ s.updPorts .north, (s.portSeen .north m).spare s.north.exy.image ≠ none) ∧ (∀ m ∈ s.updPorts .north, s.recordFenced .north (portHalf m) = false))
    ∧ (let bs := cmd 0 1 0x0205 []; let s := updSt (upd0 2 0 0 0 2 false); s.RunsIn .north .north (udp bs) bs 0x0205 ∧ s.north.exy.upd.state = 2 ∧ s.north.exy.upd.issued = true)
    ∧ (let bs := cmd 0 1 0x0205 []; let s := updSt (upd0 1 0 0 0 2 false); s.RunsIn .north .north (udp bs) bs 0x0205 ∧ s.north.exy.upd.state = 1) :=
  by decide +kernel

def allOnes : List Nat := List.replicate 4 (2 ^ 32 - 1)
/-- A schedule of Plaza input 0 with one beam product. -/
def sched0 : Sched := ⟨[0], allOnes, [⟨0, 0, .beam ⟨0, false, false, false, 0, 1, 0, 0, 0, 0, 0⟩⟩]⟩
def subIn (vers : List (Nat × Option Sched)) : Sub := ⟨vers, allOnes, none, [], []⟩
/-- Subarray `n` of north stands with the versions given. -/
def subSt (n : Nat) (vers : List (Nat × Option Sched)) : State := exySt [] (fun e => { e with subs := [(n, subIn vers)] })
/-- A draft of subarray 3, of the session that `udp` frames have. -/
def draft0 : Draft := ⟨0, [10, 0, 0, 1], 5000, 0, ⟨List.range 32, allOnes, []⟩⟩
def draftSt (subs : SMap Sub) : State := exySt [(DEV_FRM_CFG_DEPTH, 0, 2)] (fun e => { e with drafts := [(3, draft0)], subs := subs })
/-- Capture feed 15 of north serves product 2 of subarray 1. -/
def feedSt (x : Nat) : State := let s := feedIn x; { s with north := { s.north with exy := { s.north.exy with places := [⟨1, 2, 0, 2, 15, 0, 0, 0⟩] } } }
/-- Ring 0 of north as RING_CREATE made it, in ring state `x`. -/
def ringMade (x : Nat) : State :=
  let s := ringSt 0 (ctxIn x 0) (eng0 none none);
  { s with north := { s.north with exy := { s.north.exy with rings := [⟨0, List.replicate 40 0, 0, 4, 0, 0, none⟩] } } }
/-- A frame that waits on the SMBus. -/
def smbSt (bs : List Byte) : State := islSt [] (fun x => { x with smbFrame := some bs })
/-- South is in DOWN. -/
def southDown : State := { up with south := sets [(LSE_STAT_OWN, 0, 0), (LSE_STAT_ROLE, 0, 0)] up.south }
/-- The device record of north holds a key. -/
def keySt : State := (up.writeRecord .north [(2, 1)]).getD up
/-- Session 0 of the frames that `udp` brings has answered the frame of this number. -/
def sessSt (seq : Nat) : State := exySt [] (fun e => { e with sessions := [⟨0, [10, 0, 0, 1], 5000, 0, seq, [7]⟩] })
/-- North has one event queued for subscriber 0, whose transport code is `t`. -/
def evtSt (t : Nat) : State :=
  let s := (up.writeRecord .north [(10, t)]).getD up;
  { s with north := { s.north with exy := { s.north.exy with evts := s.north.exy.evts.set 0 ⟨[[1, 2, 3]], 0, 0⟩ } } }
/-- As `evtSt`, and south has the same registers. -/
def evtBoth (t : Nat) : State := let s := evtSt t; { s with south := { s.north with id := .south } }
/-- Words of registers of north, as bytes. -/
def regBytes (rs : List (RegDef × Nat)) : List Byte := rs.flatMap (fun r => leBytes 4 (up.north.getN r.1 r.2))
/-- SNAPSHOT at the op after an OPEN. -/
def openSt : State := arcSt [[0x10000001, 0, 1, 0x10000], [0, 0, 0, 0]] (fun h => (region0 h).modArc (fun a => { a with run := some { run0 with pc := 1 } }))

theorem witness_FrameChecksAndEvents_both : ∀ n, (evtBoth 4).south.record n = (evtBoth 4).north.record n := fun _ => rfl

theorem witness_FrameChecksAndEvents_row : IsFrameRow false (fun i rx => .ping i rx, fun bs => frOpcode bs == 0x0100) := by
  simp [IsFrameRow]

theorem witness_FrameChecksAndEvents_records : ∀ n, ((evtSt 1).half (subscriberHalf 1)).record n = (evtSt 1).north.record n := fun _ => rfl

theorem witness_QueriesAnswer :
    (let bs := cmd 0 1 0x0100 []; up.RunsIn .north .north (udp bs) bs 0x0100)
    ∧ (let bs := cmd 1 1 0x0B04 []; up.RunsIn .north .south (udp bs) bs 0x0B04)
    ∧ (let bs := cmd 3 1 0x0C00 []; up.RunsIn .south .north (udp bs) bs 0x0C00)
    ∧ (let bs := cmd 0 1 0x0902 [53]; up.RunsIn .north .north (udp bs) bs 0x0902)
    ∧ (let bs := cmd 0 1 0x0702 [1, 2]; (feedSt 0).RunsIn .north .north (udp bs) bs 0x0702 ∧ (feedSt 0).north.feedOf (byteAt (frPayload bs) 0) (byteAt (frPayload bs) 1) = some 15)
    ∧ (let bs := cmd 0 1 0x0603 (leBytes 4 524287); up.RunsIn .north .north (udp bs) bs 0x0603 ∧ ringHalf (fieldAt (frPayload bs) 0 4) = .north)
    ∧ (let bs := cmd 0 1 0x030B [15]; up.RunsIn .north .north (udp bs) bs 0x030B)
    ∧ (let bs := cmd 2 1 0x0800 []; up.RunsInBoth .north (udp bs) bs 0x0800)
    ∧ (let bs := cmd 0 1 0x0101 (leBytes 4 0x10 ++ leBytes 2 2); up.RunsIn .north .north (udp bs) bs 0x0101 ∧ up.north.running = true) :=
  by decide +kernel

theorem witness_TablesAtTicks :
    (let bs := cmd 0 1 0x0400 (leBytes 8 1 ++ leBytes 8 0 ++ List.replicate 52 0); let p := frPayload bs; up.RunsIn .north .north (udp bs) bs 0x0400 ∧ fieldAt p 8 8 = 0 ∧ 2 = up.north.frame + 2 ∧ (∀ n, n < fieldAt p 0 2 → up.north.qOfPlaza (fieldAt (slice p (16 + 52 * n) 52) 0 2) = some 0) ∧ up.north.exy.planned = [])
    ∧ (let bs := cmd 0 1 0x0401 (leBytes 2 0 ++ leBytes 2 1023 ++ leBytes 2 1 ++ leBytes 2 0 ++ leBytes 8 7 ++ leBytes 4 5); let p := frPayload bs; up.RunsIn .north .north (udp bs) bs 0x0401 ∧ up.north.qOfPlaza (fieldAt p 0 2) = some 0 ∧ fieldAt p 8 8 = 7 ∧ 7 ≠ 0 ∧ up.north.frame + 2 ≤ 7)
    ∧ (let bs := cmd 0 1 0x0402 (leBytes 8 1 ++ leBytes 8 2 ++ [0, 0, 31, 0]); let p := frPayload bs; up.RunsIn .north .north (udp bs) bs 0x0402 ∧ fieldAt p 8 8 = 2 ∧ up.north.frame + 2 ≤ 2 ∧ (∀ n, n < fieldAt p 0 2 → up.north.qOfPlaza (fieldAt p (16 + 4 * n) 2) = some 0))
    ∧ (let bs := cmd 0 1 0x0403 (leBytes 2 1023 ++ leBytes 2 1 ++ leBytes 12 0 ++ leBytes 4 1); up.RunsIn .north .north (udp bs) bs 0x0403)
    ∧ (let bs := cmd 0 1 0x0502 (leBytes 2 1023 ++ leBytes 2 511 ++ leBytes 2 1 ++ leBytes 10 0 ++ leBytes 2 9); let p := frPayload bs; up.RunsIn .north .north (udp bs) bs 0x0502 ∧ fieldAt p 2 2 + fieldAt p 4 2 ≤ 512)
    ∧ (let bs := cmd 0 1 0x0501 ([15, 0] ++ leBytes 2 0 ++ leBytes 2 1 ++ leBytes 2 63 ++ leBytes 2 1 ++ leBytes 14 0 ++ leBytes 12 9); let p := frPayload bs; let s := subSt 15 [(0, some sched0)]; s.RunsIn .north .north (udp bs) bs 0x0501 ∧ fieldAt p 16 8 = 0 ∧ s.north.schedAt (byteAt p 0) (s.north.frame + 2) = some sched0 ∧ (SMap.find? s.north.exy.subs (byteAt p 0)).any (fun y => y.latest.isSome) = true ∧ fieldAt p 2 2 + fieldAt p 4 2 ≤ sched0.beams ∧ fieldAt p 6 2 + fieldAt p 8 2 ≤ 64 * sched0.blocks)
    ∧ (let bs := cmd 0 1 0x0500 ([15, 0] ++ leBytes 2 0 ++ leBytes 2 1 ++ leBytes 2 63 ++ leBytes 2 1 ++ leBytes 14 0 ++ leBytes 12 9); let p := frPayload bs; let s := subSt 15 [(0, some sched0)]; s.RunsIn .north .north (udp bs) bs 0x0500 ∧ s.north.schedAt (byteAt p 0) (s.north.frame + 2) = some sched0 ∧ (∀ n, n < fieldAt p 4 2 * fieldAt p 8 2 → -(2 ^ 31) ≤ (s.north.beamPhase (64 * firstBlk64 sched0.inputs + (fieldAt p 6 2 + n % fieldAt p 8 2)) (sext 64 (fieldAt p (24 + 12 * n) 8))).2 ∧ (s.north.beamPhase (64 * firstBlk64 sched0.inputs + (fieldAt p 6 2 + n % fieldAt p 8 2)) (sext 64 (fieldAt p (24 + 12 * n) 8))).2 < 2 ^ 31))
    ∧ (let bs := cmd 0 1 0x0404 (leBytes 2 1 ++ leBytes 2 0 ++ leBytes 2 0 ++ [1, 0] ++ leBytes 8 9); let p := frPayload bs; up.RunsIn .north .north (udp bs) bs 0x0404 ∧ (∀ n, n < fieldAt p 0 2 → fieldAt p (4 + 12 * n) 2 < up.north.plazaInputs)) :=
  by decide +kernel

theorem witness_DraftsAndCommits :
    (let bs := cmd 0 1 0x0300 [15, 0]; up.RunsIn .north .north (udp bs) bs 0x0300 ∧ byteAt (frPayload bs) 1 = 0 ∧ up.north.sub? (byteAt (frPayload bs) 0) = none)
    ∧ (let bs := cmd 0 1 0x0300 [15, 1]; let s := subSt 15 [(0, some sched0)]; s.RunsIn .north .north (udp bs) bs 0x0300 ∧ byteAt (frPayload bs) 1 = 1 ∧ (s.north.sub? (byteAt (frPayload bs) 0)).bind Sub.latest = some sched0)
    ∧ (let bs := cmd 0 1 0x0301 (leBytes 4 3 ++ List.replicate 1040 0xFF); (draftSt []).RunsIn .north .north (udp bs) bs 0x0301)
    ∧ (let bs := cmd 0 1 0x0302 ([3, 7, 7, 31, 8, 2, 3, 0] ++ leBytes 4 1 ++ leBytes 12 0); let s := draftSt []; let src := srcOf (udp bs) bs; s.RunsIn .north .north (udp bs) bs 0x0302 ∧ SMap.find? s.north.exy.drafts 3 = some draft0 ∧ draft0.kind = src.kind ∧ draft0.ip = src.ip ∧ draft0.port = src.port ∧ draft0.num = src.num)
    ∧ (let bs := cmd 0 1 0x0303 ([3, 255, 0, 0, 0, 23] ++ leBytes 2 1 ++ leBytes 10 0 ++ leBytes 2 0); (draftSt []).RunsIn .north .north (udp bs) bs 0x0303)
    ∧ (let bs := cmd 0 1 0x0304 ([3, 0, 0, 0, 0, 0] ++ leBytes 2 1 ++ leBytes 2 0 ++ leBytes 2 64 ++ leBytes 8 0); (draftSt []).RunsIn .north .north (udp bs) bs 0x0304)
    ∧ (let bs := cmd 0 1 0x0305 [3, 0]; (draftSt []).RunsIn .north .north (udp bs) bs 0x0305)
    ∧ (let bs := cmd 0 1 0x0306 (3 :: List.replicate 15 0); let s := draftSt [(3, subIn [(1, some sched0)])]; s.RunsIn .north .north (udp bs) bs 0x0306 ∧ s.north.effective (fieldAt (frPayload bs) 8 8) = some 2 ∧ SMap.find? s.north.exy.drafts 3 = some draft0 ∧ s.north.subPending 3 = true)
    ∧ (let bs := cmd 0 1 0x0306 (3 :: List.replicate 15 0); let s := draftSt []; let h := s.north; let h1 := ((s.taken .north (udp bs)).on .north (fun g => g.modExy (fun e => { e with drafts := SMap.erase e.drafts 3 }))).half .north; s.RunsIn .north .north (udp bs) bs 0x0306 ∧ h.effective (fieldAt (frPayload bs) 8 8) = some 2 ∧ SMap.find? h.exy.drafts 3 = some draft0 ∧ h.subPending 3 = false ∧ h.sub? 3 = none ∧ h.exy.subs = [] ∧ draft0.sched.flows = [] ∧ (h1.admitDraft 3 2 draft0.sched draft0.sched (commitQuotas draft0.sched.quotas none)).1 = stOk) :=
  by decide +kernel

theorem witness_SubarrayChanges :
    (let bs := cmd 0 1 0x0307 (15 :: List.replicate 15 0); let s := subSt 15 [(0, some sched0)]; let s := { s with north := s.north.putN DEV_FRM_IDX_LO 100 }; let h := s.north; s.RunsIn .north .north (udp bs) bs 0x0307 ∧ h.sub? 15 = some (subIn [(0, some sched0)]) ∧ (subIn [(0, some sched0)]).latest ≠ none ∧ h.subPending 15 = false ∧ h.effective (fieldAt (frPayload bs) 8 8) = some 102)
    ∧ (let bs := cmd 0 1 0x0308 (leBytes 4 15 ++ leBytes 16 0); let s := subSt 15 [(0, some sched0)]; s.RunsIn .north .north (udp bs) bs 0x0308 ∧ s.north.sub? 15 = some (subIn [(0, some sched0)]) ∧ (subIn [(0, some sched0)]).latest ≠ none)
    ∧ (let bs := cmd 0 1 0x0309 (leBytes 32 15 ++ List.replicate 32 0xFF); let s := subSt 15 [(0, some sched0)]; s.RunsIn .north .north (udp bs) bs 0x0309 ∧ s.north.sub? 15 = some (subIn [(0, some sched0)]))
    ∧ (let bs := cmd 0 1 0x030A [4, 1, 1, 0]; up.RunsIn .north .north (udp bs) bs 0x030A ∧ up.north.subRuns = false)
    ∧ (let bs := cmd 0 1 0x030A [0, 0, 16, 0]; let s := st [(DEV_SUBARR_ACT_ACTIVE, 0, 1)]; s.RunsIn .north .north (udp bs) bs 0x030A ∧ s.north.subRuns = true)
    ∧ (let s := subSt 15 [(0, none), (0, some sched0)]; let s := { s with north := s.north.putN DEV_FRM_IDX_LO 100 }; s.Works .north ∧ 15 < 16 ∧ s.north.subDrained 15 = true)
    ∧ (up.Works .north ∧ 15 < 16 ∧ up.north.subDrained 15 = false) :=
  by decide +kernel

theorem witness_RingOpcodes :
    (let bs := cmd 0 1 0x0600 (leBytes 4 524287 ++ [4, 0] ++ leBytes 42 0); let h := up.north; let p := frPayload bs; up.RunsIn .north .north (udp bs) bs 0x0600 ∧ h.id = .north ∧ ringHalf (fieldAt p 0 4) = .north ∧ h.ringRec (fieldAt p 0 4) = none ∧ h.exy.subs = [] ∧ (h.ensureLaid.mirrorFit (32 * 2 ^ byteAt p 4) (32 * 2 ^ byteAt p 4)).isSome = true ∧ byteAt p 5 = 0)
    ∧ (let bs := cmd 0 1 0x0600 (leBytes 4 0 ++ [4, 4] ++ leBytes 42 0); let h := up.north; let p := frPayload bs; let rb := (h.ensureLaid.mirrorFit 512 512).getD 0; let g := upN (fun h => { h.ensureLaid with exy := { h.exy with rings := h.exy.rings ++ [⟨0, ringConf p, rb, byteAt p 4, 0, 0, none⟩] } }); up.RunsIn .north .north (udp bs) bs 0x0600 ∧ (g.north.mirrorFit (16 * 2 ^ byteAt p 5) 16).isSome = true)
    ∧ (let bs := cmd 0 1 0x0601 (leBytes 8 0 ++ [5] ++ leBytes 39 0); let s := ringMade 3; let h := s.north; let c := (h.ctxLoad 0).ctx 0; s.RunsIn .north .north (udp bs) bs 0x0601 ∧ ringHalf 0 = .north ∧ (h.ringRec 0).isSome = true ∧ c.length = ctxBytes ∧ ¬ (ctxState c = ringRunning ∨ ctxState c = ringParked))
    ∧ (let bs := cmd 0 1 0x0601 (leBytes 8 0 ++ List.replicate 40 0); let s := ringMade 1; let h := s.north; let c := (h.ctxLoad 0).ctx 0; let conf := ringConf (frPayload bs); let new := leBytes 1 (byteAt c 8 / 16 * 16 + byteAt conf 0) ++ conf.drop 1; s.RunsIn .north .north (udp bs) bs 0x0601 ∧ (h.ringRec 0).isSome = true ∧ c.length = ctxBytes ∧ (∀ w, w < 10 → (fieldAt new (4 * w) 4 ^^^ fieldAt c (8 + 4 * w) 4) &&& (0xFFFFFFFF ^^^ ctxLiveMask (2 + w)) = 0))
    ∧ (let bs := cmd 0 1 0x0602 (leBytes 4 0 ++ [1]); let s := ringMade 1; s.RunsIn .north .north (udp bs) bs 0x0602 ∧ (s.north.ringRec 0).isSome = true ∧ byteAt (frPayload bs) 4 = 1)
    ∧ (let bs := cmd 0 1 0x0602 (leBytes 4 0 ++ [2]); let s := ringMade 3; s.RunsIn .north .north (udp bs) bs 0x0602 ∧ (s.north.ringRec 0).isSome = true ∧ byteAt (frPayload bs) 4 = 2)
    ∧ (let bs := cmd 0 1 0x0602 (leBytes 4 0 ++ [3]); let s := ringMade 3; let h := s.north; s.RunsIn .north .north (udp bs) bs 0x0602 ∧ (h.ringRec 0).isSome = true ∧ byteAt (frPayload bs) 4 = 3 ∧ (ctxState (h.ctx 0) = ringStopped ∨ ctxState (h.ctx 0) = ringIdle) ∧ ctxPidx (h.ctx 0) = ctxDidx (h.ctx 0) ∧ h.ringNamed 0 = false ∧ (h.eng 0).held = none)
    ∧ (let bs := cmd 0 1 0x0600 (leBytes 4 524288 ++ [4, 0] ++ leBytes 42 0); up.RunsIn .north .north (udp bs) bs 0x0600 ∧ up.north.id = .north ∧ ringHalf (fieldAt (frPayload bs) 0 4) ≠ .north)
    ∧ (let bs := cmd 1 1 0x0602 (leBytes 4 0 ++ [3]); up.RunsIn .north .south (udp bs) bs 0x0602 ∧ up.south.id = .south ∧ ringHalf (fieldAt (frPayload bs) 0 4) ≠ .south ∧ byteAt (frPayload bs) 4 = 3) :=
  by decide +kernel

theorem witness_RegisterOpcodes :
    (let bs := cmd 0 1 0x0102 (leBytes 4 0x100008 ++ leBytes 2 1 ++ leBytes 2 0 ++ leBytes 4 0); let p := frPayload bs; up.RunsIn .north .north (udp bs) bs 0x0102 ∧ up.north.running = true ∧ (∀ k, k < fieldAt p 4 2 → (fieldAt p 0 4 + 4 * k) % 0x4000000 ≠ DEV_MBX_CTL.at 0))
    ∧ (let bs := cmd 0 1 0x0604 (List.replicate 116 0); up.RunsIn .north .north (udp bs) bs 0x0604 ∧ up.north.flag OUT_CTL_RUN = false)
    ∧ (let bs := cmd 0 1 0x0700 ([1, 2, 1, 0] ++ leBytes 8 0); let s := feedSt 0; s.RunsIn .north .north (udp bs) bs 0x0700 ∧ s.north.feedOf 1 2 = some 15 ∧ 15 < 16 ∧ (byteAt (frPayload bs) 2 = 1 ∧ s.north.capState 15 ≠ capReading))
    ∧ (let bs := cmd 0 1 0x0700 ([1, 2, 8, 0] ++ leBytes 8 0); let s := feedSt 3; s.RunsIn .north .north (udp bs) bs 0x0700 ∧ (byteAt (frPayload bs) 2 = 8 ∧ s.north.capState 15 = capFrozen))
    ∧ (let bs := cmd 0 1 0x0701 ([1, 2, 1, 0] ++ leBytes 2 1023 ++ leBytes 14 0); (feedSt 0).RunsIn .north .north (udp bs) bs 0x0701)
    ∧ (let bs := cmd 0 1 0x0900 ([53, 0, 0, 0] ++ regBytes [(LAN_CFG, 53), (LAN_TIME, 53), (LAN_DEG, 53), (LAN_UNC, 53)]); let d := fieldAt (frPayload bs); up.RunsIn .north .north (udp bs) bs 0x0900 ∧ (∀ w ∈ [(LAN_CFG, 53, d 4 4), (LAN_TIME, 53, d 8 4), (LAN_DEG, 53, d 12 4), (LAN_UNC, 53, d 16 4)], (up.half .north).wordOk w.1 w.2.1 w.2.2 = true))
    ∧ (let bs := cmd 0 1 0x0901 ([0, 0, 0, 0] ++ leBytes 8 0); up.RunsIn .north .north (udp bs) bs 0x0901 ∧ up.north.flag LAN_STAT_INJ_ACT 0 = false)
    ∧ (let bs := cmd 0 1 0x0C01 ([32, 1, 0, 0] ++ List.replicate 128 0); let p := frPayload bs; let s := st [(HKA_STAT_STATE, 0, 0)]; s.RunsIn .north .north (udp bs) bs 0x0C01 ∧ s.north.fget HKA_STAT_STATE = 0 ∧ (∀ k, k < byteAt p 0 → onlyBits (fieldAt p (4 + 4 * k) 4) (fieldMask HKA_SEQ (fun _ => true)) = true))
    ∧ (let bs := cmd 0 1 0x0C02 (regBytes [(SUP_FEED, 0), (SUP_BO, 0), (SUP_AVS, 0), (SUP_THERM, 0), (SUP_CTL, 0)]); let d (o : Nat) : Nat := fieldAt (frPayload bs) o 4; up.RunsIn .north .north (udp bs) bs 0x0C02 ∧ d 16 < 4 ∧ d 8 < 2 ^ 28 ∧ (∀ w ∈ [(SUP_FEED, 0, d 0), (SUP_BO, 0, d 4), (SUP_AVS, 0, d 8), (SUP_THERM, 0, d 12), (SUP_CTL, 0, d 16)], (up.half .north).wordOk w.1 w.2.1 w.2.2 = true))
    ∧ (let bs := cmd 0 1 0x0B03 [127]; up.RunsIn .north .north (udp bs) bs 0x0B03)
    ∧ (let bs := cmd 0 1 0x0B00 []; let s := st [(LSE_STAT_OTHER_HOT, 0, 1)]; s.RunsIn .north .north (udp bs) bs 0x0B00 ∧ s.north.isPrimary = true ∧ s.north.flag LSE_STAT_OTHER_HOT = true)
    ∧ (let bs := cmd 0 1 0x0C03 [1]; let s := southDown; s.RunsIn .north .north (udp bs) bs 0x0C03 ∧ s.south.isl.powered = true ∧ s.south.own = 0 ∧ s.south.restartBarred = false ∧ s.board.resetN = true)
    ∧ (let bs := cmd 2 1 0x0801 ([6, 0, 0, 0] ++ regBytes [(TMG_REF_0, 6), (TMG_REF_1, 6), (TMG_REF_2, 6), (TMG_REF_3, 6), (TMG_REF_4, 6)]); let p := frPayload bs; up.RunsInBoth .north (udp bs) bs 0x0801 ∧ (∀ r ∈ [TMG_REF_0, TMG_REF_1, TMG_REF_2, TMG_REF_3, TMG_REF_4].zipIdx, up.north.wordOk r.1 6 (fieldAt p (4 + 4 * r.2) 4) = true ∧ up.south.wordOk r.1 6 (fieldAt p (4 + 4 * r.2) 4) = true))
    ∧ (let bs := cmd 2 1 0x0802 (regBytes ([TMG_CTL, TMG_SLEW, TMG_QUAL, TMG_LOCK, TMG_DIS_THR, HO_THR, HO_Y, HO_Q].map (fun r => (r, 0)))); let p := frPayload bs; up.RunsInBoth .north (udp bs) bs 0x0802 ∧ (∀ r ∈ [TMG_CTL, TMG_SLEW, TMG_QUAL, TMG_LOCK, TMG_DIS_THR, HO_THR, HO_Y, HO_Q].zipIdx, up.north.wordOk r.1 0 (fieldAt p (4 * r.2) 4) = true ∧ up.south.wordOk r.1 0 (fieldAt p (4 * r.2) 4) = true))
    ∧ (let bs := cmd 2 1 0x0804 (regBytes [(TMG_PTP_CFG, 0)]); up.RunsInBoth .north (udp bs) bs 0x0804 ∧ up.north.wordOk TMG_PTP_CFG 0 (fieldAt (frPayload bs) 0 4) = true ∧ up.south.wordOk TMG_PTP_CFG 0 (fieldAt (frPayload bs) 0 4) = true)
    ∧ (let bs := cmd 2 1 0x0803 (leBytes 8 0xFF00000001); up.RunsInBoth .north (udp bs) bs 0x0803 ∧ up.north.subRuns = false ∧ up.south.subRuns = false)
    ∧ (let bs := cmd 0 1 0x0102 (leBytes 4 0x100008 ++ leBytes 2 1 ++ leBytes 2 0 ++ leBytes 4 0); let s0 := up.taken .north (udp bs); let u := s0.after [.registerWrite .north 0x100008 0 ⟨false, false, 0⟩]; s0.setsSkm 0x100008 0 = false ∧ up.CanReply u .north (udp bs) ∧ u.north.running = true)
    ∧ (let bs := cmd 0 1 0x0102 (leBytes 4 (CHN_CFG.at 0) ++ leBytes 2 1 ++ leBytes 2 0 ++ leBytes 4 0x10200); let s0 := up.taken .north (udp bs); let u := s0.after [.registerWrite .north (CHN_CFG.at 0) 0x10200 ⟨false, false, 0⟩, .registerWrite .north (CHN_CFG.at 0 - CHN_CFG.at 0 + CHN_SK_THR.at 0) (skThrRow (bits (0x10200 : Word).toNat 9 8)) ⟨false, false, 0⟩]; up.RunsIn .north .north (udp bs) bs 0x0102 ∧ s0.setsSkm (CHN_CFG.at 0) 0x10200 = true ∧ up.CanReply u .north (udp bs) ∧ u.north.running = true)
    ∧ (let bs := cmd 0 1 0x0604 (List.replicate 116 0); up.CanReply ((up.taken .north (udp bs)).after (regWrites .north [(OUT_PORT_0.at 3, 0)])) .north (udp bs))
    ∧ (let bs := cmd 0 1 0x0700 ([1, 2, 1, 0] ++ leBytes 8 0); let s := feedSt 0; let s0 := s.taken .north (udp bs); let seqs := [(CAP_FEED_9.at 15, 0), (CAP_FEED_10.at 15, 0)]; s.CanReply (s0.after (regWrites .north (seqs ++ [(CAP_CMD.at 15, 1)]))) .north (udp bs))
    ∧ (let bs := cmd 0 1 0x0701 ([1, 2, 1, 0] ++ leBytes 2 1023 ++ leBytes 14 0); let s := feedSt 0; s.CanReply ((s.taken .north (udp bs)).after (regWrites .north [(CAP_FEED_4.at 15, 0), (CAP_FEED_5.at 15, 2 ^ 31 + 1023), (CAP_FEED_6.at 15, 0), (CAP_FEED_7.at 15, 0)])) .north (udp bs))
    ∧ (let bs := cmd 0 1 0x0900 ([0, 0, 0, 0] ++ regBytes [(LAN_CFG, 0), (LAN_TIME, 0), (LAN_DEG, 0), (LAN_UNC, 0)]); let s := up; let d (o : Nat) : Nat := fieldAt (frPayload bs) o 4; s.CanReply ((s.taken .north (udp bs)).after (regWrites .north [(LAN_CFG.at 0, up.north.getN LAN_CFG &&& (0xFFFFFFFF - 2 ^ LAN_CFG_EN.lo)), (LAN_CFG.at 0, d 4 &&& (0xFFFFFFFF - 2 ^ LAN_CFG_EN.lo)), (LAN_TIME.at 0, d 8), (LAN_DEG.at 0, d 12), (LAN_UNC.at 0, d 16), (LAN_CFG.at 0, d 4)])) .north (udp bs) ∧ s.RunsIn .north .north (udp bs) bs 0x0900 ∧ ∀ w ∈ [(LAN_CFG, 0, d 4), (LAN_TIME, 0, d 8), (LAN_DEG, 0, d 12), (LAN_UNC, 0, d 16)], (s.half .north).wordOk w.1 w.2.1 w.2.2 = true)
    ∧ (let bs := cmd 0 1 0x0901 ([0, 0, 0, 0] ++ leBytes 8 0); let s := up; let d (o : Nat) : Nat := fieldAt (frPayload bs) o 4; s.CanReply ((s.taken .north (udp bs)).after (regWrites .north [(LAN_TEST.at 0, d 4), (LAN_INJ.at 0, d 8)])) .north (udp bs) ∧ (s.half .north).wordOk LAN_TEST 0 (d 4) = true ∧ bits (d 4) 17 16 ≠ 3 ∧ bits (d 4) 11 8 ≤ 9 ∧ bits (d 4) 3 0 ≤ 9)
    ∧ (let bs := cmd 0 1 0x0C01 ([32, 1, 0, 0] ++ List.replicate 128 0); let s := st [(HKA_STAT_STATE, 0, 0)]; let d (o : Nat) : Nat := fieldAt (frPayload bs) o 4; s.CanReply ((s.taken .north (udp bs)).after (regWrites .north ((List.range 32).map (fun k => (HKA_SEQ.at k, d (4 + 4 * k))) ++ [(HKA_CTL.at 0, 2 ^ 31 + 2 ^ 29 + 32)]))) .north (udp bs))
    ∧ (let bs := cmd 0 1 0x0C02 (regBytes [(SUP_FEED, 0), (SUP_BO, 0), (SUP_AVS, 0), (SUP_THERM, 0), (SUP_CTL, 0)]); let s := up; let d (o : Nat) : Nat := fieldAt (frPayload bs) o 4; s.CanReply ((s.taken .north (udp bs)).after (regWrites .north ([(SUP_FEED, 0, d 0), (SUP_BO, 0, d 4), (SUP_AVS, 0, d 8), (SUP_THERM, 0, d 12), (SUP_CTL, 0, d 16)].map (fun w => (w.1.at w.2.1, w.2.2))))) .north (udp bs))
    ∧ (let bs := cmd 0 1 0x0B03 [127]; let s := up; s.CanReply ((s.taken .north (udp bs)).after ([.hbmPcFence .north 127 false])) .north (udp bs))
    ∧ (let bs := cmd 0 1 0x0B00 []; let s := st [(LSE_STAT_OTHER_HOT, 0, 1)]; s.CanReply ((s.taken .north (udp bs)).after ([.lseHandover .north])) .north (udp bs))
    ∧ (let bs := cmd 0 1 0x0C03 [1]; let s := southDown; s.CanReply ((s.taken .north (udp bs)).after ([.supRestart .south])) .north (udp bs))
    ∧ (let bs := cmd 2 1 0x0801 ([6, 0, 0, 0] ++ regBytes [(TMG_REF_0, 6), (TMG_REF_1, 6), (TMG_REF_2, 6), (TMG_REF_3, 6), (TMG_REF_4, 6)]); let s := up; let d (o : Nat) : Nat := fieldAt (frPayload bs) o 4; s.CanReply ((s.taken .north (udp bs)).after (let ws := [TMG_REF_0, TMG_REF_1, TMG_REF_2, TMG_REF_3, TMG_REF_4].zipIdx.map (fun r => (r.1.at 6, d (4 + 4 * r.2))); regWrites .north ws ++ regWrites .south ws)) .north (udp bs))
    ∧ (let bs := cmd 2 1 0x0802 (regBytes ([TMG_CTL, TMG_SLEW, TMG_QUAL, TMG_LOCK, TMG_DIS_THR, HO_THR, HO_Y, HO_Q].map (fun r => (r, 0)))); let s := up; let d (o : Nat) : Nat := fieldAt (frPayload bs) o 4; s.CanReply ((s.taken .north (udp bs)).after (let ws := [TMG_CTL, TMG_SLEW, TMG_QUAL, TMG_LOCK, TMG_DIS_THR, HO_THR, HO_Y, HO_Q].zipIdx.map (fun r => (r.1.at 0, d (4 * r.2))); regWrites .north ws ++ regWrites .south ws)) .north (udp bs))
    ∧ (let bs := cmd 2 1 0x0804 (regBytes [(TMG_PTP_CFG, 0)]); let s := up; let d (o : Nat) : Nat := fieldAt (frPayload bs) o 4; s.CanReply ((s.taken .north (udp bs)).after (regWrites .north [(TMG_PTP_CFG.at 0, d 0)] ++ regWrites .south [(TMG_PTP_CFG.at 0, d 0)])) .north (udp bs))
    ∧ (let bs := cmd 2 1 0x0803 (leBytes 8 0xFF00000001); let s := up; let d (o : Nat) : Nat := fieldAt (frPayload bs) o 4; s.CanReply ((s.taken .north (udp bs)).after (let ws := [(TMG_TSET_0.at 0, d 0), (TMG_TSET_1.at 0, 2 ^ 31 + byteAt (frPayload bs) 4)]; regWrites .north ws ++ regWrites .south ws)) .north (udp bs)) :=
  by decide +kernel

theorem witness_RecordAndErrors :
    (let bs := cmd 0 1 0x0103 (leBytes 18 1 ++ leBytes 2 1500 ++ leBytes 2 8191); up.RunsIn .north .north (udp bs) bs 0x0103 ∧ up.recordFenced .north .north = false)
    ∧ (let bs := cmd 0 1 0x0104 (List.replicate 32 0xAB); (smbSt bs).RunsIn .north .north .smbus bs 0x0104 ∧ (smbSt bs).recordFenced .north .north = false)
    ∧ (let bs := cmd 0 1 0x0A00 (leBytes 4 7 ++ List.replicate 4 0xFF); up.RunsIn .north .north (udp bs) bs 0x0A00)
    ∧ (let bs := cmd 3 1 0x0A01 [7]; up.RunsIn .south .north (udp bs) bs 0x0A01 ∧ up.recordFenced .north .north = false)
    ∧ (let bs := cmd 0 1 0x0A02 [64]; errSt.RunsIn .north .north (udp bs) bs 0x0A02 ∧ errSt.north.mainUp = true)
    ∧ (let bs := cmd 0 1 0x0B01 (1 :: List.replicate 15 0); let h := up.north; up.RunsIn .north .north (udp bs) bs 0x0B01 ∧ h.effective (fieldAt (frPayload bs) 8 8) = some 2 ∧ up.south.running = true ∧ (up.south.isPrimary = true → up.south.flag LSE_STAT_OTHER_HOT = true) ∧ up.south.exy.resetAt = none)
    ∧ (let bs := cmd 0 1 0x0B02 [0]; let s := st [(ARC_BAY_STAT_STATE, 0, 2), (ARC_BAY_STAT_STATE, 65, 1)]; s.RunsIn .north .north (udp bs) bs 0x0B02 ∧ s.north.bayState (byteAt (frPayload bs) 0) = bayFenced ∧ (∃ q ∈ bays, s.north.bayState q = baySpare))
    ∧ (let bs := cmd 0 1 0x0105 (leBytes 8 0); let h := openSt.north; let r : ArcRun := ⟨0, 0, 0, 0, 1, none, none, []⟩; openSt.RunsIn .north .north (udp bs) bs 0x0105 ∧ h.arc.run = some r ∧ r.sub = byteAt (frPayload bs) 0 ∧ h.arcGoes = true ∧ h.openBlock r = some (0, 1, 0) ∧ h.mapped (fieldAt (frPayload bs) 4 4 * 4096) (imageLen (leBytes 3 0 ++ [1] ++ leBytes 2 1) + 4) = true)
    ∧ (let bs := cmd 0 1 0x0B01 (1 :: List.replicate 15 0); let s := southDown; s.RunsIn .north .north (udp bs) bs 0x0B01 ∧ s.north.effective (fieldAt (frPayload bs) 8 8) = some 2 ∧ s.south.isl.powered = true ∧ s.south.own = 0 ∧ s.south.restartBarred = false ∧ s.board.resetN = true ∧ s.south.isPrimary = false ∧ s.south.exy.resetAt = none) :=
  by decide +kernel

/-- SNAPSHOT on `openSt`: its passes have ended. -/
def snapEnded : State :=
  (openSt.taken .north (udp (cmd 0 1 0x0105 (leBytes 8 0)))).on .north (fun g => Half.finishPasses
    (2 * (g.fset ARC_CTL_SUSPEND 1).arcSettle.arc.passes.length + (g.fset ARC_CTL_SUSPEND 1).arcSettle.lta.blocks.length) (g.fset ARC_CTL_SUSPEND 1).arcSettle)
/-- Its image stands in memory, and the sequencer goes on. -/
def snapDone : State :=
  let r : ArcRun := ⟨0, 0, 0, 0, 1, none, none, []⟩
  snapEnded.on .north (fun g => ((g.memWrite 0 (g.contextImage r (g.nextPart r) 0 0 1 true none)).fset ARC_CTL_SUSPEND 0).arcSettle)

theorem witness_RecordAndErrors_snapshot :
    (snapEnded.half .north).arc.passes.any (fun p => p.status != 0 && p.shape < 2 && 0 ≤ p.slot && p.slot < 1) = false
    ∧ openSt.CanReply snapDone .north (udp (cmd 0 1 0x0105 (leBytes 8 0))) :=
  by decide +kernel

theorem witness_RegisterWrites :
    (let h := up.north; let r := LAN_DEG; up.Powered .north ∧ up.reach .south .north (r.at 53) = .served ∧ findReg (r.at 53) = some (r, 53) ∧ r ∉ actingRegs ∧ standingAddr (r.at 53) = false ∧ h.regReject r 53 0 (h.regLocked r 53) = none)
    ∧ (let h := up.north; let r := ING_FDLY; up.Powered .north ∧ up.reach .north .north (r.at 0) = .served ∧ findReg (r.at 0) = some (r, 0) ∧ r ≠ LSE_DREC ∧ h.regReject r 0 0xFFFF (h.regLocked r 0) = some errFDLY_RANGE)
    ∧ (let h := up.north; let r := DEV_FRM_CFG; up.reach .north .north (r.at 0) = .served ∧ findReg (r.at 0) = some (r, 0) ∧ h.regReject r 0 7 (h.regLocked r 0) = some 0)
    ∧ (let r := LSE_DREC; up.reach .north .north (r.at 63) = .served ∧ findReg (r.at 63) = some (r, 63) ∧ up.recordFenced .north .north = false ∧ up.reach .south .north (r.at 63) = .served ∧ up.recordFenced .south .north = true)
    ∧ (up.north.mainUp = true ∧ (∀ e ∈ [(EVC_SWSET, 0), (EVC_PENDING, 31), (EVC_TGT_3, 11), (ERR_CTL, 0), (TRW_DOORBELL, 0), (TRW_RING_CMD, 0)], up.reach .north .north (e.1.at e.2) = .served ∧ findReg (e.1.at e.2) = some (e.1, e.2)))
    ∧ (findReg 0x3FFFFFC = none ∧ 0x3FFFFFC < 0x4000000 ∧ 0x3FFFFFD % 4 ≠ 0) :=
  by decide +kernel

theorem witness_RegisterReads :
    (let r := HKA_RES; up.Settled ∧ up.south.isl.powered = true ∧ up.north.isl.powered = true ∧ up.reach .south .north (r.at 63) = .served ∧ findReg (r.at 63) = some (r, 63) ∧ r ∉ [EVC_TGT_2, ERR_HEAD_0, DLY_GAIN_DATA, BMF_TDATA, BMF_SDATA] ∧ SMap.find? up.north.latch (r.at 63) = none)
    ∧ (3 < 0x4000000 ∧ up.reach .north .north 3 = .served ∧ 3 % 4 ≠ 0)
    ∧ (bridgeOff.Settled ∧ bridgeOff.south.isl.powered = true ∧ bridgeOff.north.isl.powered = true ∧ bridgeOff.reach .south .north 0x300000 = .errored)
    ∧ (let s := downSt id; s.Settled ∧ s.north.isl.powered = true ∧ s.reach .north .north 0x20 = .none_) :=
  by decide +kernel

theorem witness_FrameConfigRefused :
    (up.reach .north .north (DEV_FRM_CFG.at 0) = .served ∧ (up.half .north).subRuns = false ∧ (4 < bits (5 : Word).toNat 2 0 ∨ 16384 / (1024 * 2 ^ bits (5 : Word).toNat 2 0) < bits (5 : Word).toNat 18 4))
    ∧ (up.reach .north .north (DEV_FRM_CFG.at 0) = .served ∧ ¬ 4 < bits (0x110 : Word).toNat 2 0 ∧ 16384 / (1024 * 2 ^ bits (0x110 : Word).toNat 2 0) < bits (0x110 : Word).toNat 18 4) :=
  by decide +kernel

theorem witness_UnmappedWindow :
    (up.Settled ∧ (up.half .north).isl.powered = true ∧ 0x1600000 ≤ 0x1600000 ∧ up.reach .north .south 0x1600000 = .served ∧ up.reach .north .north 0x3FFFFFF = .served) :=
  by decide +kernel

theorem witness_FrameChecksAndEvents :
    (let bs := (cmd 0 1 0x0100 []).take 16 ++ [0, 0, 0, 0]; up.Settled ∧ up.north.running = true ∧ up.north.waitingFrame (udp bs) = some bs ∧ 20 ≤ bs.length ∧ fieldAt bs 0 2 = 0x4558 ∧ frOpcode bs = 0x0100 ∧ crcGood bs = false)
    ∧ (let bs := cmd 0 1 0x0106 []; up.north.waitingFrame (udp bs) = some bs ∧ 20 ≤ bs.length ∧ fieldAt bs 0 2 = 0x4558 ∧ crcGood bs = true ∧ opKnown (frOpcode bs) = false ∧ frOpcode bs ≠ 0x0100)
    ∧ (let bs := cmd 0 1 0x0100 []; let s := exySt [] (fun e => { e with sessions := [⟨0, [10, 0, 0, 1], 5000, 0, 1, [7]⟩] }); let h := s.north; s.Settled ∧ h.running = true ∧ h.waitingFrame (udp bs) = some bs ∧ 20 ≤ bs.length ∧ fieldAt bs 0 2 = 0x4558 ∧ frOpcode bs = 0x0100 ∧ h.frameFault (udp bs) bs = none ∧ h.seqRule (srcOf (udp bs) bs) (frSeq bs) = .resend [7])
    ∧ (let bs := cmd 1 1 0x0602 (leBytes 4 0 ++ [4]); up.FrameRuns .north (udp bs) bs ∧ frOpcode bs = 0x0602 ∧ frTarget bs = portOf .south ∧ up.reaches .north .south = true ∧ (byteAt (frPayload bs) 4 = 0 ∨ 3 < byteAt (frPayload bs) 4))
    ∧ (let s := evtSt 1; let h := s.north; s.Settled ∧ h.running = true ∧ h.exy.evts[0]? = some ⟨[[1, 2, 3]], 0, 0⟩ ∧ bits (h.record 10) 7 0 = 1 ∧ subscriberHalf 1 = .north)
    ∧ (let s := evtSt 3; let h := s.north; s.Settled ∧ h.running = true ∧ bits (h.record 10) 7 0 = 3 ∧ subscriberHalf 3 = .north ∧ h.flag DEV_MBX_CTL_EVT_VALID = false)
    ∧ (let s := evtSt 5; bits (s.north.record 10) 7 0 = 5 ∧ subscriberHalf 5 = .north)
    ∧ (let s := boardSt (fun b => { b with bridgeUp := false }) (evtSt 6); let h := s.north; s.Settled ∧ h.running = true ∧ h.exy.evts[0]? = some ⟨[[1, 2, 3]], 0, 0⟩ ∧ bits (h.record 10) 7 0 = 6 ∧ subscriberHalf 6 ≠ .north ∧ s.board.bridgeUp = false)
    ∧ up.north.laneClear mgmtLane
    ∧ (let bs := mkFrame 0 0 0 5 0x0100 [] keySt.north.commandKey; let h := keySt.north; keySt.Settled ∧ h.running = true ∧ h.laneClear mgmtLane ∧ h.waitingFrame (udp bs) = some bs ∧ fieldAt bs 0 2 = 0x4558 ∧ h.frameFault (udp bs) bs = none ∧ h.seqRule (srcOf (udp bs) bs) (frSeq bs) = .noAuth)
    ∧ (let bs := cmd 0 1 0x0100 []; let h := (sessSt 2).north; (sessSt 2).Settled ∧ h.waitingFrame (udp bs) = some bs ∧ h.frameFault (udp bs) bs = none ∧ h.seqRule (srcOf (udp bs) bs) (frSeq bs) = .discard)
    ∧ (let bs := cmd 0 1 0x0100 []; let s := islSt [] (fun x => { x with takingUp := true }); s.Settled ∧ s.north.running = true ∧ s.north.laneClear mgmtLane ∧ s.north.waitingFrame (udp bs) = some bs ∧ s.north.frameFault (udp bs) bs = none ∧ s.north.seqRule (srcOf (udp bs) bs) (frSeq bs) = .execute ∧ s.channelBusy = true)
    ∧ (let bs := mkFrame 0 0 0 1 0x0100 [] none; up.north.waitingFrame (udp bs) = some bs ∧ up.north.frameFault (udp bs) bs = none)
    ∧ (let bs := withCrc (leBytes 2 0x4559 ++ leBytes 14 0); 20 ≤ bs.length ∧ fieldAt bs 0 2 ≠ 0x4558 ∧ up.north.waitingFrame (udp bs) = some bs ∧ frOpcode bs = 0)
    ∧ (up.north.waitingFrame (udp []) = some [] ∧ ([] : List Byte).length < 20)
    ∧ (let s := evtSt 1; s.north.laneUp mgmtLane = true ∧ s.north.laneClear mgmtLane)
    ∧ (let s := evtBoth 4; let h := s.north; s.Settled ∧ h.running = true ∧ h.exy.evts[0]? = some ⟨[[1, 2, 3]], 0, 0⟩ ∧ bits (h.record 10) 7 0 = 4 ∧ subscriberHalf 4 = .south ∧ s.board.bridgeUp = true ∧ s.south.running = true ∧ s.south.flag DEV_MBX_CTL_EVT_VALID = false)
    ∧ (let h := sets [(DEV_MBX_CTL_EVT_VALID, 0, 1)] (evtSt 3).north; h.running = true ∧ h.exy.evts[0]? = some ⟨[[1, 2, 3]], 0, 0⟩ ∧ bits (h.record 10) 7 0 = 3 ∧ h.flag DEV_MBX_CTL_EVT_VALID = true) :=
  by decide +kernel

theorem witness_SafeKept :
    (up.Settled ∧ (up.north.id = .north ∧ Memory.wf up.north.hbm.mem = true ∧ SMap.canon 0 up.north.arc.cy = true) ∧ (up.south.id = .south ∧ Memory.wf up.south.hbm.mem = true ∧ SMap.canon 0 up.south.arc.cy = true)) :=
  by decide +kernel

/-- A safe state steps to a next state. -/
theorem witness_SafeKept_step : ∃ t, step up = .next t := ⟨_, rfl⟩

end Sys2Proof.Tests
end

section
/-! Register accesses (R4, R7, R417, R419, R420): which word an access meets, what a read and the end of its command leave, and the
statements RegisterWrites and RegisterReads. -/

namespace Sys2Proof.Machine

/-! ### The word that an access meets -/

/-- Every register word stands on a word boundary inside the window (R413, R416), and its RC fields inside the word. -/
theorem allRegs_inWindow : ∀ r ∈ allRegs,
    r.base % 4 = 0 ∧ r.stride % 4 = 0 ∧ r.base + (r.count - 1) * r.stride < 0x4000000 ∧ rcMask r < 2 ^ 32 := by
  decide +kernel

/-- A register found at an offset is listed, and its index is one that it has. -/
theorem findReg_some {a k : Nat} {r : RegDef} (hf : findReg a = some (r, k)) : r ∈ allRegs ∧ k ≤ r.count - 1 := by
  obtain ⟨q, hq, hk⟩ := List.exists_of_findSome?_eq_some hf
  split at hk
  · cases hk
  · split at hk
    · split at hk
      · cases hk
        exact ⟨hq, Nat.zero_le _⟩
      · cases hk
    · split at hk
      · rename_i hc
        cases hk
        simp only [Bool.and_eq_true, decide_eq_true_eq] at hc
        exact ⟨hq, by omega⟩
      · cases hk

/-- The offset of a register found there: on a word boundary, inside the window. -/
theorem findReg_at {k : Nat} {r : RegDef} (hf : findReg (r.at k) = some (r, k)) : r.at k % 4 = 0 ∧ r.at k < 0x4000000 := by
  obtain ⟨hr, hk⟩ := findReg_some hf
  obtain ⟨hb, hs, hw, -⟩ := allRegs_inWindow r hr
  have hle : k * r.stride ≤ (r.count - 1) * r.stride := Nat.mul_le_mul_right _ hk
  have hm : k * r.stride % 4 = 0 := by rw [Nat.mul_mod, hs, Nat.mul_zero, Nat.zero_mod]
  unfold RegDef.at
  omega

/-- An address inside a half's window is of that half, at its offset (R413). -/
theorem windowOf_window {a : Nat} (i : HalfId) (ha : a < 0x4000000) : windowOf ((a + 0x4000000 * portOf i) % 0x8000000) = (i, a) := by
  cases i
  · have e : (a + 0x4000000 * portOf .north) % 0x8000000 = a := by simp only [portOf]; omega
    rw [e, windowOf, if_pos ha]
  · have e : (a + 0x4000000 * portOf .south) % 0x8000000 = a + 0x4000000 := by simp only [portOf]; omega
    rw [e, windowOf, if_neg (by omega), Nat.add_sub_cancel]

theorem window_aligned (a : Nat) (i : HalfId) : (a + 0x4000000 * portOf i) % 4 = a % 4 := by omega

/-! ### Refused writes -/

/-- A whole, aligned write that reaches its half is a write of the word at its offset. -/
theorem State.busWrite_served {s : State} {v i : HalfId} {a : Nat} {w : Word} {late : Bool} {same : Nat} (ha : a < 0x4000000) (h4 : a % 4 = 0)
    (hr : s.reach v i a = .served) : s.busWrite v (a + 0x4000000 * portOf i) w late false same = s.regWrite v i a w late same := by
  simp [State.busWrite, windowOf_window i ha, hr, window_aligned, h4]

/-- A write of ING_FDLY that is out of range raises source 806, FDLY_RANGE, besides the error record (R63). -/
theorem State.regWrite_fdly_refused {s : State} {v i : HalfId} {q : Nat} {w : Word} {late : Bool} {same : Nat}
    (hf : findReg (ING_FDLY.at q) = some (ING_FDLY, q)) (hn : (s.half i).lin ≤ bits w.toNat 15 0) :
    s.regWrite v i (ING_FDLY.at q) w late same = s.onIsland i (fun h => (h.raiseOnce 806).log errFDLY_RANGE) := by
  have hrej : ∀ l, (s.half i).regReject ING_FDLY q w.toNat l = some errFDLY_RANGE := by
    intro l
    simp [Half.regReject, hn, show (ING_FDLY == DEV_FRM_CFG) = false by decide, show (ING_FDLY == ING_CTL) = false by decide,
      show (ING_FDLY == ING_LANE_CFG) = false by decide]
  have hdrec : (ING_FDLY == LSE_DREC) = false := by decide
  simp only [State.regWrite, hf, hdrec, show (ING_FDLY == EVC_ENABLE) = false by decide, show (ING_FDLY == EVC_PENDING) = false by decide,
    Bool.false_and, Bool.false_eq_true, if_false, hrej]
  rfl

/-- Such a write leaves source 806 pending, where it has not been raised in this tick interval. -/
theorem fdly_refused_pends {s : State} {v i : HalfId} {q : Nat} {w same : Word} {late : Bool} (hs : s.Settled) (hp : (s.half i).isl.powered = true)
    (hu : (s.half i).mainUp = true) (ho : (s.half i).once.contains 806 = false) (hr : s.reach v i (ING_FDLY.at q) = .served)
    (hf : findReg (ING_FDLY.at q) = some (ING_FDLY, q)) (hn : (s.half i).lin ≤ bits w.toNat 15 0) :
    Completes (.registerWrite v (ING_FDLY.at q + 0x4000000 * portOf i) w ⟨late, false, same⟩) s
      (fun t => (t.half i).srcBit EVC_PENDING 806 = true) := by
  obtain ⟨h4, ha⟩ := findReg_at hf
  refine Completes.onIsland (i := i) (f := fun h => (h.raiseOnce 806).log errFDLY_RANGE) ?_ ⟨hs, hp⟩ (by simpa using hs.half i) ?_
  · rw [← State.regWrite_fdly_refused (v := v) (late := late) (same := same.toNat) hf hn, ← State.busWrite_served ha h4 hr]
    rfl
  · have hpend := (s.half i).raise_pending 806 hu (by decide) (by decide)
    have h1 : EVC_PENDING.at (806 / 32) ≠ ERR_STAT.at 0 := by decide
    have h2 : EVC_PENDING.at (806 / 32) ≠ ERR_SUPPR.at 0 := by decide
    rw [State.half_setHalf, Half.srcBit, Half.finish_getN _ _ (by decide), Half.log_getN _ _ _ h1 h2, Half.raiseOnce, if_neg (by simpa using ho)]
    exact hpend

/-- North runs and has power; every other register has its reset value, and nothing has been raised. -/
def northRuns : State :=
  { State.reset with north := { (Half.reset .north).fset LSE_STAT_OWN 2 with isl := { Island.reset with powered := true } } }

/-- Refutes O52: the clause of the refused writes lets no register change but ERR_STAT and ERR_SUPPR. In `northRuns` a write of 0xFFFF to ING_FDLY of
input 0 is out of range (R63), and the source FDLY_RANGE that it raises, 806 (Table ING-13), sets its bit in EVC_PENDING. -/
theorem not_registerWrites : ¬ Obligations.RegisterWrites := by
  unfold Obligations.RegisterWrites
  intro hall
  have hreach : northRuns.reach .north .north (ING_FDLY.at 0) = .served := by decide +kernel
  have hfind : findReg (ING_FDLY.at 0) = some (ING_FDLY, 0) := by decide +kernel
  have hset : northRuns.Settled := ⟨rfl, rfl⟩
  have hlin : (northRuns.half .north).lin ≤ bits (0xFFFF : Word).toNat 15 0 := by decide +kernel
  obtain ⟨-, hrefused, -⟩ := hall northRuns .north .north ING_FDLY 0 0xFFFF 0 false ⟨hset, rfl⟩ hreach hfind
  obtain ⟨t, ht, -, -, -, hbut⟩ := hrefused errFDLY_RANGE (by decide) (by decide +kernel)
  obtain ⟨t', ht', hpend⟩ := fdly_refused_pends (same := 0) (late := false) hset rfl (by decide +kernel) rfl hreach hfind hlin
  obtain rfl : t = t' := by rw [ht] at ht'; cases ht'; rfl
  have hkept : (t.half .north).srcBit EVC_PENDING 806 = northRuns.north.srcBit EVC_PENDING 806 := by
    simp only [Half.srcBit, Half.getN, hbut EVC_PENDING (806 / 32) (by decide) (by decide)]
    rfl
  have hclear : northRuns.north.srcBit EVC_PENDING 806 = false := by decide +kernel
  rw [hkept, hclear] at hpend
  cases hpend

/-! ### What the end of an access leaves of a half -/

theorem Half.StoresKept.of_units {g h : Half} (hhbm : h.hbm = g.hbm) (harc : h.arc = g.arc) (hfront : h.front = g.front) (hxch : h.xch = g.xch)
    (htrw : h.trw = g.trw) (hlta : h.lta = g.lta) (hbmf : h.bmf = g.bmf) : Half.StoresKept g h := by
  simp [Half.StoresKept, Half.byte, Half.cyWord, hhbm, harc, hfront, hxch, htrw, hlta, hbmf]

theorem Half.StoresKept.trans {a b c : Half} (hab : Half.StoresKept a b) (hbc : Half.StoresKept b c) : Half.StoresKept a c := by
  obtain ⟨b1, c1, f1, x1, y1, t1, l1, m1⟩ := hab
  obtain ⟨b2, c2, f2, x2, y2, t2, l2, m2⟩ := hbc
  exact ⟨fun n => (b2 n).trans (b1 n), fun n => (c2 n).trans (c1 n), f2.trans f1, x2.trans x1, y2.trans y1, t2.trans t1, l2.trans l1, m2.trans m1⟩

/-- `h` is `g` after it handed out `es`: of registers, latched words and stores, nothing differs but the words of offers that the end of a
command withdraws (R354). -/
structure Half.HandsOut (g h : Half) (es : List Emission) : Prop where
  out : h.out = g.out ++ es
  latch : h.latch = g.latch
  regs : Half.RegsBut g h []
  stores : Half.StoresKept g h

theorem Half.HandsOut.refl (h : Half) : Half.HandsOut h h [] :=
  ⟨(List.append_nil _).symm, rfl, .refl h [], .of_units rfl rfl rfl rfl rfl rfl rfl⟩

theorem Half.HandsOut.trans {a b c : Half} {xs ys : List Emission} (hab : Half.HandsOut a b xs) (hbc : Half.HandsOut b c ys) :
    Half.HandsOut a c (xs ++ ys) :=
  ⟨by rw [hbc.out, hab.out, List.append_assoc], hbc.latch.trans hab.latch, hab.regs.trans hbc.regs, hab.stores.trans hbc.stores⟩

theorem Half.finish_handsOut (old g : Half) : Half.HandsOut g (Half.finish old g) [] :=
  ⟨by simp, by simp, (Half.RegsBut.refl g []).finish old, .of_units (by simp) (by simp) (by simp) (by simp) (by simp) (by simp) (by simp)⟩

theorem Half.emit_handsOut (g : Half) (e : Emission) : Half.HandsOut g (g.emit e) [e] :=
  ⟨rfl, rfl, .of_eq rfl rfl, .of_units rfl rfl rfl rfl rfl rfl rfl⟩

/-- The value of a word that no withdrawn offer counts in. -/
theorem Half.HandsOut.getN {g h : Half} {es : List Emission} (ho : Half.HandsOut g h es) {r : RegDef} {k : Nat}
    (hs : standingAddr (r.at k) = false) : h.getN r k = g.getN r k :=
  congrArg BitVec.toNat (ho.regs r k (by simp) hs)

/-! ### What an access leaves of the machine -/

/-- What half `m` hands out where half `v` alone hands out `e`. -/
def onlyFrom (v m : HalfId) (e : Emission) : List Emission := if m = v then [e] else []

theorem State.onlyHalves_setHalf (s : State) (i : HalfId) (h : Half) :
    s.setHalf i h = { s with north := (s.setHalf i h).north, south := (s.setHalf i h).south } := by cases i <;> rfl

theorem State.half_setHalf_eq (s : State) (i m : HalfId) (h : Half) : (s.setHalf i h).half m = if m = i then h else s.half m := by
  cases m <;> cases i <;> rfl

/-- An emission of half `v` changes nothing else but offers. -/
theorem State.emit_handsOut {s : State} {v : HalfId} (e : Emission) (hs : s.Settled) (hv : (s.half v).isl.powered = true) :
    let t := s.onIsland v (fun g => g.emit e)
    t = { s with north := t.north, south := t.south } ∧ ∀ m, Half.HandsOut (s.half m) (t.half m) (onlyFrom v m e) := by
  have ht := s.onIsland_eq v (fun g => g.emit e) hv (hs.half v) (hs.half v.other)
  have hown : Half.HandsOut (s.half v) (Half.finish (s.half v) ((s.half v).emit e)) [e] :=
    (Half.emit_handsOut _ e).trans (Half.finish_handsOut _ _)
  dsimp only
  rw [ht]
  refine ⟨s.onlyHalves_setHalf v _, fun m => ?_⟩
  rw [State.half_setHalf_eq, onlyFrom]
  split
  · rename_i hm
    rw [hm]
    exact hown
  · exact .refl _

/-- Half `i` becomes `g`, and half `v` hands the answer out. -/
theorem State.answer_handsOut {s : State} {v i : HalfId} {g : Half} (e : Emission) (hs : s.Settled) (hv : (s.half v).isl.powered = true)
    (hi : (s.half i).isl.powered = true) (hg : g.fatal = none) (hisl : g.isl = (s.half i).isl) :
    let t := (s.onIsland i (fun _ => g)).onIsland v (fun x => x.emit e)
    t = { s with north := t.north, south := t.south } ∧ ∀ m, Half.HandsOut (if m = i then g else s.half m) (t.half m) (onlyFrom v m e) := by
  have hset : (s.setHalf i (Half.finish (s.half i) g)).Settled := by
    have hf (m : HalfId) : ((s.setHalf i (Half.finish (s.half i) g)).half m).fatal = none := by
      rw [State.half_setHalf_eq]
      split
      · rw [Half.finish_fatal, hg]
      · exact hs.half m
    exact ⟨hf .north, hf .south⟩
  have hpow : ((s.setHalf i (Half.finish (s.half i) g)).half v).isl.powered = true := by
    rw [State.half_setHalf_eq]
    split
    · rw [Half.finish_isl, hisl, hi]
    · exact hv
  dsimp only
  rw [s.onIsland_eq i (fun _ => g) hi hg (hs.half i.other)]
  obtain ⟨heq, hout⟩ := State.emit_handsOut e hset hpow
  refine ⟨heq.trans (by rw [s.onlyHalves_setHalf i]), fun m => ?_⟩
  have hmid : Half.HandsOut (if m = i then g else s.half m) ((s.setHalf i (Half.finish (s.half i) g)).half m) [] := by
    rw [State.half_setHalf_eq]
    split
    · exact Half.finish_handsOut _ g
    · exact .refl _
  exact hmid.trans (hout m)

/-! ### Reads -/

/-- Where hardware added nothing in the cycle of the read, nothing is added to an RC field (R7). -/
theorem addedRc_zero (r : RegDef) (n : Nat) : addedRc r n 0 = 0 := by
  unfold addedRc
  induction r.fields.filter (fun f => f.acc == .rc) with
  | nil => rfl
  | cons f fs ih =>
    have hzero : bits 0 f.hi f.lo = 0 := by rw [bits, Nat.zero_div, Nat.zero_mod]
    rw [List.foldl_cons, hzero, Nat.min_zero, Nat.zero_mul]
    exact ih

theorem mixBits_lt {m a b : Nat} (hm : m < 2 ^ 32) : mixBits m a b < 2 ^ 32 :=
  Nat.or_lt_two_pow (Nat.lt_of_le_of_lt Nat.and_le_right (by omega)) (Nat.lt_of_le_of_lt Nat.and_le_right hm)

theorem mixBits_zero {a b : Nat} (ha : a < 2 ^ 32) : mixBits 0 a b = a := by
  have hand : a &&& (2 ^ 32 - 1) = a := by rw [Nat.and_two_pow_sub_one_eq_mod, Nat.mod_eq_of_lt ha]
  simpa [mixBits] using hand

/-- The value of a word as hardware shows it does not depend on what is latched. -/
theorem Half.readRaw_withLatch (h o : Half) (l : SMap Word) (wit : Bool) (r : RegDef) (k : Nat) :
    ({ h with latch := l } : Half).readRaw o wit r k = h.readRaw o wit r k := rfl

/-- The half with words of index `k` latched (R420). -/
def Half.latchAll (h o : Half) (wit : Bool) (xs : List RegDef) (k : Nat) : Half :=
  xs.foldl (fun h x => { h with latch := SMap.insert h.latch (x.at k) (BitVec.ofNat 32 (h.readRaw o wit x k)) }) h

theorem Half.latchAll_shape (h o : Half) (wit : Bool) (xs : List RegDef) (k : Nat) : ∃ l, h.latchAll o wit xs k = { h with latch := l } := by
  induction xs generalizing h with
  | nil => exact ⟨h.latch, rfl⟩
  | cons x xs ih =>
    obtain ⟨l, hl⟩ := ih { h with latch := SMap.insert h.latch (x.at k) (BitVec.ofNat 32 (h.readRaw o wit x k)) }
    exact ⟨l, hl⟩

/-- A word with none of `xs` at its offset stays as it was latched. -/
theorem Half.latchAll_other (h o : Half) (wit : Bool) (xs : List RegDef) (k a : Nat) (ha : ∀ x ∈ xs, a ≠ x.at k) :
    SMap.find? (h.latchAll o wit xs k).latch a = SMap.find? h.latch a := by
  induction xs generalizing h with
  | nil => rfl
  | cons x xs ih =>
    have hrest := ih { h with latch := SMap.insert h.latch (x.at k) (BitVec.ofNat 32 (h.readRaw o wit x k)) }
      (fun y hy => ha y (List.mem_cons_of_mem _ hy))
    exact hrest.trans (SMap.find?_insert_other _ _ (ha x List.mem_cons_self))

/-- Each word is latched with its value, where no two share an offset. -/
theorem Half.latchAll_find (h o : Half) (wit : Bool) (xs : List RegDef) (k : Nat) (hd : xs.Pairwise (fun x y => x.at k ≠ y.at k)) :
    ∀ x ∈ xs, SMap.find? (h.latchAll o wit xs k).latch (x.at k) = some (BitVec.ofNat 32 (h.readRaw o wit x k)) := by
  induction xs generalizing h with
  | nil => simp
  | cons y ys ih =>
    obtain ⟨hy, hys⟩ := List.pairwise_cons.mp hd
    let g : Half := { h with latch := SMap.insert h.latch (y.at k) (BitVec.ofNat 32 (h.readRaw o wit y k)) }
    intro x hx
    rcases List.mem_cons.mp hx with rfl | hx
    · exact (g.latchAll_other o wit ys k _ hy).trans (SMap.find?_insert_same _ _ _)
    · exact ih g hys x hx

/-- The words that a read latches stand at different offsets. -/
theorem latchedBy_pairwise (r : RegDef) (k : Nat) : (latchedBy r).Pairwise (fun x y => x.at k ≠ y.at k) := by
  unfold latchedBy
  repeat' split
  all_goals simp

/-- The half after a read of a stored word: the words that go with it latched, its RC fields left with what came in the cycle of the read. -/
def Half.readLeaves (h o : Half) (wit : Bool) (r : RegDef) (k inc : Nat) : Half :=
  let g := h.latchAll o wit (latchedBy r) k
  if rcMask r = 0 then g else g.putN r (mixBits (rcMask r) (g.getN r k) (addedRc r (g.getN r k) inc)) k

/-- A read of a stored word, none of it latched: its value without what hardware added, and what it leaves. -/
theorem Half.regRead_stored {h o : Half} {wit : Bool} {r : RegDef} {k : Nat} (inc : Nat) (hf : findReg (r.at k) = some (r, k))
    (hr : r ∉ [EVC_TGT_2, ERR_HEAD_0, DLY_GAIN_DATA, BMF_TDATA, BMF_SDATA]) (hl : SMap.find? h.latch (r.at k) = none) :
    h.regRead o wit (r.at k) inc
      = (BitVec.ofNat 32 ((mixBits (tickMask r) (h.readRaw o wit r k) (h.getShadow r k).toNat &&& readMask r) - addedRc r (h.getN r k) inc),
          h.readLeaves o wit r k inc) := by
  simp only [List.mem_cons, List.not_mem_nil, or_false, not_or] at hr
  obtain ⟨hclaim, hhead, hgain, htable, hscale⟩ := hr
  obtain ⟨l, hlatch⟩ := h.latchAll_shape o wit (latchedBy r) k
  have hget : (h.latchAll o wit (latchedBy r) k).getN r k = h.getN r k := by rw [hlatch]; rfl
  simp only [Half.regRead, hf, hl, beq_eq_false_iff_ne.mpr hclaim, beq_eq_false_iff_ne.mpr hhead, beq_eq_false_iff_ne.mpr hgain,
    beq_eq_false_iff_ne.mpr htable, beq_eq_false_iff_ne.mpr hscale, Bool.false_or, Bool.false_eq_true, if_false]
  rw [← Half.latchAll, hget, Half.readLeaves, hget]

theorem Half.readLeaves_shape (h o : Half) (wit : Bool) (r : RegDef) (k inc : Nat) :
    ∃ l rs, h.readLeaves o wit r k inc = { h with latch := l, regs := rs } := by
  obtain ⟨l, hl⟩ := h.latchAll_shape o wit (latchedBy r) k
  rw [Half.readLeaves, hl]
  split
  · exact ⟨_, _, rfl⟩
  · exact ⟨_, _, rfl⟩

@[simp] theorem Half.readLeaves_fatal (h o : Half) (wit : Bool) (r : RegDef) (k inc : Nat) : (h.readLeaves o wit r k inc).fatal = h.fatal := by
  obtain ⟨_, _, e⟩ := h.readLeaves_shape o wit r k inc
  rw [e]

@[simp] theorem Half.readLeaves_isl (h o : Half) (wit : Bool) (r : RegDef) (k inc : Nat) : (h.readLeaves o wit r k inc).isl = h.isl := by
  obtain ⟨_, _, e⟩ := h.readLeaves_shape o wit r k inc
  rw [e]

@[simp] theorem Half.readLeaves_out (h o : Half) (wit : Bool) (r : RegDef) (k inc : Nat) : (h.readLeaves o wit r k inc).out = h.out := by
  obtain ⟨_, _, e⟩ := h.readLeaves_shape o wit r k inc
  rw [e]

theorem Half.readLeaves_storesKept (h o : Half) (wit : Bool) (r : RegDef) (k inc : Nat) : Half.StoresKept h (h.readLeaves o wit r k inc) := by
  obtain ⟨l, rs, e⟩ := h.readLeaves_shape o wit r k inc
  rw [e]
  exact .of_units rfl rfl rfl rfl rfl rfl rfl

/-- A read changes no other word. -/
theorem Half.readLeaves_regsBut (h o : Half) (wit : Bool) (r : RegDef) (k inc : Nat) : Half.RegsBut h (h.readLeaves o wit r k inc) [r.at k] := by
  obtain ⟨l, hl⟩ := h.latchAll_shape o wit (latchedBy r) k
  rw [Half.readLeaves, hl]
  split
  · exact .of_eq rfl rfl
  · exact (Half.RegsBut.of_eq (a := h) (b := { h with latch := l }) rfl rfl).putN (by simp)

/-- The read word keeps its value but for its RC fields, which hold what came in the cycle of the read (R7, R419). -/
theorem Half.readLeaves_getN (h o : Half) (wit : Bool) (r : RegDef) (k inc : Nat) (hr : rcMask r < 2 ^ 32) :
    (h.readLeaves o wit r k inc).getN r k = mixBits (rcMask r) (h.getN r k) (addedRc r (h.getN r k) inc) := by
  obtain ⟨l, hl⟩ := h.latchAll_shape o wit (latchedBy r) k
  have hget : (h.latchAll o wit (latchedBy r) k).getN r k = h.getN r k := by rw [hl]; rfl
  rw [Half.readLeaves]
  split
  · rename_i hz
    rw [hget, hz, mixBits_zero (h.getN_lt r k)]
  · rw [Half.getN_putN_same, hget, Nat.mod_eq_of_lt (mixBits_lt hr)]

theorem Half.readLeaves_latch (h o : Half) (wit : Bool) (r : RegDef) (k inc : Nat) : ∀ x ∈ latchedBy r,
    SMap.find? (h.readLeaves o wit r k inc).latch (x.at k) = some (BitVec.ofNat 32 (h.readRaw o wit x k)) := by
  intro x hx
  have hlatch : (h.readLeaves o wit r k inc).latch = (h.latchAll o wit (latchedBy r) k).latch := by
    rw [Half.readLeaves]
    split
    · rfl
    · rfl
  rw [hlatch]
  exact h.latchAll_find o wit _ k (latchedBy_pairwise r k) x hx

/-! ### The answer to a read -/

section
variable {s : State} {v i : HalfId} {a inc : Nat} {narrow : Bool}

/-- A whole, aligned read that reaches its half reads the word there, and the master gets its value (R4). -/
theorem State.busReadOut_served (ha : a < 0x4000000) (h4 : a % 4 = 0) (hr : s.reach v i a = .served) :
    s.busReadOut v (a + 0x4000000 * portOf i) false inc
      = (s.onIsland i (fun _ => ((s.half i).regRead (s.half i.other) (s.witness i) a inc).2)).onIsland v
          (fun g => g.emit (.value ((s.half i).regRead (s.half i.other) (s.witness i) a inc).1)) := by
  simp [State.busReadOut, State.busRead, windowOf_window i ha, hr, window_aligned, h4]

/-- A narrower or misaligned read reads 0 (R4). -/
theorem State.busReadOut_notWhole (ha : a < 0x4000000) (h4 : a % 4 ≠ 0 ∨ narrow = true) (hr : s.reach v i a = .served) :
    s.busReadOut v (a + 0x4000000 * portOf i) narrow inc = s.onIsland v (fun g => g.emit (.value 0)) := by
  have hc : (narrow || a % 4 != 0) = true := by simpa [or_comm] using h4
  simp [State.busReadOut, State.busRead, windowOf_window i ha, hr, window_aligned, hc]

/-- A read that cannot reach its half reads 0xFFFFFFFF (R304). -/
theorem State.busReadOut_errored (ha : a < 0x4000000) (hr : s.reach v i a = .errored) :
    s.busReadOut v (a + 0x4000000 * portOf i) narrow inc = s.onIsland v (fun g => g.emit (.value 0xFFFFFFFF)) := by
  simp [State.busReadOut, State.busRead, windowOf_window i ha, hr]

/-- A read through a half whose main domain is off gets no answer. -/
theorem State.busReadOut_none (ha : a < 0x4000000) (hr : s.reach v i a = .none_) :
    s.busReadOut v (a + 0x4000000 * portOf i) narrow inc = s := by
  simp [State.busReadOut, State.busRead, windowOf_window i ha, hr]

end

/-- The master in half `v` alone has been answered, with `w`. -/
def State.AnswersRead (s t : State) (v : HalfId) (w : Word) : Prop :=
  ∀ m, (t.half m).out = (s.half m).out ++ (if m = v then [.value w] else [])

/-- Outside the halves nothing differs, and they store what they stored. -/
def State.HalvesKeep (s t : State) : Prop :=
  t = { s with north := t.north, south := t.south } ∧ ∀ m, Half.StoresKept (s.half m) (t.half m)

/-- A read that no register answers: the master gets its word, and nothing that is stored changes. -/
theorem answered_without_register {s : State} {v : HalfId} {c : Instr} {w : Word} (hs : s.Settled) (hv : (s.half v).isl.powered = true)
    (he : exec c s = .next (s.onIsland v (fun g => g.emit (.value w)))) : Completes c s (fun t => s.AnswersRead t v w ∧ s.HalvesKeep t) := by
  obtain ⟨heq, hout⟩ := State.emit_handsOut (.value w) hs hv
  exact ⟨_, he, fun m => (hout m).out, heq, fun m => (hout m).stores⟩

/-- A read of a stored word, none of it latched, while hardware adds `add` to its RC fields. -/
theorem read_of_stored {s : State} {v i : HalfId} {r : RegDef} {k n add : Nat} {c : Instr} (hs : s.Settled) (hv : (s.half v).isl.powered = true)
    (hi : (s.half i).isl.powered = true) (hreach : s.reach v i (r.at k) = .served) (hf : findReg (r.at k) = some (r, k))
    (hr : r ∉ [EVC_TGT_2, ERR_HEAD_0, DLY_GAIN_DATA, BMF_TDATA, BMF_SDATA]) (hl : SMap.find? (s.half i).latch (r.at k) = none)
    (he : exec c s = .next (s.busReadOut v (r.at k + 0x4000000 * portOf i) false n)) (hadd : addedRc r ((s.half i).getN r k) n = add) :
    let h := s.half i
    let raw (x : RegDef) : Nat := h.readRaw (s.half i.other) (s.witness i) x k
    Completes c s (fun t =>
      s.AnswersRead t v (BitVec.ofNat 32 ((mixBits (tickMask r) (raw r) (h.getShadow r k).toNat &&& readMask r) - add)) ∧ s.HalvesKeep t
      ∧ (standingAddr (r.at k) = false → (t.half i).getN r k = mixBits (rcMask r) (h.getN r k) add)
      ∧ Half.RegsBut h (t.half i) [r.at k] ∧ (i ≠ v → Half.RegsBut (s.half v) (t.half v) [])
      ∧ ∀ x ∈ latchedBy r, SMap.find? (t.half i).latch (x.at k) = some (BitVec.ofNat 32 (raw x))) := by
  intro h raw
  obtain ⟨h4, ha⟩ := findReg_at hf
  obtain ⟨-, -, -, hrc⟩ := allRegs_inWindow r (findReg_some hf).1
  let o := s.half i.other
  let wit := s.witness i
  rw [State.busReadOut_served ha h4 hreach, Half.regRead_stored n hf hr hl, hadd] at he
  obtain ⟨heq, hout⟩ := State.answer_handsOut (g := h.readLeaves o wit r k n)
    (.value (BitVec.ofNat 32 ((mixBits (tickMask r) (raw r) (h.getShadow r k).toNat &&& readMask r) - add))) hs hv hi
    ((h.readLeaves_fatal o wit r k n).trans (hs.half i)) (h.readLeaves_isl o wit r k n)
  refine ⟨_, he, ?_⟩
  have hown := hout i
  rw [if_pos rfl] at hown
  refine ⟨fun m => ?_, ⟨heq, fun m => ?_⟩, fun hst => ?_, ?_, fun hne => ?_, fun x hx => ?_⟩
  · refine (hout m).out.trans (congrArg (· ++ _) ?_)
    split
    · rename_i hm
      rw [hm]
      exact h.readLeaves_out o wit r k n
    · rfl
  · refine Half.StoresKept.trans ?_ (hout m).stores
    split
    · rename_i hm
      rw [hm]
      exact h.readLeaves_storesKept o wit r k n
    · exact (Half.HandsOut.refl _).stores
  · exact (hown.getN hst).trans ((h.readLeaves_getN o wit r k n hrc).trans (by rw [hadd]))
  · exact (h.readLeaves_regsBut o wit r k n).trans (fun q j _ hst => hown.regs q j (by simp) hst)
  · have hother := (hout v).regs
    rwa [if_neg (Ne.symm hne)] at hother
  · rw [hown.latch]
    exact h.readLeaves_latch o wit r k n x hx

/-- Settles O53. A read that reaches a register is `Half.regRead` and an emission; its clauses follow from what these leave of each half. -/
theorem registerReads : Obligations.RegisterReads := by
  unfold Obligations.RegisterReads
  intro s v i r k a inc h answers kept hs hv hi
  refine ⟨fun hreach hf => ?_, fun hreach hf hr hl => ?_, fun narrow ha c hc => ?_⟩
  · obtain ⟨h4, ha⟩ := findReg_at hf
    exact ⟨⟨_, rfl, State.busReadOut_served ha h4 hreach⟩, ⟨_, rfl, State.busReadOut_served ha h4 hreach⟩⟩
  · exact ⟨read_of_stored hs hv hi hreach hf hr hl rfl rfl, read_of_stored hs hv hi hreach hf hr hl rfl (addedRc_zero r _)⟩
  · have hexec : ∃ n, exec c s = .next (s.busReadOut v (a + 0x4000000 * portOf i) narrow n) := by
      simp only [List.mem_cons, List.not_mem_nil, or_false] at hc
      rcases hc with rfl | rfl
      · exact ⟨inc.toNat, rfl⟩
      · exact ⟨0, rfl⟩
    obtain ⟨n, he⟩ := hexec
    refine ⟨fun hreach h4 => ?_, fun hreach => ?_, fun hreach => ?_⟩
    · exact answered_without_register hs hv (he.trans (congrArg _ (State.busReadOut_notWhole ha h4 hreach)))
    · exact answered_without_register hs hv (he.trans (congrArg _ (State.busReadOut_errored ha hreach)))
    · exact he.trans (congrArg _ (State.busReadOut_none ha hreach))

end Sys2Proof.Machine
end
